-- ==== Sys2Proof/Word.lean ====
section
/-! DEFINITION. The word types of the KN672 model: the byte of every record, area and memory (R9), and the sparse
tables that hold the instances of a block under their numbers. -/

namespace Sys2Proof

/-- One byte of a record, a mailbox area, a register block or a memory (R9). -/
abbrev Byte := BitVec 8

/-- The instances of a block by number: a list of (number, value) pairs with rising numbers. An instance that is
not listed stands at the default that its reader names. -/
abbrev Tab (α : Type) := List (Nat × α)

/-- The entry of number `k`, if one is listed. -/
def Tab.find? {α : Type} : Tab α → Nat → Option α
  | [], _ => none
  | (j, v) :: t, k => if j = k then some v else Tab.find? t k

/-- The entry of number `k`, or the default `d`. -/
def Tab.getD {α : Type} (t : Tab α) (d : α) (k : Nat) : α := (Tab.find? t k).getD d

/-- The table with number `k` standing at `v`. -/
def Tab.put {α : Type} : Tab α → Nat → α → Tab α
  | [], k, v => [(k, v)]
  | (j, w) :: t, k, v =>
    if j = k then (k, v) :: t
    else if k < j then (k, v) :: (j, w) :: t
    else (j, w) :: Tab.put t k v

/-- The table with no entry of number `k`. -/
def Tab.drop {α : Type} : Tab α → Nat → Tab α
  | [], _ => []
  | (j, w) :: t, k => if j = k then Tab.drop t k else (j, w) :: Tab.drop t k

/-- The table with the entry of `k` (or the default) passed through `f`. -/
def Tab.upd {α : Type} (t : Tab α) (d : α) (k : Nat) (f : α → α) : Tab α := Tab.put t k (f (Tab.getD t d k))

/-- Every listed value passed through `f`. -/
def Tab.mapVals {α : Type} (t : Tab α) (f : Nat → α → α) : Tab α := t.map fun p => (p.1, f p.1 p.2)

end Sys2Proof
end

