-- ==== Sys2Proof/Machine/Mem.lean ====
section
/-! DEFINITION. Byte memory in one canonical form: a list of (address, byte) pairs, addresses rising, no entry equal
to what an unlisted address reads as, which is 0 (R308 for BUFFER windows; the other memories: log entry 3). -/

namespace Sys2Proof.Machine

/-- A memory: the cells that do not read 0, by rising address. -/
abbrev Mem := List Host.Cell

/-- What an address that is not listed reads as. -/
def Mem.unlisted : Byte := 0

/-- The byte at address `a`. -/
def Mem.read : Mem → Nat → Byte
  | [], _ => Mem.unlisted
  | c :: m, a => if c.1 = a then c.2 else Mem.read m a

/-- The cell of `a` in front of a memory whose addresses are all above `a`: nothing where the byte is the unlisted one. -/
def Mem.cell (a : Nat) (b : Byte) (m : Mem) : Mem := if b = Mem.unlisted then m else (a, b) :: m

/-- The memory with byte `b` at address `a`. -/
def Mem.write : Mem → Nat → Byte → Mem
  | [], a, b => Mem.cell a b []
  | c :: m, a, b =>
    if a < c.1 then Mem.cell a b (c :: m)
    else if c.1 = a then Mem.cell a b m
    else c :: Mem.write m a b

/-- The memory with the bytes `bs` from address `a` upward. -/
def Mem.writeBytes (m : Mem) (a : Nat) : List Byte → Mem
  | [] => m
  | b :: bs => Mem.writeBytes (Mem.write m a b) (a + 1) bs

/-- The `n` bytes from address `a` upward. -/
def Mem.readBytes (m : Mem) (a : Nat) : Nat → List Byte
  | 0 => []
  | n + 1 => Mem.read m a :: Mem.readBytes m (a + 1) n

/-- The memory with the `n` bytes from `a` upward reading 0. -/
def Mem.erase (m : Mem) (a n : Nat) : Mem := m.filter fun c => decide (c.1 < a ∨ a + n ≤ c.1)

/-- Every cell of `m` lies above address `a`. -/
def Mem.above (a : Nat) : Mem → Bool
  | [] => true
  | c :: m => decide (a < c.1) && Mem.above a m

/-- The canonical form: addresses strictly rising, no listed byte equal to the unlisted one. -/
def Mem.wf : Mem → Bool
  | [] => true
  | c :: m => decide (c.2 ≠ Mem.unlisted) && Mem.above c.1 m && Mem.wf m

end Sys2Proof.Machine
end

