-- ==== Sys2Proof/Machine/Types/Board.lean ====
section
/-! DEFINITION. State in flash and in the firmware's holdings: firmware images, board data, the saved configuration
(R366, R378, R463, R464), and the JTAG port (R512). -/

namespace Sys2Proof.Machine

/-- A firmware image (R378). -/
structure ImageSt where
  /-- 32 bits; R378 (13): version; as manufactured 0 (DESIGN CHOICE, log 8). -/
  version : Nat
  /-- R378 (13): state of the flash image, 0 EMPTY, 2 VERIFIED, 3 INVALID; as manufactured A VERIFIED, B EMPTY (log 8). -/
  state : Nat
  /-- 32 bits; R378 (13): size; as manufactured 0 (DESIGN CHOICE, log 8). -/
  size : Nat
  /-- R378 (13): bytes up to the highest that FW.WRITE_IMAGE has staged for it; reset none staged. -/
  staged : Option Nat
  /-- R380 (13): size that an open commit names. -/
  commitSize : Nat
deriving DecidableEq, Repr

/-- A configuration command in force or stored (R464): the request that made it. -/
structure CfgItem where
  /-- 16 bits; R361 (13): opcode. -/
  opcode : Nat
  /-- MODEL: the object it concerns; a later command on the same object takes its place. -/
  key : Nat
  /-- R361 (13): request bytes. -/
  req : List Byte
deriving DecidableEq, Repr

/-- A pipe table of the stored configuration (R464). -/
structure CfgTable where
  /-- R368 (13): handle. -/
  handle : Nat
  /-- R368 (13): port. -/
  port : Nat
  /-- R368 (13): kind. -/
  kind : Nat
  /-- R368 (13): size. -/
  size : Nat
  /-- R196 (06): contents. -/
  data : List Byte
deriving DecidableEq, Repr

/-- JTAG instructions of R512 and R513. -/
inductive JtagInstr
  | bypass | idcode | sample | preload | extest | clamp | highz | extestPulse | extestTrain | dbgRead
deriving DecidableEq, Repr

/-- Flash, board data, configuration, JTAG. -/
structure BoardSt where
  /-- R378 (13): image A. -/
  imageA : ImageSt
  /-- R378 (13): image B. -/
  imageB : ImageSt
  /-- R463 (17): image that flash marks active, 0 A, 1 B; as manufactured A (log 8). -/
  marked : Nat
  /-- R378 (13): running image, 0 A, 1 B; reset the marked one. -/
  running : Nat
  /-- 32 bytes; R366 (13): text of SYSTEM.SET_BOARD; as manufactured 0 (log 8). -/
  text : List Byte
  /-- R366 (13): subsystem vendor and ID stored in flash, taken at the next PERSTn#; as manufactured none (log 8). -/
  subsys : Option (Nat × Nat)
  /-- R464 (17): the configuration commands in force, by the order in which each object was first configured; reset none. -/
  cfg : List CfgItem
  /-- R366 (13): the configuration being written by SYSTEM.SAVE_CONFIG; reset none. -/
  saving : Option (List CfgItem × List CfgTable)
  /-- R464 (17): the stored configuration; as manufactured empty (log 8). -/
  saved : List CfgItem
  /-- R464 (17): tables of the stored configuration. -/
  savedTables : List CfgTable
  /-- R464 (17): stored streams skipped at S3 for NO_CAPACITY; reset none. -/
  retry : List CfgItem
  /-- R512 (19): the JTAG instruction in effect; reset BYPASS. -/
  jtag : JtagInstr
deriving DecidableEq, Repr

/-- STATE and SIZE that FW.READ_INFO shows (R378): STAGED while an image is staged in its place (log 36). -/
def ImageSt.shown (v : ImageSt) : Nat × Nat := match v.staged with | some n => (1, n) | none => (v.state, v.size)

def ImageSt.reset : ImageSt := { version := 0, state := 0, size := 0, staged := none, commitSize := 0 }

def BoardSt.reset : BoardSt :=
  { imageA := { ImageSt.reset with state := 2 }, imageB := ImageSt.reset, marked := 0, running := 0,
    text := List.replicate 32 0, subsys := none, cfg := [], saving := none, saved := [], savedTables := [], retry := [],
    jtag := .bypass }

end Sys2Proof.Machine
end

