-- ==== Sys2Proof/Machine/Types/Lane.lean ====
section
/-! DEFINITION. State of the line lanes and quads (R102 to R138, R532, spec file 04). -/

namespace Sys2Proof.Machine

/-- LN_STATE.STATE (R137). -/
inductive LaneState
  | off | wait | detect | acquire | blind | align | train | qualify | up | l1 | l2 | down | test
deriving DecidableEq, Repr

/-- The role of a quad (R102). -/
inductive QuadRole | off | camera | seam
deriving DecidableEq, Repr

/-- The fields of an alignment block (R112). -/
structure AlignFields where
  /-- 32 bits; R112 (04): SENDER_TAG. -/
  senderTag : Nat
  /-- 16 bits; R112 (04): PERIOD. -/
  period : Nat
  /-- 16 bits; R112 (04): RX_READY_MASK. -/
  rxReady : Nat
  /-- R112 (04): QUIET. -/
  quiet : Bool
  /-- R112 (04): IDLE. -/
  idle : Bool
  /-- R112 (04): TX_PRECODE. -/
  precode : Bool
  /-- 2 bits; R112 (04): RATE. -/
  rate : Nat
  /-- 2 bits; R112 (04): ROLE. -/
  role : Nat
  /-- R112 (04): PARITY. -/
  parity : Bool
  /-- 3 bits; R112 (04): WIDTH, log2. -/
  width : Nat
  /-- 4 bits; R112 (04): LANE_IDX. -/
  laneIdx : Nat
deriving DecidableEq, Repr

/-- The fields of an OH_LANE block (R146, R387). -/
structure OhLane where
  /-- 32 bits; R146 (05): PSN_NEXT, or the FSN of a Seam link (R387). -/
  psnNext : Nat
  /-- 16 bits; R146 (05): ACTIVE_MASK. -/
  activeMask : Nat
  /-- 16 bits; R146 (05): EQF_RX, 0.1 dB. -/
  eqfRx : Nat
  /-- 8 bits; R146 (05): STATUS: TX_FIFO_HIGH, OVERTEMP, SENSOR_FAULT, REPLAYING. -/
  status : Nat
  /-- 2 bits; R146 (05): PROTECT. -/
  protect : Nat
deriving DecidableEq, Repr

/-- A running LANE.INJECT (R136). -/
structure Inject where
  /-- R136 (04): kind, 0 SYMBOL, 1 BURST, 2 BREAK, 3 SILENCE. -/
  kind : Nat
  /-- 16 bits; R136 (04): events left. -/
  left : Nat
  /-- R136 (04): interval, µs. -/
  interval : Nat
  /-- R367 (13): symbols or µs. -/
  size : Nat
deriving DecidableEq, Repr

/-- The maker's transmitter limits of a lane (R357, R367). -/
structure TxLimits where
  /-- R367 (13): swing_min_mv. -/
  swingMin : Nat
  /-- R367 (13): swing_max_mv. -/
  swingMax : Nat
  /-- R367 (13): largest magnitude of each tap, 1/64: pre2, pre1, main, post1, post2. -/
  tapMax : List Nat
  /-- R367 (13): precoding, 0 free, 1 OFF only, 2 ON only. -/
  precode : Nat
deriving DecidableEq, Repr

/-- One lane. -/
structure LaneSt where
  /-- 4 bits; R137 (04): STATE; reset OFF. -/
  state : LaneState
  /-- 2 bits; R125 (04): policy, 0 FULL, 1 QUICK, 2 PRESET; reset QUICK. -/
  policy : Nat
  /-- R125 (04): equaliser frozen; reset 0. -/
  frozen : Bool
  /-- MODEL: the draw whose coefficients a frozen equaliser holds (log 12); reset 0. -/
  heldDraw : Nat
  /-- R111 (04): transmit polarity inverted; reset not. -/
  txInv : Bool
  /-- R110 (04): transmit precoding; reset OFF (VSR default). -/
  txPre : Bool
  /-- R110 (04): precoding as a SETTING of LANE.SET_TX gave it; none: the default of the mode; reset none. -/
  preSet : Option Bool
  /-- R367 (13): swing, mV; no reset value given, 400 (DESIGN CHOICE, log 7). -/
  swing : Nat
  /-- R367 (13): taps, 1/64: pre2, pre1, main, post1, post2; no reset value given, main 64 (DESIGN CHOICE, log 7). -/
  taps : List Int
  /-- R357 (12): the maker's limits; none until LANE.SET_TX sets them. -/
  limits : Option TxLimits
  /-- R113 (04): received polarity inverted; reset 0. -/
  rxInv : Bool
  /-- R113 (04): far end precodes; reset 0. -/
  rxPre : Bool
  /-- R137 (04): FAR_READY; reset 0. -/
  farReady : Bool
  /-- 16 bits; R137 (04): EQF_MIN; reset 0. -/
  eqfMin : Nat
  /-- 16 bits; R137 (04): EQF_NOW; reset 0. -/
  eqfNow : Nat
  /-- 64 bits; R137 (04): codewords received; reset 0. -/
  cw : Nat
  /-- 64 bits; R137 (04): symbols corrected; reset 0. -/
  corr : Nat
  /-- 64 bits; R137 (04): codewords BAD while UP; reset 0. -/
  bad : Nat
  /-- 16 bits; R137 (04): DOWN_COUNT; reset 0. -/
  downCount : Nat
  /-- 16 bits; R137 (04): LOCK_COUNT; reset 0. -/
  lockCount : Nat
  /-- 16 bits; R137 (04): SKEW, signed, 100 ps; reset 0. -/
  skew : Int
  /-- 10 bits; R137 (04): LN_FLAGS; reset 0. -/
  flags : Nat
  /-- 4 bits; R133 (04): test pattern; reset 0. -/
  pattern : Nat
  /-- 2 bits; R135 (04): loopback; reset NONE. -/
  loop : Nat
  /-- R133 (04): checker enabled; reset off. -/
  checker : Bool
  /-- R134 (04): checker in sync; reset 0. -/
  chkSync : Bool
  /-- 64 bits; R134 (04): checker bit errors; reset 0. -/
  chkErr : Nat
  /-- 64 bits; R134 (04): checker bits compared; reset 0. -/
  chkBits : Nat
  /-- 16 bits; R137 (04): INJ_DONE; reset 0. -/
  injDone : Nat
  /-- R136 (04): injection running; reset none. -/
  inj : Option Inject
  /-- R125 (04): rate codes with stored coefficients; reset none. -/
  coeffs : List Nat
  /-- R124 (04): adaptation of the present attempt, 0 FULL, 1 QUICK, 2 PRESET; reset 0. -/
  attempt : Nat
  /-- R124 (04): a window with EQF at T_up or above has closed in this QUALIFY; reset false. -/
  qualWindow : Bool
  /-- R124 (04): the next attempt uses FULL (after a failed QUICK); reset false. -/
  forceFull : Bool
  /-- R129, R131 (04): it restarts after DOWN or leaves L1 or L2, so its attempts use QUICK, else FULL; reset false. -/
  restart : Bool
  /-- R113 (04): consecutive comma matches under one hypothesis; reset 0. -/
  matches_ : Nat
  /-- R113 (04): hypothesis of the running matches, [1] inverted, [0] precoded; reset 0. -/
  hypothesis : Nat
  /-- R113 (04): LOCKED; reset false. -/
  locked : Bool
  /-- R114 (04): consecutive failed comma checks; reset 0. -/
  missed : Nat
  /-- R128 (04): consecutive BAD codewords; reset 0. -/
  badRun : Nat
  /-- R128 (04): consecutive windows with EQF below T_down; reset 0. -/
  lowRun : Nat
  /-- R123 (04): consecutive windows with EQF below T_up; reset 0. -/
  lowWindows : Nat
  /-- R113 (04): fields of the last good alignment block; none before the first. -/
  far : Option AlignFields
  /-- R127 (04): the transmitter sends alignment periods; reset off. -/
  txOn : Bool
  /-- R127 (04): IDLE set in the blocks sent; reset set. -/
  txIdle : Bool
  /-- R131 (04): commanded power state, 0 L0, 1 L1, 2 L2; reset L2 (quad OFF). -/
  power : Nat
  /-- R131 (04): the far end announced QUIET; reset false. -/
  quietSeen : Bool
  /-- R131 (04): the state that an L1 after an announced QUIET holds; reset UP. -/
  heldState : LaneState
  /-- R131 (04): QUIET set in the block sent; reset clear. -/
  txQuiet : Bool
  /-- 2 bits; R110 (04): the last PAM4 symbol sent before the period last started, 0 when the transmitter starts; what a
  period ends with is free (log 80); reset 0. -/
  txSym : Nat
  /-- 16 bits; R112, R115 (04): PERIOD of the block sent, the same on all lanes of a bond or link; reset 0. -/
  txPeriod : Nat
  /-- R108, R112, R146, R164, R387 (04, 05, 14): blocks 0 to 4 of the period last started, each of 257 bits: the alignment
  block and the overhead blocks; reset none. -/
  txHead : List Nat
  /-- R173 (05): RX_READY_MASK of the last alignment blocks sent, newest first, at most three; reset none. -/
  readySent : List Nat
  /-- R146 (05): the last intact OH_LANE received; reset none. -/
  oh : Option OhLane
  /-- R404 (14): the device's time when the last alignment block came, 2⁻¹⁶ ns; reset 0. -/
  rxAt : Nat
  /-- 31 bits; R133 (04): register of the pattern generator when its pattern begins; reset 0. -/
  genReg : Nat
  /-- R136 (04): the transmitter is quiet until then, for a SILENCE, 2⁻¹⁶ ns since reset release; reset none. -/
  silentUntil : Option Nat
  /-- R131 (04): it has been in L1 for more than 10 ms and leaves it through QUICK; reset false. -/
  l1Long : Bool
  /-- R129 (04): its signal has been detected, or it went DOWN with its signal present; reset false. -/
  signal : Bool
deriving DecidableEq, Repr

/-- One quad. -/
structure QuadSt where
  /-- R102 (04): role; reset OFF. -/
  role : QuadRole
  /-- R121 (04): mode, 0 VSR, 1 LR; reset VSR. -/
  mode : Nat
  /-- R367 (13): SEAM layout; reset 0. -/
  layout : Nat
  /-- 2 bits; R137 (04): rate code; reset 0b00. -/
  rate : Nat
  /-- R465 (17): configured rate code, applied from S4 on; reset 0b00. -/
  cfgRate : Nat
  /-- R118 (04): synthesiser enabled; reset off. -/
  synthOn : Bool
  /-- R118 (04): synthesiser locked; reset not. -/
  synthLock : Bool
  /-- R126 (04): when it began to wait, 2⁻¹⁶ ns since reset release; none when not waiting. -/
  waitNo : Option Nat
deriving DecidableEq, Repr

/-- The line lanes. -/
structure LanesSt where
  /-- R3 (00): L00 to L63. -/
  lanes : Tab LaneSt
  /-- R3 (00): Q00 to Q15. -/
  quads : Tab QuadSt
  /-- R120 (04): REFCLK_L in range; reset in range. -/
  refOk : Bool
  /-- R138 (04): each view's latch of each lane's block, by view × 64 + lane; reset 0. -/
  latches : Tab (List Nat)
deriving DecidableEq, Repr

def LaneSt.reset : LaneSt :=
  { state := .off, policy := 1, frozen := false, heldDraw := 0, txInv := false, txPre := false, preSet := none, swing := 400,
    taps := [0, 0, 64, 0, 0], limits := none, rxInv := false, rxPre := false, farReady := false, eqfMin := 0,
    eqfNow := 0, cw := 0, corr := 0, bad := 0, downCount := 0, lockCount := 0, skew := 0, flags := 0, pattern := 0,
    loop := 0, checker := false, chkSync := false, chkErr := 0, chkBits := 0, injDone := 0, inj := none, coeffs := [],
    attempt := 0, qualWindow := false, forceFull := false, restart := false, matches_ := 0, hypothesis := 0, locked := false, missed := 0, badRun := 0,
    lowRun := 0, lowWindows := 0, far := none, txOn := false, txIdle := true, power := 2,
    quietSeen := false, heldState := .up, txQuiet := false, txSym := 0, txPeriod := 0, txHead := [], readySent := [], oh := none, rxAt := 0,
    genReg := 0, silentUntil := none, l1Long := false, signal := false }

/-- The lane delivers codewords as they are decoded (R123): LOCKED and not in L1. One that is DOWN, or in L1 or L2, delivers
BAD. -/
def LaneSt.delivers (l : LaneSt) : Bool := l.locked && l.state != .l1

def QuadSt.reset : QuadSt :=
  { role := .off, mode := 0, layout := 0, rate := 0, cfgRate := 0, synthOn := false, synthLock := false,
    waitNo := none }

def LanesSt.reset : LanesSt := { lanes := [], quads := [], refOk := true, latches := [] }

end Sys2Proof.Machine
end

