-- ==== Sys2Proof/Machine/Types/Safety.lean ====
section
/-! DEFINITION. State of the safety monitor, the fault list and the management pairs (R432 to R451, spec file 16). -/

namespace Sys2Proof.Machine

/-- Function states of R434. -/
inductive FnState | disabled | active | demand | latched
deriving DecidableEq, Repr

/-- One safety function. -/
structure SafeFn where
  /-- R432 (16): enable bit; reset 0. -/
  enabled : Bool
  /-- 64 bits; R433 (16): scope; reset 0. -/
  scope : Nat
  /-- R434 (16): state; reset DISABLED. -/
  state : FnState
  /-- 16 bits; R436 (16): first cause since the function was last ACTIVE; reset 0. -/
  cause : Nat
  /-- 64 bits; R436 (16): its time, T64; reset 0. -/
  detect : Nat
  /-- R439 (16): MODE has been its only cause since it was last ACTIVE; reset false. -/
  onlyMode : Bool
  /-- R436 (16): causes present, each with the object it concerns; reset none. -/
  causes : List (Nat × Nat)
deriving DecidableEq, Repr

/-- An entry of the fault list (R445). -/
structure FaultSt where
  /-- 8 bits; R445 (16): kind. -/
  kind : Nat
  /-- 8 bits; R445 (16): instance. -/
  inst : Nat
  /-- R445 (16): detection, 2⁻¹⁶ ns since reset release, for since_ms. -/
  since : Nat
  /-- 64 bits; R445 (16): detection, T64. -/
  t64 : Nat
deriving DecidableEq, Repr

/-- Where the two computations that a diagnostic of R436 compares differ, as the hardware's failures have it. -/
structure HwWrong where
  /-- R436 (16): the two assemblies of a peg (TAG_MISMATCH). -/
  tag : Bool
  /-- R436 (16): the STALE flag and channel B's (FLAG_CHECK): a late peg goes without it. -/
  stale : Bool
  /-- 32 bits; R436 (16): units whose shadow computes another instant (SHADOW_FIRE). -/
  fire : Nat
  /-- 32 bits; R436 (16): units whose two latches differ (POS_LATCH). -/
  latch : Nat
  /-- 8 bits; R436 (16): channels whose shadow decoder differs (ENC_SHADOW). -/
  enc : Nat
deriving DecidableEq, Repr

def HwWrong.none : HwWrong := { tag := false, stale := false, fire := 0, latch := 0, enc := 0 }

/-- The safety monitor. -/
structure SafetySt where
  /-- R433 (16): functions 0 to 3; reset DISABLED. -/
  fns : Tab SafeFn
  /-- R436 (16): "All" causes present, each with the object it concerns; reset none. -/
  all : List (Nat × Nat)
  /-- R437 (16): safe_state; reset 1 (R441). -/
  safe : Bool
  /-- R442 (16): the heartbeat resumes at the next period start; reset false. -/
  resume : Bool
  /-- R440 (16): the heartbeat is shown; reset false (R441). -/
  beat : Bool
  /-- R440 (16): level of SAFE_A; reset low (R441). -/
  pinA : Bool
  /-- R440 (16): level of SAFE_B; reset high (R441). -/
  pinB : Bool
  /-- R436 (16): T64 at the previous register check, for TIME_CHECK; reset none. -/
  lastT : Option Nat
  /-- R431 (16): the safe state in force was entered for MODE alone; reset false. -/
  modeOnly : Bool
  /-- R436 (16): where compared computations differ; reset none, the hardware works (log 79). -/
  wrong : HwWrong
deriving DecidableEq, Repr

/-- A management pair (R448 to R451). -/
inductive PairState | off | booting | standby | active | faulted
deriving DecidableEq, Repr

/-- Management pairs and the fault list. -/
structure MgmtSt where
  /-- R448 (16): pair A; reset off until boot. -/
  pairA : PairState
  /-- R448 (16): pair B; reset off until boot. -/
  pairB : PairState
  /-- R448 (16): active_pair as last shown, 0 A, 1 B; reset 0. -/
  active : Nat
  /-- R451 (16): image each pair runs, 0 A, 1 B; reset 0. -/
  imageA : Nat
  /-- R451 (16): image of pair B. -/
  imageB : Nat
  /-- R448 (16): committed changes sent to the standby pair since it became standby; reset 0. -/
  mirrored : Nat
  /-- R445 (16): the fault list, oldest first; reset empty. -/
  faults : List FaultSt
deriving DecidableEq, Repr

def SafeFn.reset : SafeFn :=
  { enabled := false, scope := 0, state := .disabled, cause := 0, detect := 0,
    onlyMode := false, causes := [] }

/-- Safe state, pins at their safe levels (R441). -/
def SafetySt.reset : SafetySt :=
  { fns := [], all := [], safe := true, resume := false, beat := false, pinA := false, pinB := true, lastT := none,
    modeOnly := false, wrong := HwWrong.none }

def MgmtSt.reset : MgmtSt :=
  { pairA := .off, pairB := .off, active := 0, imageA := 0, imageB := 0, mirrored := 0, faults := [] }

end Sys2Proof.Machine
end

