-- ==== Sys2Proof/Syntax.lean ====
section
/-! DEFINITION. The commands of the block: one constructor for each row of the table of operations and events, with
its operands. The command set's rows carry the mailbox and the request area that R361 to R379 lay out. -/

namespace Sys2Proof

open Machine (AlignFields JtagInstr HwWrong)

/-- An RC field (R11): MBX_CNT of a mailbox (R342) or a counter of MT (R484). -/
inductive RcReg
  | mbxCnt (mb : Nat)
  | mtErrPec
  | mtErrAccess
  | mtTimeouts
deriving DecidableEq, Repr

/-- A field of a function's configuration space (R298 to R302, R319). -/
inductive CfgField
  | vendorDevice
  | classRevision
  | subsystem
  | command
  | bar0
  | bar2
  | deviceControl
  | deviceControl2
  | powerState
  | msixControl
  | msixEntry (vector : Nat)
  | sriovControl
  | numVfs
  | serialNumber
  | aerStatus
  | aerHeader
  | aerCapability
  | capability (index : Nat)
  | powerCapabilities
  | deviceCapabilities
  | deviceCapabilities2
  | linkCapabilities
  | ariCapability
  | sriovVfs
  | sriovOffset
  | vfDevice
  | pageSizes
  | systemPageSize
  | vfBar0
  | vfBar2
  | bar4
  | freeze (offset : Nat)
  | other (reg : Nat)
deriving DecidableEq, Repr

/-- What a PPS_IN edge shows of the frequency (R47). -/
structure FreqRead where
  /-- R47 (02): frequency correction in force, 0.001 ppm. -/
  corr : Int
  /-- R47 (02): frequency error that is left, 0.001 ppm. -/
  err : Int
  /-- R47 (02): TEN_IN has edges. -/
  ten : Bool
deriving DecidableEq, Repr

/-- What a channel of the safety monitor finds of the hardware (R436). -/
structure MonitorRead where
  /-- R436 (16): the 400 MHz sampling clock agrees with its oscillator. -/
  sampleOk : Bool
  /-- R436 (16): where compared computations differ from here on. -/
  wrong : HwWrong
deriving DecidableEq, Repr

/-- What stands at an alignment position (R113): its bits under the best hypothesis. -/
structure AlignObs where
  /-- 128 bits; R112 (04): the comma bits as received. -/
  comma : Nat
  /-- 128 bits; R112 (04): block bits 129 to 256, after the codeword's correction. -/
  content : Nat
  /-- R111 (04): the hypothesis is of inverted polarity. -/
  inverted : Bool
  /-- R111 (04): the hypothesis is of a precoding sender. -/
  precoded : Bool
deriving DecidableEq, Repr

/-- What a CTRL_RSP echoes of its request (R154). -/
structure RspEcho where
  /-- 8 bits; R154 (05): TAG. -/
  tag : Nat
  /-- 16 bits; R154 (05): LEN. -/
  len : Nat
  /-- 32 bits; R154 (05): ADDR. -/
  addr : Nat
deriving DecidableEq, Repr

/-- A block from a camera that no row of its own brings (R143, R144, R177). -/
inductive UpBlock
  /-- a malformed block, with the PSN of its packet where one is known -/
  | damaged (psn : Option Nat)
  /-- a control block as its codeword gave it: data lane, slot of its alignment period, arrival of that period's alignment
  block in 2⁻¹⁶ ns, the 32 bytes, and the payload that followed -/
  | raw (lane slot arrived : Nat) (bytes payload : List Byte)
deriving DecidableEq, Repr

/-- What a serial encoder's frame gave (R85 to R87). -/
inductive SerialFrame
  /-- a BiSS-C frame: position, error bit, warning bit (as received, active low), CRC as received -/
  | biss (position : Nat) (error warn : Bool) (crc : Nat)
  /-- an SSI frame: data bits as received, parity bit as received -/
  | ssi (data : Nat) (parity : Bool)
  /-- no start within the start timeout -/
  | noStart
  /-- A held low before the frame begins -/
  | heldLow
deriving DecidableEq, Repr

/-- What the firmware asks of a controller (R493). -/
inductive McReq
  | voutCommand
  | readVout
  | statusWord
  | module (site : Fin 16)
deriving DecidableEq, Repr

/-- The bus before the START (R495): free, freed by the first or second run of the bus clear, or STUCK. -/
inductive McClear
  | free
  | freed (runs : Fin 2)
  | stuck
deriving DecidableEq, Repr

/-- How a transaction ends (R494). -/
inductive McEnd
  | ok (value : Nat)
  | nack
  | pecError
  | arbitrationLost
  | sclHeld
  | tooLong
deriving DecidableEq, Repr

/-- The commands. -/
inductive Instr
  /-- SYSTEM_IDENTIFY (R366): Returns the device serial, stage, flags, Seam ID and versions. Operands: mailbox ID;
    request area. -/
  | systemIdentify (mb : Nat) (req : List Byte)
  /-- SYSTEM_READ_METERS (R29): Returns one 32-byte meter record for each requested resource instance. Operands:
    mailbox ID; request area. -/
  | systemReadMeters (mb : Nat) (req : List Byte)
  /-- SYSTEM_READ_PENDING (R347): Lists the open tickets. Operands: mailbox ID; request area. -/
  | systemReadPending (mb : Nat) (req : List Byte)
  /-- SYSTEM_CANCEL_PENDING (R347): Ends an open ticket with CANCELLED, or ends BAD_STATE when the ticket has already
    run. Operands: mailbox ID; request area. -/
  | systemCancelPending (mb : Nat) (req : List Byte)
  /-- SYSTEM_SET_BOARD (R366): Stores the subsystem IDs and the board text in flash for the next PERSTn#. Operands:
    mailbox ID; request area. -/
  | systemSetBoard (mb : Nat) (req : List Byte)
  /-- SYSTEM_SAVE_CONFIG (R380): Commits a save of the machine configuration and ends PENDING with a ticket.
    Operands: mailbox ID; request area. -/
  | systemSaveConfig (mb : Nat) (req : List Byte)
  /-- SAVE_CONFIG_COMPLETE (R380): The configuration has been written to flash and read back, and the save ticket
    ends. Operands: its ticket; whether the flash write read back. -/
  | saveConfigComplete (ticket : Nat) (ok : Bool)
  /-- LANE_SET_ROLE (R102): Sets the role, electrical mode and Seam layout of a quad, and numbers any Seam links it
    forms. Operands: mailbox ID; request area. -/
  | laneSetRole (mb : Nat) (req : List Byte)
  /-- LANE_SET_RATE (R130): Changes the rate of the masked quads: transmitters go quiet, lanes leave UP and their
    ports are held. Operands: mailbox ID; request area. -/
  | laneSetRate (mb : Nat) (req : List Byte)
  /-- LANE_SET_TX (R367): Sets the transmitter settings of a lane, or the maker's limits on them. Operands: mailbox
    ID; request area. -/
  | laneSetTx (mb : Nat) (req : List Byte)
  /-- LANE_SET_ADAPT (R125): Sets a lane's adaptation policy, or freezes, resumes or restarts its equaliser.
    Operands: mailbox ID; request area. -/
  | laneSetAdapt (mb : Nat) (req : List Byte)
  /-- LANE_SET_POWER (R132): Puts a lane into L0, L1 or L2. Operands: mailbox ID; request area. -/
  | laneSetPower (mb : Nat) (req : List Byte)
  /-- LANE_SET_TEST (R133): Sets a lane's pattern generator, loopback and checker. Operands: mailbox ID; request
    area. -/
  | laneSetTest (mb : Nat) (req : List Byte)
  /-- LANE_INJECT (R136): Starts a series of error injections on a lane's transmitter. Operands: mailbox ID; request
    area. -/
  | laneInject (mb : Nat) (req : List Byte)
  /-- LANE_READ_COEFFS (R367): Returns the equaliser and CDR state of a lane. Operands: mailbox ID; request area. -/
  | laneReadCoeffs (mb : Nat) (req : List Byte)
  /-- LANE_READ_STATUS (R363): Returns a lane's status block, latched at one instant. Operands: mailbox ID; request
    area. -/
  | laneReadStatus (mb : Nat) (req : List Byte)
  /-- LANE_CLEAR_COUNTS (R137): Clears a lane's counters and sticky flags in every function's view. Operands: mailbox
    ID; request area. -/
  | laneClearCounts (mb : Nat) (req : List Byte)
  /-- PORT_CONFIGURE (R139): Defines a camera port's bond, protection, trigger mode, tag, asymmetry and timeouts.
    Operands: mailbox ID; request area. -/
  | portConfigure (mb : Nat) (req : List Byte)
  /-- PORT_ENABLE (R141): Starts a configured camera port in LINKING. Operands: mailbox ID; request area. -/
  | portEnable (mb : Nat) (req : List Byte)
  /-- PORT_DISABLE (R141): Stops a camera port and puts it in OFF. Operands: mailbox ID; request area. -/
  | portDisable (mb : Nat) (req : List Byte)
  /-- PORT_CAM_READ (R155): Reads camera registers through the control channel and waits for the camera's answer.
    Operands: mailbox ID; request area. -/
  | portCamRead (mb : Nat) (req : List Byte)
  /-- PORT_CAM_WRITE (R156): Writes camera registers through the control channel, except the registers that only the
    device writes. Operands: mailbox ID; request area. -/
  | portCamWrite (mb : Nat) (req : List Byte)
  /-- PORT_CALIBRATE (R167): Measures 16 test pulses and returns the mean error and a new asymmetry. Operands:
    mailbox ID; request area. -/
  | portCalibrate (mb : Nat) (req : List Byte)
  /-- PORT_READ_STATUS (R363): Returns a camera port's status block, latched at one instant. Operands: mailbox ID;
    request area. -/
  | portReadStatus (mb : Nat) (req : List Byte)
  /-- PORT_CLEAR_COUNTS (R178): Clears a camera port's counters and sticky flags. Operands: mailbox ID; request area.
    -/
  | portClearCounts (mb : Nat) (req : List Byte)
  /-- PIPE_ALLOC_TABLE (R196): Reserves table memory within the port's quota and returns a handle. Operands: mailbox
    ID; request area. -/
  | pipeAllocTable (mb : Nat) (req : List Byte)
  /-- PIPE_WRITE_TABLE (R196): Writes data into an unsealed table. Operands: mailbox ID; request area. -/
  | pipeWriteTable (mb : Nat) (req : List Byte)
  /-- PIPE_SEAL_TABLE (R196): Checks a table's CRC and format and makes it immutable. Operands: mailbox ID; request
    area. -/
  | pipeSealTable (mb : Nat) (req : List Byte)
  /-- PIPE_FREE_TABLE (R196): Releases a table that no set references. Operands: mailbox ID; request area. -/
  | pipeFreeTable (mb : Nat) (req : List Byte)
  /-- PIPE_QUEUE_PARAMS (R199): Queues a parameter set for a port and substream, as immediate when it is late and
    LATE_APPLY allows it. Operands: mailbox ID; request area. -/
  | pipeQueueParams (mb : Nat) (req : List Byte)
  /-- PIPE_CANCEL_PARAMS (R202): Removes the pending sets whose tag is not before the given tag. Operands: mailbox
    ID; request area. -/
  | pipeCancelParams (mb : Nat) (req : List Byte)
  /-- PIPE_READ_PARAMS (R368): Returns the active set and the pending tags of a port. Operands: mailbox ID; request
    area. -/
  | pipeReadParams (mb : Nat) (req : List Byte)
  /-- PIPE_RESTORE (R207): Runs every swatch on a FAULTED pipe and returns the pipe to service if all pass. Operands:
    mailbox ID; request area. -/
  | pipeRestore (mb : Nat) (req : List Byte)
  /-- PIPE_READ_STATUS (R363): Returns a pipe's status block, latched at one instant. Operands: mailbox ID; request
    area. -/
  | pipeReadStatus (mb : Nat) (req : List Byte)
  /-- PIPE_CLEAR_COUNTS (R211): Clears a pipe's counters and sticky flags. Operands: mailbox ID; request area. -/
  | pipeClearCounts (mb : Nat) (req : List Byte)
  /-- STREAM_CREATE (R241): Defines a stream, runs admission on it and leaves it STOPPED. Operands: mailbox ID;
    request area. -/
  | streamCreate (mb : Nat) (req : List Byte)
  /-- STREAM_DESTROY (R242): Removes a stopped, empty stream and returns its reservations. Operands: mailbox ID;
    request area. -/
  | streamDestroy (mb : Nat) (req : List Byte)
  /-- STREAM_START (R242): Takes the frames whose SOF the port accepts after the effect instant. Operands: mailbox
    ID; request area. -/
  | streamStart (mb : Nat) (req : List Byte)
  /-- STREAM_STOP (R242): Takes no frame whose SOF is accepted after the effect instant. Operands: mailbox ID;
    request area. -/
  | streamStop (mb : Nat) (req : List Byte)
  /-- STREAM_SET_OUTPUT (R224): Changes a stream's output settings from the next frame accepted, after admission.
    Operands: mailbox ID; request area. -/
  | streamSetOutput (mb : Nat) (req : List Byte)
  /-- STREAM_SET_LIMITS (R242): Sets LOSSY_ALLOWED and the lowest output byte rate of a stream. Operands: mailbox ID;
    request area. -/
  | streamSetLimits (mb : Nat) (req : List Byte)
  /-- STREAM_SET_QUOTAS (R245): Sets the M quota of the Basket, and with it the B quota. Operands: mailbox ID;
    request area. -/
  | streamSetQuotas (mb : Nat) (req : List Byte)
  /-- STREAM_RINSE (R261): Discards every frame of the stream whose first burst has not been issued, with LOST and
    RINSED pegs. Operands: mailbox ID; request area. -/
  | streamRinse (mb : Nat) (req : List Byte)
  /-- STREAM_MOVE (R208): Admits a new placement and gives the stream a new epoch from its switch point. Operands:
    mailbox ID; request area. -/
  | streamMove (mb : Nat) (req : List Byte)
  /-- STREAM_READ_STATUS (R370): Returns a stream's state, epoch, next sequence and loss counts. Operands: mailbox
    ID; request area. -/
  | streamReadStatus (mb : Nat) (req : List Byte)
  /-- DMA_SET_FOLD (R277): Sets the Fold of a stream's write channel from the next frame accepted. Operands: mailbox
    ID; request area. -/
  | dmaSetFold (mb : Nat) (req : List Byte)
  /-- DMA_OPEN_READ (R280): Binds a read channel to a function and charges its rate to a stream. Operands: mailbox
    ID; request area. -/
  | dmaOpenRead (mb : Nat) (req : List Byte)
  /-- DMA_CLOSE_READ (R265): Returns an idle or stopped read channel. Operands: mailbox ID; request area. -/
  | dmaCloseRead (mb : Nat) (req : List Byte)
  /-- DMA_READ_STATUS (R265): Returns a channel block, its held status records and the port's LATE_CPL count.
    Operands: mailbox ID; request area. -/
  | dmaReadStatus (mb : Nat) (req : List Byte)
  /-- DMA_SET_QOS (R336): Sets the weight and cap of a function in class P or B. Operands: mailbox ID; request area.
    -/
  | dmaSetQos (mb : Nat) (req : List Byte)
  /-- DMA_READ_QOS (R336): Returns the weights, caps, rates, T_U and U_OVERDUE counts of a port. Operands: mailbox
    ID; request area. -/
  | dmaReadQos (mb : Nat) (req : List Byte)
  /-- HOST_SET_FUNCTIONS (R302): Stores the BAR2 sizes and the VF vector limit in flash. Operands: mailbox ID;
    request area. -/
  | hostSetFunctions (mb : Nat) (req : List Byte)
  /-- HOST_SET_WINDOW (R308): Sets one BAR2 window entry to LEASE or BUFFER. Operands: mailbox ID; request area. -/
  | hostSetWindow (mb : Nat) (req : List Byte)
  /-- HOST_CLEAR_WINDOW (R308): Sets one window entry to OFF and returns a buffer's space. Operands: mailbox ID;
    request area. -/
  | hostClearWindow (mb : Nat) (req : List Byte)
  /-- HOST_FREEZE_PORT (R307): Freezes a port with cause FORCED. Operands: mailbox ID; request area. -/
  | hostFreezePort (mb : Nat) (req : List Byte)
  /-- HOST_RELEASE_PORT (R320): Releases a frozen port through another port's mailbox or MT. Operands: mailbox ID;
    request area. -/
  | hostReleasePort (mb : Nat) (req : List Byte)
  /-- HOST_READ_STATUS (R370): Returns a port's status page and Freeze Control registers. Operands: mailbox ID;
    request area. -/
  | hostReadStatus (mb : Nat) (req : List Byte)
  /-- HOST_CLEAR_COUNTS (R305): Clears the counters of a port's status page. Operands: mailbox ID; request area. -/
  | hostClearCounts (mb : Nat) (req : List Byte)
  /-- POS_SET_CHANNEL (R71): Sets an encoder channel's mode, filter, termination, wire-break, error limit, direction
    and index settings. Operands: mailbox ID; request area. -/
  | posSetChannel (mb : Nat) (req : List Byte)
  /-- POS_SET_SPEED (R93): Sets the speed averaging and range settings of a channel. Operands: mailbox ID; request
    area. -/
  | posSetSpeed (mb : Nat) (req : List Byte)
  /-- POS_SET_SERIAL (R85): Sets the serial absolute encoder frame and timing settings. Operands: mailbox ID; request
    area. -/
  | posSetSerial (mb : Nat) (req : List Byte)
  /-- POS_SET_DIVIDER (R97): Sets the source, ratio and edge gap of a divider pair. Operands: mailbox ID; request
    area. -/
  | posSetDivider (mb : Nat) (req : List Byte)
  /-- POS_PRESET (R91): Loads the raw counter and the compare position at the effect instant. Operands: mailbox ID;
    request area. -/
  | posPreset (mb : Nat) (req : List Byte)
  /-- POS_CLEAR_FAULT (R76): Ends a channel's FAULT and clears its sticky flags and error counts. Operands: mailbox
    ID; request area. -/
  | posClearFault (mb : Nat) (req : List Byte)
  /-- POS_READ_STATUS (R363): Returns a channel's position block, latched at one instant. Operands: mailbox ID;
    request area. -/
  | posReadStatus (mb : Nat) (req : List Byte)
  /-- TRIG_ARM_ONESHOT (R51): Arms a trigger compare unit for one position or instant. Operands: mailbox ID; request
    area. -/
  | trigArmOneshot (mb : Nat) (req : List Byte)
  /-- TRIG_ARM_PERIODIC (R54): Arms a unit on a position grid or a time period, optionally from here. Operands:
    mailbox ID; request area. -/
  | trigArmPeriodic (mb : Nat) (req : List Byte)
  /-- TRIG_ARM_TABLE (R52): Arms a unit on the entries of the table memory, optionally looped. Operands: mailbox ID;
    request area. -/
  | trigArmTable (mb : Nat) (req : List Byte)
  /-- TRIG_DISARM (R371): Disarms one unit or all units; held triggers end LOST. Operands: mailbox ID; request area.
    -/
  | trigDisarm (mb : Nat) (req : List Byte)
  /-- TRIG_LOAD_TABLE (R52): Loads positions into the shared table memory. Operands: mailbox ID; request area. -/
  | trigLoadTable (mb : Nat) (req : List Byte)
  /-- TRIG_SET_PIN (R63): Sets a timing pin's direction, edge selection and trigger binding. Operands: mailbox ID;
    request area. -/
  | trigSetPin (mb : Nat) (req : List Byte)
  /-- TRIG_SCHEDULE_PULSES (R62): Loads an output pin's schedule of pulses. Operands: mailbox ID; request area. -/
  | trigSchedulePulses (mb : Nat) (req : List Byte)
  /-- TRIG_ARM_WINDOW (R67): Arms a capture window with its start and stop events. Operands: mailbox ID; request
    area. -/
  | trigArmWindow (mb : Nat) (req : List Byte)
  /-- TRIG_WINDOW_EVENT (R66): Delivers a start or stop event of kind command to a window. Operands: mailbox ID;
    request area. -/
  | trigWindowEvent (mb : Nat) (req : List Byte)
  /-- TRIG_READ_STATUS (R371): Returns a trigger unit's state and counts. Operands: mailbox ID; request area. -/
  | trigReadStatus (mb : Nat) (req : List Byte)
  /-- SEAM_SET_ID (R397): Selects an assigned or fixed Seam ID for the device's next join. Operands: mailbox ID;
    request area. -/
  | seamSetId (mb : Nat) (req : List Byte)
  /-- SEAM_REDISCOVER (R395): Makes every device flood a PROBE at once. Operands: mailbox ID; request area. -/
  | seamRediscover (mb : Nat) (req : List Byte)
  /-- SEAM_READ_TOPOLOGY (R398): Returns the stored devices and their states. Operands: mailbox ID; request area. -/
  | seamReadTopology (mb : Nat) (req : List Byte)
  /-- SEAM_READ_ROUTE (R400): Returns the primary and alternate links of a destination. Operands: mailbox ID; request
    area. -/
  | seamReadRoute (mb : Nat) (req : List Byte)
  /-- SEAM_READ_LINK (R384): Returns a Seam link's state, width, peer and counts. Operands: mailbox ID; request area.
    -/
  | seamReadLink (mb : Nat) (req : List Byte)
  /-- SEAM_SNAPSHOT_AT (R415): Floods SNAP_REQ for a fabric-wide counter snapshot and ends PENDING. Operands: mailbox
    ID; request area. -/
  | seamSnapshotAt (mb : Nat) (req : List Byte)
  /-- TIME_READ_STATUS (R42): Returns the time, the discipline state and the calling mailbox's TB_EVT copy. Operands:
    mailbox ID; request area. -/
  | timeReadStatus (mb : Nat) (req : List Byte)
  /-- TIME_SET_SOURCE (R47): Selects the time source, cable delay and PPS_OUT high time. Operands: mailbox ID;
    request area. -/
  | timeSetSource (mb : Nat) (req : List Byte)
  /-- TIME_STEP (R45): Steps the timebase at the next second or by an offset, after the checks of R46. Operands:
    mailbox ID; request area. -/
  | timeStep (mb : Nat) (req : List Byte)
  /-- TIME_SET_HOST_CONTROL (R45): Enables or disables host time control on a PF. Operands: mailbox ID; request area.
    -/
  | timeSetHostControl (mb : Nat) (req : List Byte)
  /-- SAFETY_SET_FUNCTION (R433): Enables or disables a safety function with its scope. Operands: mailbox ID; request
    area. -/
  | safetySetFunction (mb : Nat) (req : List Byte)
  /-- SAFETY_READ_STATUS (R434): Returns the safe state, the pin levels and each function's state and cause.
    Operands: mailbox ID; request area. -/
  | safetyReadStatus (mb : Nat) (req : List Byte)
  /-- SAFETY_LEAVE_SAFE_STATE (R442): Returns LATCHED functions to ACTIVE and the pins to the heartbeat, and releases
    held units. Operands: mailbox ID; request area. -/
  | safetyLeaveSafeState (mb : Nat) (req : List Byte)
  /-- SAFETY_READ_FAULTS (R445): Returns the list of faults that have taken items out of service. Operands: mailbox
    ID; request area. -/
  | safetyReadFaults (mb : Nat) (req : List Byte)
  /-- ROLE_GET_CHALLENGE (R355): Returns a nonce and a challenge ID bound to the mailbox. Operands: mailbox ID;
    request area. -/
  | roleGetChallenge (mb : Nat) (req : List Byte)
  /-- ROLE_OPEN_SESSION (R355): Checks the MAC against a key slot and opens a session with a handle and a proof.
    Operands: mailbox ID; request area. -/
  | roleOpenSession (mb : Nat) (req : List Byte)
  /-- ROLE_CLOSE_SESSION (R356): Closes the mailbox's session. Operands: mailbox ID; request area. -/
  | roleCloseSession (mb : Nat) (req : List Byte)
  /-- ROLE_PROGRAM_KEY (R354): Writes a key to a BLANK slot. Operands: mailbox ID; request area. -/
  | roleProgramKey (mb : Nat) (req : List Byte)
  /-- ROLE_REVOKE_KEY (R354): Revokes an ACTIVE slot and closes its sessions. Operands: mailbox ID; request area. -/
  | roleRevokeKey (mb : Nat) (req : List Byte)
  /-- ROLE_LOCK_PART (R513): Blows the fuse that closes internal debug for good. Operands: mailbox ID; request area.
    -/
  | roleLockPart (mb : Nat) (req : List Byte)
  /-- ROLE_SET_POLICY (R356): Sets the session idle time of a role. Operands: mailbox ID; request area. -/
  | roleSetPolicy (mb : Nat) (req : List Byte)
  /-- ROLE_READ_AUDIT (R360): Returns audit entries with a MAC-signed head trailer. Operands: mailbox ID; request
    area. -/
  | roleReadAudit (mb : Nat) (req : List Byte)
  /-- ROLE_READ_KEYS (R375): Returns the state of every key slot. Operands: mailbox ID; request area. -/
  | roleReadKeys (mb : Nat) (req : List Byte)
  /-- PANEL_SET_MODE (R430): Checks a new panel mode and starts the mode change in CHANGING. Operands: mailbox ID;
    request area. -/
  | panelSetMode (mb : Nat) (req : List Byte)
  /-- PANEL_SET_TILE (R421): Places, enables or disables a tile from the next panel frame start. Operands: mailbox
    ID; request area. -/
  | panelSetTile (mb : Nat) (req : List Byte)
  /-- PANEL_SET_OVERLAY (R424): Gives a tile an overlay buffer and returns its handle. Operands: mailbox ID; request
    area. -/
  | panelSetOverlay (mb : Nat) (req : List Byte)
  /-- PANEL_SET_POLICY (R431): Forbids or allows operator mode changes while the fresh image function covers the
    panel. Operands: mailbox ID; request area. -/
  | panelSetPolicy (mb : Nat) (req : List Byte)
  /-- PANEL_READ_STATUS (R420): Returns the panel mode and state and each tile's freshness. Operands: mailbox ID;
    request area. -/
  | panelReadStatus (mb : Nat) (req : List Byte)
  /-- POWER_SET_VF_MODE (R35): Selects FOLLOW or FIXED for the VDD_CORE loop. Operands: mailbox ID; request area. -/
  | powerSetVfMode (mb : Nat) (req : List Byte)
  /-- POWER_READ_VF_STATE (R37): Returns the voltage-following mode, cause, setpoint, margin and counts. Operands:
    mailbox ID; request area. -/
  | powerReadVfState (mb : Nat) (req : List Byte)
  /-- POWER_READ_THERMAL (R474): Returns the junction readings, the step-down step and peak_left_ms. Operands:
    mailbox ID; request area. -/
  | powerReadThermal (mb : Nat) (req : List Byte)
  /-- POWER_ENTER_STANDBY (R468): Ends OK and leads to standby once its response has been issued. Operands: mailbox
    ID; request area. -/
  | powerEnterStandby (mb : Nat) (req : List Byte)
  /-- FW_READ_INFO (R378): Returns the state of both images and the active pair. Operands: mailbox ID; request area.
    -/
  | fwReadInfo (mb : Nat) (req : List Byte)
  /-- FW_WRITE_IMAGE (R378): Stages image data in the firmware's frame-store holding. Operands: mailbox ID; request
    area. -/
  | fwWriteImage (mb : Nat) (req : List Byte)
  /-- FW_COMMIT_IMAGE (R380): Starts the signature check and flash write of an image and ends PENDING. Operands:
    mailbox ID; request area. -/
  | fwCommitImage (mb : Nat) (req : List Byte)
  /-- FW_COMMIT_COMPLETE (R380): The signature check and flash write are done, and the commit ticket ends. Operands:
    its ticket; the signature check and the flash write. -/
  | fwCommitComplete (ticket : Nat) (sigOk flashOk : Bool)
  /-- FW_ACTIVATE (R451): Loads the named image into the standby pair and ends PENDING. Operands: mailbox ID; request
    area. -/
  | fwActivate (mb : Nat) (req : List Byte)
  /-- FW_ACTIVATE_HANDOVER (R451): The standby pair has verified the image and caught up, takes over, and the
    activate ticket ends. Operands: its ticket; whether the new image started. -/
  | fwActivateHandover (ticket : Nat) (started : Bool)
  /-- OBS_SET_TRACE (R506): Selects the trace sink and filter and restarts TSEQ. Operands: mailbox ID; request area.
    -/
  | obsSetTrace (mb : Nat) (req : List Byte)
  /-- OBS_READ_TRACE (R508): Reads the frame-store trace ring. Operands: mailbox ID; request area. -/
  | obsReadTrace (mb : Nat) (req : List Byte)
  /-- OBS_READ_COUNTERS (R510): Returns counter values as of one instant. Operands: mailbox ID; request area. -/
  | obsReadCounters (mb : Nat) (req : List Byte)
  /-- OBS_SNAPSHOT_AT (R511): Schedules a local counter snapshot and ends PENDING. Operands: mailbox ID; request
    area. -/
  | obsSnapshotAt (mb : Nat) (req : List Byte)
  /-- OBS_READ_SNAPSHOT (R416): Reads the held values of a snapshot for a device. Operands: mailbox ID; request area.
    -/
  | obsReadSnapshot (mb : Nat) (req : List Byte)
  /-- EVT_SET_RING (R503): Gives a function an event ring, or removes it. Operands: mailbox ID; request area. -/
  | evtSetRing (mb : Nat) (req : List Byte)
  /-- EVT_SET_ROUTE (R500): Enables or disables the connection of a line to a consumer. Operands: mailbox ID; request
    area. -/
  | evtSetRoute (mb : Nat) (req : List Byte)
  /-- MBX_GO (R343): A GO with the matching SEQ hands the mailbox to the firmware and starts the deadline. Operands:
    mailbox ID of R339; MBX_DB.SEQ. -/
  | mbxGo (mb seq : Nat)
  /-- MBX_CANCEL (R343): A CANCEL ends a queued or running command with CANCELLED, or is counted when it is void.
    Operands: mailbox ID; MBX_DB.SEQ. -/
  | mbxCancel (mb seq : Nat)
  /-- MBX_TAKE_COMMAND (R344): The firmware takes the next queued command in doorbell order and runs it to its end or
    to parking. -/
  | mbxTakeCommand
  /-- MBX_PARKED_RESUME (R344): A parked command resumes in doorbell order once its outside party answers or times
    out. -/
  | mbxParkedResume
  /-- MBX_DEADLINE_EXPIRY (R346): The deadline passes before the commit point and the command ends TIMEOUT. Operands:
    mailbox ID. -/
  | mbxDeadlineExpiry (mb : Nat)
  /-- RELAY_NO_ANSWER (R350): No answer 10 ms after the deadline ends a relayed command TIMEOUT with UNKNOWN.
    Operands: mailbox ID. -/
  | relayNoAnswer (mb : Nat)
  /-- SESSION_IDLE_EXPIRY (R356): A session ends after its idle time without a command carrying its handle. Operands:
    mailbox ID. -/
  | sessionIdleExpiry (mb : Nat)
  /-- CHALLENGE_EXPIRY (R355): A challenge expires 10 s after it was issued. Operands: mailbox ID. -/
  | challengeExpiry (mb : Nat)
  /-- CHALLENGE_LOCKOUT_END (R356): The 60 s BUSY period of ROLE.GET_CHALLENGE after repeated failures ends.
    Operands: mailbox ID, none for the lockout of every mailbox. -/
  | challengeLockoutEnd (mb : Option Nat)
  /-- TB_NS_READ (R43): A TB_NS read returns the nanoseconds and latches seconds and fraction for the function.
    Operands: reader: function or MT, by mailbox ID. -/
  | tbNsRead (view : Nat)
  /-- TB_T64_LO_READ (R43): A TB_T64_LO read returns T64 [31:0] and latches T64 [63:32]. Operands: reader. -/
  | tbT64LoRead (view : Nat)
  /-- TB_SET_GO (R45): A GO write submits the staged step, which is judged at the GO instant. Operands: port whose PF
    writes GO. -/
  | tbSetGo (port : Fin 2)
  /-- STEP_AT_SECOND_APPLY (R45): At the roll-over after submission the timebase takes the staged seconds, and any
    TIME.STEP ticket ends. -/
  | stepAtSecondApply
  /-- POS_CNT_LO_READ (R101): A POS_CNT_LO read returns the raw count and latches the channel's block. Operands:
    reader; channel. -/
  | posCntLoRead (view : Nat) (chan : Fin 8)
  /-- LN_STATE_READ (R138): An LN_STATE read returns the lane state and latches the lane's block. Operands: reader;
    lane. -/
  | lnStateRead (view : Nat) (lane : Fin 64)
  /-- CP_STATE_READ (R179): A CP_STATE read returns the port state and latches the port's block. Operands: reader;
    camera port. -/
  | cpStateRead (view : Nat) (port : Fin 64)
  /-- PP_STATE_READ (R212): A PP_STATE read returns the pipe state and latches the pipe's block. Operands: reader;
    pipe. -/
  | ppStateRead (view : Nat) (pipe : Fin 16)
  /-- RING_STATE_READ (R293): A RING_STATE read returns the channel state and latches the channel's block. Operands:
    function; direction; channel. -/
  | ringStateRead (fn : Nat) (isRead : Bool) (chan : Nat)
  /-- HP_STATE_READ (R306): An HP_STATE read returns the port state and latches the port status page. Operands:
    function. -/
  | hpStateRead (fn : Nat)
  /-- RC_REGISTER_READ (R11): A read of an RC field returns its value and clears it. Operands: the RC field. -/
  | rcRegisterRead (reg : RcReg)
  /-- REGISTER_WRITE (R11): A write to a register without a row of its own sets RW fields, clears W1C bits, or is
    ignored and counted. Operands: writer; BAR0 or MT-space offset of the dword; value; byte enables. -/
  | registerWrite (view offset value : Nat) (be : Fin 16)
  /-- LS_END_WRITE (R254): An LS_END write with a matching generation ends the lease. Operands: function; LS_END. -/
  | lsEndWrite (fn value : Nat)
  /-- BAR2_LEASE_READ (R255): A BAR2 read of a lease slot returns its data, or 0xFF bytes and LATE_READ after its
    end. Operands: function; BAR2 offset; bytes. -/
  | bar2LeaseRead (fn off len : Nat)
  /-- BAR2_READ (R309): A BAR2 read of a buffer returns its data, or outside a window returns 0xFF bytes and counts
    UNMAPPED. Operands: function; BAR2 offset; bytes. -/
  | bar2Read (fn off len : Nat)
  /-- BAR2_WRITE (R309): A BAR2 write lands in a writable buffer or is discarded and counted. Operands: function;
    BAR2 offset; data. -/
  | bar2Write (fn off : Nat) (data : List Byte)
  /-- DB_DESC_TAIL_WRITE (R266): A descriptor tail write is accepted within the ring's size or sets BAD_DB. Operands:
    function; direction; channel; tail. -/
  | dbDescTailWrite (fn : Nat) (isRead : Bool) (chan value : Nat)
  /-- DB_CTRL_HALT (R285): HALT stops a channel at the next frame or descriptor boundary. Operands: function;
    direction; channel. -/
  | dbCtrlHalt (fn : Nat) (isRead : Bool) (chan : Nat)
  /-- DB_CTRL_ABORT (R286): ABORT stops a RUN channel at once and ends the frame or descriptor in progress. Operands:
    function; direction; channel. -/
  | dbCtrlAbort (fn : Nat) (isRead : Bool) (chan : Nat)
  /-- DB_CTRL_ARM (R285): ARM takes a STOPPED channel to RUN, writing any held record first. Operands: function;
    direction; channel. -/
  | dbCtrlArm (fn : Nat) (isRead : Bool) (chan : Nat)
  /-- DB_REL_WRITE (R273): A release write returns data ring space, or is ignored with BAD_DB. Operands: function;
    write channel; release count. -/
  | dbRelWrite (fn chan value : Nat)
  /-- DB_PEG_REL_WRITE (R273): A peg release write returns peg entries, or is ignored with BAD_DB. Operands:
    function; write channel; release count. -/
  | dbPegRelWrite (fn chan value : Nat)
  /-- EVR_REL_WRITE (R504): An event ring release write frees ring entries, or is ignored. Operands: function or MT;
    released records. -/
  | evrRelWrite (view value : Nat)
  /-- FRZ_CTRL_RELEASE (R320): A configuration write of RELEASE with the matching SEQ releases a frozen port.
    Operands: port; SEQ. -/
  | frzCtrlRelease (port : Fin 2) (seq : Nat)
  /-- CONFIG_REQUEST (R297): A configuration request is completed, with Request Retry Status before the port is
    ready. Operands: function; field; value of a write. -/
  | configRequest (fn : Nat) (field : CfgField) (write : Option Nat)
  /-- FLR_INITIATE (R315): A function-level reset begins and acts on the function's channels, leases, mailbox and
    flags. Operands: function. -/
  | flrInitiate (fn : Nat)
  /-- FLR_COMPLETE (R315): The function's configuration space, MSI-X table and latches are at reset values. Operands:
    function. -/
  | flrComplete (fn : Nat)
  /-- D3HOT_ENTRY (R300): A function enters D3hot and is treated as by a function-level reset. Operands: function. -/
  | d3hotEntry (fn : Nat)
  /-- D0_RETURN (R300): A function returns to D0 as after a function-level reset. Operands: function. -/
  | d0Return (fn : Nat)
  /-- BUS_MASTER_ENABLE_CLEAR (R300): Clearing Bus Master Enable aborts the function's RUN channels and returns a
    SERVICE port to EARLY. Operands: function. -/
  | busMasterEnableClear (fn : Nat)
  /-- BUS_MASTER_ENABLE_SET (R296): Setting Bus Master Enable on the PF in stage S4 puts the port in SERVICE.
    Operands: function. -/
  | busMasterEnableSet (fn : Nat)
  /-- VF_ENABLE_CHANGE (R301): VF Enable sets the VF vector tables, and clearing it resets every VF. Operands: port;
    VF Enable; NumVFs. -/
  | vfEnableChange (port : Fin 2) (enable : Bool) (numVfs : Nat)
  /-- MPS_CHANGE (R295): A Max_Payload_Size change recomputes the port's capacities. Operands: port; Max_Payload_Size
    code. -/
  | mpsChange (port : Fin 2) (code : Nat)
  /-- PERST_ASSERT (R297): PERSTn# freezes a port in SERVICE, or takes another port DOWN, and resets its
    configuration space. Operands: port. -/
  | perstAssert (port : Fin 2)
  /-- PERST_DEASSERT (R297): PERSTn# deasserts and the port trains and answers within 60 ms. Operands: port. -/
  | perstDeassert (port : Fin 2)
  /-- DL_ACTIVE_REACHED (R296): The data link layer reaches DL_Active and the port enters EARLY. Operands: port; rate
    code; lanes; FLIT mode. -/
  | dlActiveReached (port : Fin 2) (rate width : Nat) (flit : Bool)
  /-- DL_ACTIVE_LOST (R317): Loss of DL_Active freezes a port in SERVICE or takes an EARLY port DOWN. Operands: port.
    -/
  | dlActiveLost (port : Fin 2)
  /-- LINK_RETRAIN (R295): A host link retrains to another rate or width and its capacities are recomputed. Operands:
    port; rate code; lanes. -/
  | linkRetrain (port : Fin 2) (rate width : Nat)
  /-- POISONED_WRITE_RECEIVED (R317): A poisoned memory write from the host freezes the port. Operands: port. -/
  | poisonedWriteReceived (port : Fin 2)
  /-- PORT_UE_DETECTED (R317): An uncorrectable port error or protocol error freezes the port. Operands: port. -/
  | portUeDetected (port : Fin 2)
  /-- COMPLETION_RECEIVED (R263): A completion enters the prefetch buffer, or freezes the port when its status is
    bad. Operands: port; tag; status, 0 for success; poisoned or failed ECRC; data. -/
  | completionReceived (port : Fin 2) (tag status : Nat) (poisoned : Bool) (data : List Byte)
  /-- COMPLETION_TIMEOUT (R314): A memory read of the port goes unanswered for the timeout and freezes the port.
    Operands: port; tag. -/
  | completionTimeout (port : Fin 2) (tag : Nat)
  /-- DESCRIPTOR_EXECUTE (R267): A fetched descriptor is executed in ring order. Operands: port; direction; channel.
    -/
  | descriptorExecute (port : Fin 2) (isRead : Bool) (chan : Nat)
  /-- READ_REQUEST_ISSUE (R282): The read engine issues the next read request by round robin within rate and
    outstanding limits. Operands: port. -/
  | readRequestIssue (port : Fin 2)
  /-- WRITE_CHANNEL_ISSUE_START (R275): A RUN write channel starts issuing once its queue reaches START_MARK or holds
    a frame end. Operands: port; write channel. -/
  | writeChannelIssueStart (port : Fin 2) (chan : Nat)
  /-- WRITE_BURST_ISSUE (R270): The write engine issues a burst once the data and peg rings have room. Operands:
    port; write channel. -/
  | writeBurstIssue (port : Fin 2) (chan : Nat)
  /-- ISSUE_ARBITRATION (R327): At a TLP boundary the arbiter moves the next TLP into the transmit queue, class U
    first. Operands: port; host credit was missing; the link was in recovery. -/
  | issueArbitration (port : Fin 2) (creditWait recovery : Bool)
  /-- LEASE_DEADLINE (R254): A lease ends at its deadline with EXPIRED. Operands: function; lease index. -/
  | leaseDeadline (fn : Nat) (idx : Fin 64)
  /-- OLD_EPOCH_DEADLINE (R209): An old-epoch frame unfinished 50 ms after the switch point is discarded with a LOST
    peg. Operands: stream. -/
  | oldEpochDeadline (stream : Fin 512)
  /-- PIPE_INLINE_LINE (R183): The pipe processes a complete line of its in-line stream. Operands: pipe. -/
  | pipeInlineLine (pipe : Fin 16)
  /-- PIPE_SLICE_START (R183): The pipe starts a startable through-memory slice by deficit round robin. Operands:
    pipe. -/
  | pipeSliceStart (pipe : Fin 16)
  /-- PIPE_SWATCH_RUN (R203): Every 500 µs the pipe runs its next swatch between two lines. Operands: pipe; whether
    the output CRCs compare equal. -/
  | pipeSwatchRun (pipe : Fin 16) (ok : Bool)
  /-- PIPE_STALL_TIMEOUT (R205): A stage holding work without acknowledging for 100 µs faults the pipe. Operands:
    pipe. -/
  | pipeStallTimeout (pipe : Fin 16)
  /-- BASKET_READ_ERROR (R244): An uncorrectable Basket word is found, and a bank with two in 1 ms is retired.
    Operands: bank; stream whose stored frame holds the word. -/
  | basketReadError (bank : Fin 17) (stream : Option (Fin 512))
  /-- FS_UNCORRECTABLE_ERROR (R250): An uncorrectable frame-store error may retire a pseudo-channel or stack.
    Operands: stack; pseudo-channel; stream whose stored frame holds the word. -/
  | fsUncorrectableError (stack : Fin 4) (pc : Fin 32) (stream : Option (Fin 512))
  /-- FS_INTERFACE_FAIL (R250): A stack or pseudo-channel interface check fails and it is retired. Operands: stack;
    pseudo-channel, none for the whole stack. -/
  | fsInterfaceFail (stack : Fin 4) (pc : Option (Fin 32))
  /-- SOF_RECEIVED (R141): A SOF opens a frame, binds its parameter set, or is discarded when the port is not READY.
    Operands: camera port; PSN; 32-byte block. -/
  | sofReceived (port : Fin 64) (psn : Nat) (body : List Byte)
  /-- IMG_RECEIVED (R149): An IMG packet is checked and its complete lines are released to the pipe. Operands: camera
    port; PSN; 32-byte header block; payload blocks. -/
  | imgReceived (port : Fin 64) (psn : Nat) (body payload : List Byte)
  /-- EOF_RECEIVED (R153): An EOF closes a frame, which is judged intact or LOST. Operands: camera port; PSN; 32-byte
    block. -/
  | eofReceived (port : Fin 64) (psn : Nat) (body : List Byte)
  /-- FRAME_TIMEOUT (R153): A frame without EOF within the frame timeout is LOST. Operands: camera port; FRAME_NO;
    substream; exposure. -/
  | frameTimeout (port : Fin 64) (frameNo sub index : Nat)
  /-- MALFORMED_BLOCK_RECEIVED (R177): A malformed KLP block damages its packet and is counted; too many refuse the
    port. Operands: camera port; the block, or the PSN of its packet where one is known. -/
  | malformedBlockReceived (port : Fin 64) (psn : UpBlock)
  /-- CTRL_RSP_RECEIVED (R155): A CTRL_RSP with a matching TAG ends its request; late ones are counted. Operands:
    camera port; PSN; TAG with the echoed LEN and ADDR; STATUS; DATA. -/
  | ctrlRspReceived (port : Fin 64) (psn : Nat) (tag : RspEcho) (status : Nat) (data : List Byte)
  /-- CTRL_REQ_RETRY (R155): A request without a response for 2 ms is sent once more. Operands: camera port; TAG. -/
  | ctrlReqRetry (port : Fin 64) (tag : Nat)
  /-- CTRL_REQ_TIMEOUT (R155): A request without a response 2 ms after its retry ends TIMEOUT. Operands: camera port;
    TAG. -/
  | ctrlReqTimeout (port : Fin 64) (tag : Nat)
  /-- DISCOVERY_RETRY (R158): A failed capability read is repeated 10 ms later, up to three attempts. Operands:
    camera port. -/
  | discoveryRetry (port : Fin 64)
  /-- FIRE_STATUS_RECEIVED (R163): A refusing FIRE_STATUS ends its trigger with a LOST peg and FIRE_REFUSED.
    Operands: camera port; PSN; FIRE_ID; code. -/
  | fireStatusReceived (port : Fin 64) (psn fireId status : Nat)
  /-- EXPOSURE_TIMEOUT (R163): No SOF for a FIRE within the exposure timeout ends the trigger LOST. Operands: camera
    port; FIRE_ID. -/
  | exposureTimeout (port : Fin 64) (fireId : Nat)
  /-- DARN_GONE_RECEIVED (R172): Packets the camera no longer holds are lost and their frames LOST. Operands: camera
    port; PSN; first PSN not held; packets. -/
  | darnGoneReceived (port : Fin 64) (psn first count : Nat)
  /-- OH_LANE_RECEIVED (R147): An OH_LANE gives the period's active lanes and the next PSN. Operands: lane; 32-byte
    block. -/
  | ohLaneReceived (lane : Fin 64) (body : List Byte)
  /-- DARN_RETRY_TIMEOUT (R172): A run still not filled 100 µs after its request is requested again. Operands: camera
    port; first PSN of the run. -/
  | darnRetryTimeout (port : Fin 64) (psn : Nat)
  /-- DARN_LOSS_TIMEOUT (R172): A PSN still missing 300 µs after its first request is lost. Operands: camera port;
    PSN. -/
  | darnLossTimeout (port : Fin 64) (psn : Nat)
  /-- OH_TIME_RECEIVED (R165): A timing exchange is computed and averaged for the camera offset. Operands: camera
    port; the instants t1 to t3 of R165, 2⁻¹⁶ ns; t4 as each data lane of the bond saw it, by lane index; CORR_ACK. -/
  | ohTimeReceived (port : Fin 64) (t1 t2 t3 : Nat) (t4 : List (Nat × Nat)) (ack : Nat)
  /-- SYNC_EXCHANGE_TIMEOUT (R166): No valid exchange for 100 µs ends ALIGNED. Operands: camera port. -/
  | syncExchangeTimeout (port : Fin 64)
  /-- CAM_TIME_TIMEOUT (R177): Each 10 ms without CORR_ACK writes a CAM_TIME record. Operands: camera port. -/
  | camTimeTimeout (port : Fin 64)
  /-- PARITY_STRIPE_COMPLETE (R168): Once every codeword of a stripe has a status, it is released or rebuilt.
    Operands: camera port; lanes of the bond whose codeword is BAD. -/
  | parityStripeComplete (port : Fin 64) (bad : List Nat)
  /-- CODEWORD_RECEIVED (R123): A codeword is decoded and delivered GOOD, CORRECTED or BAD. Operands: lane; symbols
    in error. -/
  | codewordReceived (lane : Fin 64) (symbols : Nat)
  /-- ALIGNMENT_BLOCK_RECEIVED (R113): An alignment position is checked for the comma and its fields taken. Operands:
    lane; what stands at the alignment position. -/
  | alignmentBlockReceived (lane : Fin 64) (obs : AlignObs)
  /-- ALIGNMENT_PERIOD_BOUNDARY (R127): A transmitter starts an alignment period, announcing QUIET or leaving L1.
    Operands: lane. -/
  | alignmentPeriodBoundary (lane : Fin 64)
  /-- SYNTH_LOCK (R118): A quad synthesiser locks and its transmitters start alignment periods. Operands: quad. -/
  | synthLock (quad : Fin 16)
  /-- START_BUDGET_ADMIT (R126): A waiting quad is admitted to the start budget and its lanes enter DETECT. -/
  | startBudgetAdmit
  /-- LANE_SIGNAL_DETECT (R124): The amplitude exceeds 60 mV for 1 µs and adaptation proceeds. Operands: lane. -/
  | laneSignalDetect (lane : Fin 64)
  /-- LANE_ACQUIRE_DONE (R124): Gain and CDR are locked and the lane moves to BLIND or ALIGN. Operands: lane. -/
  | laneAcquireDone (lane : Fin 64)
  /-- LANE_BLIND_DONE (R124): Blind FFE adaptation ends and ALIGN begins. Operands: lane. -/
  | laneBlindDone (lane : Fin 64)
  /-- LANE_TRAIN_DONE (R124): Decision-directed training ends and QUALIFY begins. Operands: lane. -/
  | laneTrainDone (lane : Fin 64)
  /-- LANE_QUALIFY_DONE (R124): QUALIFY passes and the lane becomes UP. Operands: lane; skew of R117, 100 ps. -/
  | laneQualifyDone (lane : Fin 64) (skew : Int)
  /-- LANE_PHASE_OVERRUN (R124): A phase that overruns its maximum restarts the lane at ACQUIRE. Operands: lane. -/
  | lanePhaseOverrun (lane : Fin 64)
  /-- EQF_WINDOW_CLOSE (R122): An EQF window closes and is judged against the thresholds. Operands: lane; EQF of the
    window, 0.1 dB. -/
  | eqfWindowClose (lane : Fin 64) (eqf : Nat)
  /-- LANE_SIGNAL_LOSS (R128): Signal loss for 1 µs without QUIET takes the lane DOWN. Operands: lane. -/
  | laneSignalLoss (lane : Fin 64)
  /-- RX_L1_TIMEOUT (R131): A receiver in L1 for over 10 ms leaves it through QUICK. Operands: lane. -/
  | rxL1Timeout (lane : Fin 64)
  /-- REFCLK_OUT_OF_RANGE (R120): REFCLK_L leaves range: synthesisers stop and lanes go DOWN. Operands: mean REFCLK_L
    frequency, Hz. -/
  | refclkOutOfRange (freq : Nat)
  /-- REFCLK_IN_RANGE (R120): REFCLK_L returns to range and the lanes restart. -/
  | refclkInRange
  /-- CHECKER_SYNC_GAIN (R134): The pattern checker is in sync after 1,024 error-free bits. Operands: lane. -/
  | checkerSyncGain (lane : Fin 64)
  /-- CHECKER_SYNC_LOSS (R134): The checker leaves sync and reseeds, writing CHK_SYNC_LOST. Operands: lane. -/
  | checkerSyncLoss (lane : Fin 64)
  /-- INJECT_EVENT (R136): At each interval one injected error event is sent. Operands: lane. -/
  | injectEvent (lane : Fin 64)
  /-- PPS_IN_EDGE (R47): A PPS_IN edge updates discipline phase and state. Operands: phase error, ps; frequency
    error. -/
  | ppsInEdge (phase : Int) (freq : FreqRead)
  /-- PPS_LOSS_TIMEOUT (R47): Three seconds without a PPS_IN edge move LOCKED to HOLDOVER. -/
  | ppsLossTimeout
  /-- TEN_IN_LOSS_TIMEOUT (R47): TEN_IN without an edge for 1 µs moves LOCKED to HOLDOVER. -/
  | tenInLossTimeout
  /-- SEAM_EXCHANGE_LOSS (R47): No valid Seam time exchange for 10 ms moves LOCKED to HOLDOVER. -/
  | seamExchangeLoss
  /-- ACQUISITION_STEP (R48): In ACQUIRE a phase error above 1 µs is removed by a step at the next roll-over. -/
  | acquisitionStep
  /-- PPS_OUT_RISE (R50): PPS_OUT rises at each timebase second. -/
  | ppsOutRise
  /-- POSITION_PUBLICATION (R56): Every 100 ns the position, edge time and speed are published to every unit. -/
  | positionPublication
  /-- TIME_UNIT_SEND (R56): A TIME unit sends its fire-at message at exactly t − L. Operands: unit. -/
  | timeUnitSend (unit : Fin 32)
  /-- FIRE_INSTANT (R57): At a fire instant the unit's position is latched and TC_FIRE is produced. Operands: unit. -/
  | fireInstant (unit : Fin 32)
  /-- PIN_PULSE_START (R62): An output pin starts a scheduled or bound pulse at its instant. Operands: pin. -/
  | pinPulseStart (pin : Fin 24)
  /-- PIN_INPUT_EDGE (R61): An accepted input pin edge is timestamped and queued to its consumers. Operands: pin;
    direction of the edge. -/
  | pinInputEdge (pin : Fin 24) (rising : Bool)
  /-- WINDOW_EVENT_ACT (R66): A window acts on an event 1 µs after its resolved instant. Operands: window. -/
  | windowEventAct (window : Fin 16)
  /-- WINDOW_FRAME_JUDGE (R66): A frame is judged against its window 2 µs after its trigger time. Operands: window;
    stream whose oldest unjudged frame is judged. -/
  | windowFrameJudge (window : Fin 16) (stream : Fin 512)
  /-- QUAD_DECODE (R79): A change of filtered A and B counts, or records a decoder error. Operands: channel; filtered
    A and B. -/
  | quadDecode (chan : Fin 8) (a b : Bool)
  /-- PULSE_DIR_EDGE (R81): A rising A edge counts in the direction of B. Operands: channel; B at the edge; B changed
    in the same sample. -/
  | pulseDirEdge (chan : Fin 8) (b changed : Bool)
  /-- UP_DOWN_EDGE (R82): Rising A counts up and rising B counts down. Operands: channel; rising edge of A; rising
    edge of B. -/
  | upDownEdge (chan : Fin 8) (a b : Bool)
  /-- HALL_STATE_CHANGE (R84): A Hall state change counts ±1 or records an illegal state or jump. Operands: channel;
    filtered UVW. -/
  | hallStateChange (chan : Fin 8) (uvw : Fin 8)
  /-- INDEX_EDGE (R90): A qualified Z edge latches the count or homes the counter. Operands: channel; A and B both
    high in the same sample. -/
  | indexEdge (chan : Fin 8) (abHigh : Bool)
  /-- WIRE_BREAK_SET (R74): A monitored pair's wires agree for WB_TIME and its condition is set. Operands: channel;
    pair A, B, Z. -/
  | wireBreakSet (chan : Fin 8) (pair : Fin 3)
  /-- WIRE_BREAK_CLEAR (R74): The pair's wires disagree for WB_TIME and its condition clears. Operands: channel;
    pair. -/
  | wireBreakClear (chan : Fin 8) (pair : Fin 3)
  /-- SERIAL_READING (R86): At each period a serial frame is read and moves the counter or fails. Operands: channel;
    what the frame gave. -/
  | serialReading (chan : Fin 8) (reading : SerialFrame)
  /-- DIVIDER_OUTPUT_STEP (R98): The divider emits one quadrature step from its backlog when the gap allows.
    Operands: divider pair. -/
  | dividerOutputStep (pair : Fin 4)
  /-- METER_WINDOW_CLOSE (R29): Every 1 ms the meters close their window and set their flags. Operands: the lowest
    ratio each of the 48 pace monitors showed in the window, 0.001. -/
  | meterWindowClose (paces : List Nat)
  /-- VF_EVALUATE (R34): Every 250 µs in FOLLOW the margin is evaluated and the setpoint raised, held or lowered.
    Operands: M, 0.001. -/
  | vfEvaluate (margin : Nat)
  /-- READ_VOUT_CHECK (R35): Every 10 ms READ_VOUT is compared with the commanded value. Operands: READ_VOUT, mV. -/
  | readVoutCheck (mv : Nat)
  /-- MC_TRANSACTION (R493): A two-wire controller runs a requested transaction. Operands: controller; what the
    firmware asks; the bus before the START; how it ends. -/
  | mcTransaction (mc : Fin 4) (req : McReq) (clear : McClear) (result : McEnd)
  /-- MODULE_POLL (R493): Every 100 ms each present module's flags and monitors are read. Operands: site; CMIS flag
    bytes, none where the module does not answer. -/
  | modulePoll (site : Fin 16) (flags : Option Nat)
  /-- SITE_INSERTION_POLL (R493): Every 1 s each empty site is polled for insertion. Operands: site; acknowledged. -/
  | siteInsertionPoll (site : Fin 16) (ack : Bool)
  /-- THERMAL_SENSOR_READ (R474): Every 1 ms the sensors are read and step-down entries judged. Operands: sensors 0
    to 31 and stacks 0 to 3, 0.1 °C. -/
  | thermalSensorRead (readings : List Int)
  /-- STEPDOWN_EXIT (R475): A step is left after every reading has stayed below its exit for 1 s. -/
  | stepdownExit
  /-- PREVIEW_LEVEL_RAISE (R476): After 1 s at level 1 with the entry still reached, PREVIEW goes to level 2. -/
  | previewLevelRaise
  /-- THROTTLE_TICK (R476): Every 100 ms in THROTTLE_B one priority group is raised or lowered a level. -/
  | throttleTick
  /-- THERMAL_TRIP (R480): A trip temperature held for 1 ms asserts THERMTRIP# and drops PWR_EN. -/
  | thermalTrip
  /-- BOOT_THERMAL_WAIT (R480): After a trip, boot ROM rechecks the logic sensors every 100 ms until below 90 °C.
    Operands: logic sensors, 0.1 °C. -/
  | bootThermalWait (readings : List Int)
  /-- VAON_POWER_ON (R456): VAON comes up and PWR_EN rises within 100 µs. -/
  | vaonPowerOn
  /-- RESET_ASSERT (R457): RESET# low holds all but the VAON domain in reset, with the safe state. -/
  | resetAssert
  /-- RESET_RELEASE (R458): RESET# rises: straps are latched, stage S1 starts and boot begins. Operands: straps;
    whether each image verifies; logic sensors, 0.1 °C. -/
  | resetRelease (vsafe : Bool) (mtAddr : Fin 4) (style ssc bootB imageA imageB : Bool) (readings : List Int)
  /-- STAGE_S2_REACHED (R461): The device reaches early service and applies the stored S2 items. -/
  | stageS2Reached
  /-- STAGE_S3_REACHED (R461): The device reaches reduced service and applies the stored S3 items. -/
  | stageS3Reached
  /-- STAGE_S4_REACHED (R461): The device reaches full service and applies the stored S4 items and rates. -/
  | stageS4Reached
  /-- STACK_READY (R461): A frame-store stack finishes starting or retraining. Operands: stack. -/
  | stackReady (stack : Fin 4)
  /-- START_PACER_GRANT (R466): The start pacer grants a waiting start event within the slope budget. -/
  | startPacerGrant
  /-- STANDBY_ENTRY (R468): Quads go OFF, ports freeze, the device holds itself in reset and drops PWR_EN. -/
  | standbyEntry
  /-- PWR_EN_HOLD_END (R470): A latched wake raises PWR_EN after at least 110 ms low. -/
  | pwrEnHoldEnd
  /-- WAKE_PIN (R469): WAKE# held low for 1 µs raises PWR_EN for a wake. -/
  | wakePin
  /-- MT_ADDRESS_WAKE (R469): An MT address match in standby raises PWR_EN without acknowledging. -/
  | mtAddressWake
  /-- CORE_HOLD_START (R472): VDD_CORE below 0.50 V stops every core handshake. -/
  | coreHoldStart
  /-- CORE_HOLD_END (R472): VDD_CORE at or above 0.55 V for 1 µs resumes the core. -/
  | coreHoldEnd
  /-- BROWNOUT_RESET (R472): A core hold longer than 1 ms resets the device with cause BROWNOUT. -/
  | brownoutReset
  /-- SAFETY_REGISTER_CHECK (R432): Every 1 ms each monitor channel checks the CRC of its registers and the timebase.
    Operands: monitor channel; register CRC; timebase and sampling clock against its oscillator. -/
  | safetyRegisterCheck (chan : Fin 2) (crcOk timeOk : Bool) (sampleOk : MonitorRead)
  /-- HEARTBEAT_PERIOD (R440): Each 1 ms period the pins toggle while healthy and read back each other. Operands:
    whether each channel's readback of the other's pin agrees. -/
  | heartbeatPeriod (aOk bOk : Bool)
  /-- PANEL_FRAME_START (R425): At each panel frame start the compositor shows the newest buffers, overlays and
    stripes. -/
  | panelFrameStart
  /-- PANEL_BAND_COMPARE (R428): After a band's last line the expected and actual CRCs are compared. Operands: band;
    CRC found by tile, for the tiles with pixels in it. -/
  | panelBandCompare (band : Nat) (actual : List (Nat × Nat))
  /-- PANEL_BAND_LATE (R429): A band comparison more than 1 ms late makes every tile STALE with TIMING. Operands:
    band. -/
  | panelBandLate (band : Nat)
  /-- TILE_AGE_EVAL (R426): Every 1 ms each tile's age is evaluated and STALE entered or left. -/
  | tileAgeEval
  /-- HPD_LOSS (R430): Loss of HPD stops the stream and enters NO_SINK. -/
  | hpdLoss
  /-- HPD_RETURN (R430): HPD returns and the link is trained again. -/
  | hpdReturn
  /-- IRQ_HPD (R430): The sink requests retraining, run as a change to the present mode. -/
  | irqHpd
  /-- PANEL_LINK_TRAINED (R430): Panel link training ends; the MSA is sent and RUNNING resumes at the next frame
    start. Operands: link rate, 10 Mbit/s, 0 for a failed training; lanes. -/
  | panelLinkTrained (rate lanes : Nat)
  /-- LOCKSTEP_MISMATCH (R450): The active pair faults and the standby pair takes over within 1 ms. -/
  | lockstepMismatch
  /-- PAIR_SELF_TEST_DONE (R450): A faulted pair passes its self-test and returns as standby. Operands: pair; passed.
    -/
  | pairSelfTestDone (pair : Fin 2) (ok : Bool)
  /-- ROUTER_TAKE (R501): The router takes a waiting event record of a line and passes it to its enabled consumers.
    Operands: line. -/
  | routerTake (line : Fin 48)
  /-- CONSUMER_OVERRUN_RECORD (R502): A deferred CONSUMER_OVERRUN record is written 1 ms after the previous one.
    Operands: consumer. -/
  | consumerOverrunRecord (consumer : Fin 24)
  /-- TRACE_DROP_REPORT (R508): Dropped trace records are reported by TRACE_DROP at most once per 1 ms. -/
  | traceDropReport
  /-- SNAPSHOT_INSTANT (R511): At the commanded instant every counter is latched and the snapshot ticket ends.
    Operands: snapshot number. -/
  | snapshotInstant (number : Nat)
  /-- SNAPSHOT_EXPIRY (R416): A held snapshot expires 60 s after its instant. Operands: snapshot number. -/
  | snapshotExpiry (number : Nat)
  /-- MT_POINTER_WRITE (R487): A pointer-style write applies its bytes at STOP from the pointer onward. Operands:
    7-bit address; pointer; data bytes. -/
  | mtPointerWrite (addr pointer : Nat) (data : List Byte)
  /-- MT_SET_POINTER (R487): A pointer-style write of the pointer alone sets the pointer. Operands: 7-bit address;
    pointer. -/
  | mtSetPointer (addr pointer : Nat)
  /-- MT_READ_AT_POINTER (R487): A pointer-style read returns data from a new pointer. Operands: 7-bit address;
    pointer; bytes read. -/
  | mtReadAtPointer (addr pointer count : Nat)
  /-- MT_READ_ON (R487): A pointer-style read returns data from the present pointer. Operands: 7-bit address; bytes
    read. -/
  | mtReadOn (addr count : Nat)
  /-- MT_READ_WORD (R488): An SMBus Read Word returns the device ID or the window base. Operands: 7-bit address;
    command code; the controller acknowledges the last data byte. -/
  | mtReadWord (addr code : Nat) (pec : Bool)
  /-- MT_WRITE_WORD (R488): An SMBus Write Word sets the window base at STOP. Operands: 7-bit address; command code;
    data; PEC where one is sent. -/
  | mtWriteWord (addr code lo hi : Nat) (pec : Option Nat)
  /-- MT_READ_BYTE (R488): An SMBus Read Byte returns one MT register. Operands: 7-bit address; command code; the
    controller acknowledges the last data byte. -/
  | mtReadByte (addr code : Nat) (pec : Bool)
  /-- MT_WRITE_BYTE (R488): An SMBus Write Byte sets MT_CFG, ALERT_SRC or ALERT_MASK. Operands: 7-bit address;
    command code; data; PEC where one is sent. -/
  | mtWriteByte (addr code value : Nat) (pec : Option Nat)
  /-- MT_BLOCK_WRITE (R488): An SMBus Block Write writes window bytes at STOP. Operands: 7-bit address; command code;
    count byte; data; PEC where one is sent. -/
  | mtBlockWrite (addr code count : Nat) (data : List Byte) (pec : Option Nat)
  /-- MT_BLOCK_READ (R488): An SMBus Block Read returns window bytes. Operands: 7-bit address; command code; the
    controller acknowledges the last data byte. -/
  | mtBlockRead (addr code : Nat) (pec : Bool)
  /-- MT_ALERT_RESPONSE (R492): MT arbitrates on an ARA read and, if it wins, reports its highest unreported source.
    Operands: bytes that other alerting devices send. -/
  | mtAlertResponse (others : List Nat)
  /-- ALERT_REREPORT (R491): A reported bit still set 100 ms later becomes unreported again. Operands: source. -/
  | alertRereport (bit : Fin 8)
  /-- MT_SCL_TIMEOUT (R481): SCL low for over 30 ms resets MT's interface and counts MT_TIMEOUTS. -/
  | mtSclTimeout
  /-- SEAM_HELLO_RECEIVED (R384): An intact HELLO brings a Seam link UP, or WIRING on a mismatch. Operands: link;
    what the HELLO carries. -/
  | seamHelloReceived (link : Fin 16) (serial seamId peerLink width : Nat)
  /-- SEAM_FLIT_RECEIVED (R391): A flit is accepted in order or NAKed, and its check of the previous flit is judged.
    Operands: link; 32-byte header; payload blocks; CRC_PREV that follows; a codeword of it was BAD. -/
  | seamFlitReceived (link : Fin 16) (header payload : List Byte) (trail : Nat) (bad : Bool)
  /-- SEAM_NAK_RECEIVED (R391): A NAK makes the sender replay from the FSN after ACK. Operands: link; ACK. -/
  | seamNakReceived (link : Fin 16) (ack : Nat)
  /-- SEAM_REPLAY_TIMEOUT (R391): No ACK advance for 10 µs replays from the oldest flit. Operands: link. -/
  | seamReplayTimeout (link : Fin 16)
  /-- SEAM_LINK_SILENCE (R391): No control block for 10 µs fails the link. Operands: link. -/
  | seamLinkSilence (link : Fin 16)
  /-- SEAM_FLIT_FORWARD (R393): A routed flit is forwarded once its output class holds credit. Operands: link. -/
  | seamFlitForward (link : Fin 16)
  /-- SEAM_REORDER_TIMEOUT (R394): A missing ESN not arrived in 100 µs is lost and SEAM_LOSS written. Operands:
    source Seam ID; class. -/
  | seamReorderTimeout (source : Nat) (cls : Fin 4)
  /-- SEAM_PROBE_RECEIVED (R395): A newer PROBE is stored and flooded on. Operands: link; payload. -/
  | seamProbeReceived (link : Fin 16) (payload : List Byte)
  /-- SEAM_PROBE_PERIODIC (R395): Each device floods a PROBE every 1 s. -/
  | seamProbePeriodic
  /-- SEAM_SERIAL_TIMEOUT (R395): A serial not heard from for 3 s is removed. Operands: serial. -/
  | seamSerialTimeout (serial : Nat)
  /-- SEAM_CONVERGENCE (R395): No stored PROBE changes for 5 ms; the root is elected and floods ASSIGN. -/
  | seamConvergence
  /-- SEAM_ASSIGN_RECEIVED (R397): A complete ASSIGN epoch from the root gives the device its Seam ID. Operands:
    link; payload. -/
  | seamAssignReceived (link : Fin 16) (payload : List Byte)
  /-- SEAM_ROUTING_TABLE_INSTALL (R399): The firmware installs new routing tables after convergence. -/
  | seamRoutingTableInstall
  /-- SEAM_ADMISSION_HOP (R403): A device checks and reserves its outgoing link for a Seam reservation. Operands:
    source device; stream; destination; demand, MB/s. -/
  | seamAdmissionHop (source stream dest demand : Nat)
  /-- SEAM_TIME_EXCHANGE (R405): A Seam OH_TIME exchange updates the offset to the parent. Operands: link;
    HOPS_TO_ROOT; TSTATE; instants of R405, 2⁻¹⁶ ns. -/
  | seamTimeExchange (link : Fin 16) (hops tstate t1 t2 t3 t4 : Nat)
  /-- POS_SAMPLE_KEEPALIVE (R411): A mirrored channel sends a POS_SAMPLE at least every 10 µs. Operands: channel. -/
  | posSampleKeepalive (chan : Fin 8)
  /-- POS_SAMPLE_RECEIVED (R411): A received position sample feeds the remote unit. Operands: source Seam ID;
    payload. -/
  | posSampleReceived (source : Nat) (payload : List Byte)
  /-- POS_SAMPLE_STALE (R411): No sample for 100 µs makes the mirrored channel INVALID. Operands: source Seam ID;
    channel. -/
  | posSampleStale (source : Nat) (chan : Fin 8)
  /-- LATCH_REQUEST_RECEIVED (R412): The encoder device answers with the raw count at the requested instant.
    Operands: source Seam ID; its unit; instant, T64; channel. -/
  | latchRequestReceived (source unit instant : Nat) (chan : Fin 8)
  /-- LATCH_ANSWER_RECEIVED (R412): The answered position goes into the peg. Operands: source Seam ID; instant, T64;
    unit; position. -/
  | latchAnswerReceived (source instant : Nat) (unit : Fin 32) (position : Int)
  /-- LATCH_TIMEOUT (R412): No answer within 1 ms leaves POSITION 0 and the peg DEGRADED. Operands: unit; instant,
    T64. -/
  | latchTimeout (unit : Fin 32) (instant : Nat)
  /-- MBX_REQ_RECEIVED (R413): A relayed command reaches the remote mailbox for its source. Operands: source Seam ID;
    header and request area. -/
  | mbxReqReceived (source : Nat) (payload : List Byte)
  /-- MBX_RSP_RECEIVED (R413): A relayed response ends the local command, or is discarded as late. Operands: source
    Seam ID; header and response area. -/
  | mbxRspReceived (source : Nat) (payload : List Byte)
  /-- MBX_CANCEL_RECEIVED (R413): A relayed CANCEL acts on the remote command. Operands: source Seam ID; SEQUENCE. -/
  | mbxCancelReceived (source seq : Nat)
  /-- SNAP_REQ_RECEIVED (R415): A device schedules a latch at the instant or returns MISSED. Operands: Seam ID of the
    taker; its number; instant, T64. -/
  | snapReqReceived (origin number instant : Nat)
  /-- SEAM_SNAPSHOT_INSTANT (R415): At the instant a LOCKED device latches its counters and returns SNAP_DATA.
    Operands: this device's number of the snapshot. -/
  | seamSnapshotInstant (number : Nat)
  /-- SNAP_DATA_RECEIVED (R415): The taking device stores a peer's snapshot values. Operands: source Seam ID; number;
    MISSED; counters from 0. -/
  | snapDataReceived (source number : Nat) (missed : Bool) (values : List Nat)
  /-- SNAP_INCOMPLETE_TIMEOUT (R381): Peers without values 100 ms after the instant set INCOMPLETE. Operands:
    snapshot number. -/
  | snapIncompleteTimeout (number : Nat)
  /-- EVENT_FLIT_RECEIVED (R414): A relayed event record is delivered to local consumers with SOURCE unchanged.
    Operands: the event record. -/
  | eventFlitReceived (bytes : List Byte)
  /-- FRAME_DATA_RECEIVED (R409): Frame payload from a peer is placed through the landing stream. Operands: source
    Seam ID; stream; payload. -/
  | frameDataReceived (source : Nat) (stream : Fin 512) (data : List Byte)
  /-- FRAME_END_RECEIVED (R409): The landing device checks the frame and writes the peg from the template. Operands:
    source Seam ID; stream; peg template. -/
  | frameEndReceived (source : Nat) (stream : Fin 512) (peg : List Byte)
  /-- SUPPLY_OUT_OF_RANGE (R436): The supply comparators of the safety monitor find VDD_CORE outside 0.62 to 0.90 V,
    or VDDIO_33 outside ±10 %, or find the rail back in range, which sets or clears the SUPPLY cause. Operands:
    VDD_CORE or else VDDIO_33; out of range or back in it. -/
  | supplyOutOfRange (core out : Bool)
  /-- STANDBY_PAIR_READY (R451): A management pair finishes booting and verifying its image and catching up, and
    becomes the standby pair, after start-up or after a handover under FW.ACTIVATE. Operands: pair. -/
  | standbyPairReady (pair : Fin 2)
  /-- PIN_PULSE_END (R64): An output pin's pulse, or PPS_OUT's high time, reaches its end and the pin falls unless an
    overlapping pulse still holds it high. Operands: pin, none for PPS_OUT. -/
  | pinPulseEnd (pin : Option (Fin 24))
  /-- JTAG_INSTRUCTION (R512): An instruction shifted in through the JTAG port takes effect: BYPASS, IDCODE, SAMPLE,
    PRELOAD, EXTEST, CLAMP, HIGHZ, EXTEST_PULSE, EXTEST_TRAIN or DBG_READ, gated by RESET# and the lock fuse.
    Operands: instruction. -/
  | jtagInstruction (instr : JtagInstr)
deriving DecidableEq, Repr

end Sys2Proof
end

