-- ==== Sys2Proof/Decode.lean ====
section
/-! DEFINITION. The commands that words spell by the bits of the table of operations and events: the table gives its
rows no bits, so no word spells a command. -/

namespace Sys2Proof

/-- The command that an instruction of `nbits` bits with value `w` spells. -/
def decodeTableWord (_nbits _w : Nat) : Option Instr := none

end Sys2Proof
end

