-- ==== Sys2Proof/Config.lean ====
section
/-! DEFINITION. What one part or one implementation fixes, and the free values: opaque constants that nothing can
evaluate, for every value that the spec leaves open. Each names the log entry that declares it. -/

namespace Sys2Proof.Config

/-- 64 bits; R366 (13): the device serial of the part (log 9). -/
opaque serial : BitVec 64

/-- 11 bits; R512 (19): Fevinor's manufacturer identity in IDCODE, stated in a BSDL file that is not part of the
spec (log 9). -/
opaque idcodeMaker : BitVec 11

/-- 7 bits; R493 (18): PMBus address of the regulator, from the MAKER configuration (log 9). -/
opaque regulatorAddress : BitVec 7

/-- R355 (12): byte `i` of draw `n` of the on-die random source (log 5). -/
opaque randomByte (n i : Nat) : Byte

/-- R39 (02): time that passes at idle tick `n`, in 2⁻¹⁶ ns (log 4). -/
opaque elapsed (n : Nat) : Nat

/-- Whether the quotient of `n` by `d`, not exact and of no stated rounding, is taken up (true) or down (log 10). -/
opaque roundUp (n : Int) (d : Nat) : Bool

/-- R236 (07): byte `i` of what Press-V codes of image content `img` under settings `set`, and of open header fields
(log 11). -/
opaque pressVByte (set img : List Nat) (i : Nat) : Byte

/-- R236 (07): length of a slice's code, before its budget cuts it (log 11). -/
opaque pressVLength (set img : List Nat) : Nat

/-- R235 (07): level and sublevel, as one 16-bit code, of the lowest level of ISO/IEC 21122-2 that covers a Press-V
stream of these figures; none where no level does (log 55). -/
opaque pressVLevel (figures : List Nat) : Option Nat

/-- R367 (13): byte `i` of the equaliser coefficients that lane `lane` shows after `n` adaptations (log 12). -/
opaque coeffByte (lane n i : Nat) : Byte

/-- R513 (19): what DBG_READ shifts out, bit `i` at draw `n` (log 12). -/
opaque debugBit (n i : Nat) : Bool

/-- R299 (10): dword `reg` of the configuration space of function `fn` where PCI Express and not the spec gives its
value (log 13). -/
opaque pcieDword (fn reg : Nat) : BitVec 32

/-- R378 (13): version that a firmware image of these bytes carries (log 14). -/
opaque imageVersion (bytes : List Byte) : BitVec 32

/-- R506 (19): byte `i` of a trace record's DATA in group `g` at record `n`, where the spec gives the group no layout
(log 15). -/
opaque traceByte (g n i : Nat) : Byte

/-- A value that the spec names and gives no rule for, by a code of its kind, the operands it may depend on, and a
draw (the log entry of its kind says which). -/
opaque openValue (kind draw : Nat) (args : List Nat) : Nat

end Sys2Proof.Config
end

