-- ==== Sys2Proof/Machine/Types/Cam.lean ====
section
/-! DEFINITION. State of the camera ports and the Knara Line Protocol (R139 to R179, spec file 05). -/

namespace Sys2Proof.Machine

/-- CP_STATE.STATE (R141, R178). -/
inductive PortState | off | linking | discover | sync | ready | held | refused
deriving DecidableEq, Repr

/-- Who waits for a control request (R155). -/
inductive CtrlOwner
  /-- the capability read of R158 -/
  | discovery
  /-- the writes and read-backs of R158, by step -/
  | settings (step : Nat)
  /-- PORT.CAM_READ or PORT.CAM_WRITE of this mailbox -/
  | mailbox (id : Nat)
  /-- the pulse writes of PORT.CALIBRATE -/
  | calibrate
deriving DecidableEq, Repr

/-- An outstanding control request (R154, R155). -/
structure CtrlReq where
  /-- 8 bits; R154 (05): TAG. -/
  tag : Nat
  /-- R154 (05): OP, 1 READ, 2 WRITE, 3 READ_BURST, 4 WRITE_BURST. -/
  op : Nat
  /-- 32 bits; R154 (05): ADDR. -/
  addr : Nat
  /-- 16 bits; R154 (05): LEN. -/
  len : Nat
  /-- R154 (05): DATA of a write. -/
  data : List Byte
  /-- R155 (05): the retry has been sent. -/
  retried : Bool
  /-- R155 (05): who waits. -/
  owner : CtrlOwner
deriving DecidableEq, Repr

/-- A FIRE sent to a camera and not yet ended (R159, R163). -/
structure FireOut where
  /-- 16 bits; R159 (05): FIRE_ID. -/
  fireId : Nat
  /-- R159 (05): UNIT. -/
  unit : Nat
  /-- R159 (05): INSTANT with fraction, 2⁻¹⁶ ns. -/
  instant : Nat
  /-- R58 (02): DELAYED. -/
  delayed : Bool
  /-- R57 (02): position latched at the instant; none before the instant. -/
  pos : Option Int
  /-- R57 (02): encoder channel of the unit's source; 0xFF for none. -/
  enc : Nat
  /-- R412 (14): no LATCH answer came: POSITION 0, DEGRADED. -/
  noLatch : Bool
  /-- R163 (05): a FIRE_STATUS has arrived. -/
  answered : Bool
  /-- R152, R163 (05): the SOFs with the FIRE_ID so far, newest first: FRAME_NO, substream, exposure. -/
  sofs : List (Nat × Nat × Nat)
  /-- R163 (05): the trigger has ended with an intact frame; further exposures and substreams may still come. -/
  ended : Bool
deriving DecidableEq, Repr

/-- A received SOF (R148). -/
structure Sof where
  /-- 32 bits; R148 (05): FRAME_NO. -/
  frameNo : Nat
  /-- 16 bits; R148 (05): FIRE_ID. -/
  fireId : Nat
  /-- 64 bits; R148 (05): EXPOSE_T64. -/
  exposeT64 : Nat
  /-- 16 bits; R148 (05): WIDTH. -/
  width : Nat
  /-- 16 bits; R148 (05): HEIGHT. -/
  height : Nat
  /-- 8 bits; R148 (05): PACKING. -/
  packing : Nat
  /-- 8 bits; R148 (05): MOSAIC. -/
  mosaic : Nat
  /-- R148 (05): exposure count E. -/
  count : Nat
  /-- R148 (05): exposure index. -/
  index : Nat
  /-- R148 (05): substream. -/
  sub : Nat
  /-- 16 bits; R148 (05): EXPOSE_DUR, 100 ns. -/
  dur : Nat
deriving DecidableEq, Repr

/-- A frame that is open on a port (R152). -/
structure OpenFrame where
  /-- R148 (05): its SOF. -/
  sof : Sof
  /-- R200 (06): number of the parameter set bound to it. -/
  set : Nat
  /-- R152 (05): payload received, as bytes at block offset × 32. -/
  data : Mem
  /-- R152 (05): offset that the next original IMG must start at, blocks. -/
  next : Nat
  /-- R153 (05): block ranges received intact, (offset, blocks). -/
  got : List (Nat × Nat)
  /-- R153 (05): lines already released to the streams. -/
  released : Nat
  /-- R152 (05): it breaks R152. -/
  broken : Bool
  /-- R169, R172 (05): packets that may be its own are damaged or lost. -/
  holed : Bool
  /-- R150 (05): its EOF: STATUS, TOTAL_BLK and PSN; none before. -/
  eof : Option (Nat × Nat × Nat)
deriving DecidableEq, Repr

/-- A run of damaged packet sequence numbers (R172). -/
structure DarnRun where
  /-- R170 (05): first PSN of the run. -/
  first : Nat
  /-- R170 (05): packets in the run. -/
  count : Nat
  /-- R172 (05): the run is closed. -/
  closed : Bool
  /-- R172 (05): requests sent for it, 0 to 2. -/
  sent : Nat
  /-- R172 (05): PSNs of the run still missing. -/
  missing : List Nat
deriving DecidableEq, Repr

/-- A running PORT.CALIBRATE (R167). -/
structure CalibSt where
  /-- R167 (05): mailbox that waits. -/
  mailbox : Nat
  /-- R167 (05): timing pin. -/
  pin : Nat
  /-- R167 (05): wire delay, ps. -/
  wire : Nat
  /-- R167 (05): pulse instant now awaited, 2⁻¹⁶ ns. -/
  instant : Nat
  /-- R167 (05): pulses measured. -/
  n : Nat
  /-- R167 (05): sum of the errors, 2⁻¹⁶ ns. -/
  sum : Int
deriving DecidableEq, Repr

/-- A parameter set waiting or in force (R198, R199). -/
structure ParamSet where
  /-- 32 bits; R368 (13): set number. -/
  number : Nat
  /-- 2 bits; R198 (06): substream. -/
  sub : Nat
  /-- 32 bits; R198 (06): VALID_FROM. -/
  tag : Nat
  /-- 8 bits; R198 (06): FLAGS. -/
  flags : Nat
  /-- R201 (06): queued as late. -/
  late : Bool
  /-- R201 (06): the mailbox whose command queued it, 0xFFFF for none. -/
  mailbox : Nat
  /-- R201, R533 (06, 12): the instant it took effect, 2⁻¹⁶ ns of the timebase. -/
  queuedAt : Nat
  /-- 144 bytes; R198 (06): the record. -/
  bytes : List Byte
deriving DecidableEq, Repr

/-- One camera port. -/
structure PortSt where
  /-- R139 (05): PORT.CONFIGURE has been applied; reset not. -/
  configured : Bool
  /-- R139 (05): width, lanes; no reset value, 1 until configured. -/
  width : Nat
  /-- R139 (05): protection, 0 NONE, 1 PARITY, 2 DARNING; reset NONE. -/
  protection : Nat
  /-- R139 (05): trigger mode FIRE_AT; reset FREE_RUN. -/
  fireAt : Bool
  /-- 32 bits; R139 (05): expected camera tag; reset 0. -/
  expTag : Nat
  /-- R139 (05): asymmetry A, ps; reset 0. -/
  asym : Int
  /-- R139 (05): exposure timeout, ms; reset 100. -/
  expTimeout : Nat
  /-- R139 (05): frame timeout, ms; reset 1,000. -/
  frameTimeout : Nat
  /-- 4 bits; R141 (05): state; reset OFF. -/
  state : PortState
  /-- 4 bits; R178 (05): refusal CAUSE; reset 0. -/
  cause : Nat
  /-- R166 (05): ALIGNED; reset 0. -/
  aligned : Bool
  /-- R161 (05): LONG_LINK; reset 0. -/
  longLink : Bool
  /-- R168 (05): DEGRADED; reset 0. -/
  degraded : Bool
  /-- 16 bits; R178 (05): ACTIVE_MASK; reset 0. -/
  activeMask : Nat
  /-- 32 bits; R178 (05): CAP_TAG of the camera; reset 0. -/
  camTag : Nat
  /-- R178 (05): d_down, ps; reset 0. -/
  dDown : Nat
  /-- R178 (05): last mean θ, 2⁻¹⁶ ns, signed; reset 0. -/
  theta : Int
  /-- 64 bytes; R157 (05): capability part as read; reset empty. -/
  caps : List Byte
  /-- R158 (05): attempts of the capability read; reset 0. -/
  attempts : Nat
  /-- R155 (05): requests outstanding, at most eight; reset none. -/
  reqs : List CtrlReq
  /-- R155 (05): requests that wait until one of the eight has ended, oldest first: OP, ADDR, LEN, DATA, owner; reset none. -/
  reqQueue : List CtrlReq
  /-- 8 bits; R155 (05): next TAG; reset 0 (DESIGN CHOICE, log 6). -/
  nextTag : Nat
  /-- R163 (05): FIREs not yet ended, oldest first; reset none. -/
  fires : List FireOut
  /-- 16 bits; R159 (05): next FIRE_ID; reset 0. -/
  nextFire : Nat
  /-- R59 (02): last instant actually sent; reset none. -/
  lastSent : Option Nat
  /-- 32 bits; R145 (05): PSN of the next packet sent; reset 0. -/
  txPsn : Nat
  /-- 32 bits; R145 (05): PSN expected next; reset 0. -/
  rxPsn : Nat
  /-- R172 (05): runs of damaged packets under repair; reset none. -/
  runs : List DarnRun
  /-- R177 (05): IMG and EOF blocks held for a repair, by PSN: type and bytes; reset none. -/
  heldBlocks : Tab (Nat × List Byte)
  /-- R152 (05): open frames, oldest first, at most four; reset none. -/
  frames : List OpenFrame
  /-- R177 (05): frames already LOST whose later blocks record nothing more: FRAME_NO, substream, exposure. -/
  gone : List (Nat × Nat × Nat)
  /-- R163 (05): frames being discarded (SYNC, HELD, unsolicited): FRAME_NO, substream, exposure. -/
  discard : List (Nat × Nat × Nat)
  /-- R153 (05): FRAME_NO of the last intact SOF in FREE_RUN by substream and exposure; reset none. -/
  lastFree : Tab Nat
  /-- R200 (06): FRAME_NO of the last SOF accepted by substream; reset none. -/
  lastSof : Tab Nat
  /-- R164 (05): t1 of the periods sent, by PERIOD, newest first, at most 16; reset none. -/
  stamps : List (Nat × Nat)
  /-- R177 (05): the present period's ACTIVE_MASK contradicts R147; reset false. -/
  badPeriod : Bool
  /-- R166 (05): θ of the exchanges since the last mean, 2⁻¹⁶ / 2000 ns; reset none. -/
  thetas : List Int
  /-- R166 (05): consecutive means within ±0.5 ns; reset 0. -/
  goodMeans : Nat
  /-- 80 bits; R166 (05): CORR being sent; reset 0. -/
  corr : Int
  /-- 8 bits; R166 (05): CORR_SEQ; reset 0. -/
  corrSeq : Nat
  /-- R166 (05): the correction awaits its acknowledgement; reset false. -/
  corrWait : Bool
  /-- R167 (05): calibration running; reset none. -/
  calib : Option CalibSt
  /-- R177 (05): instants of the last 1,000 MALFORMED, 2⁻¹⁶ ns since reset release, newest first; reset none. -/
  malTimes : List Nat
  /-- R169, R172 (05): packets are lost whose frames are not known, since the last SOF; reset false. -/
  loss : Bool
  /-- R199 (06): pending parameter sets, oldest first, at most eight; reset none. -/
  pendSets : List ParamSet
  /-- R200 (06): active set of each substream; reset none. -/
  activeSets : Tab ParamSet
  /-- R202 (06): sets bound to frames in flight that are neither pending nor active, by number; reset none. -/
  boundSets : Tab ParamSet
  /-- 32 bits; R368 (13): next set number; reset 1. -/
  nextSet : Nat
  /-- 64 bits; R178 (05): intact frames; reset 0. -/
  cIntact : Nat
  /-- 32 bits; R178 (05): LOST; reset 0. -/
  cLost : Nat
  /-- 32 bits; R178 (05): REBUILT; reset 0. -/
  cRebuilt : Nat
  /-- 32 bits; R178 (05): DARN_REQ sent; reset 0. -/
  cDarnReq : Nat
  /-- 32 bits; R178 (05): DARN_PKTS; reset 0. -/
  cDarnPkts : Nat
  /-- 16 bits; R178 (05): MALFORMED; reset 0. -/
  cMalformed : Nat
  /-- 8 bits; R178 (05): CTRL_LATE; reset 0. -/
  cCtrlLate : Nat
  /-- 8 bits; R178 (05): CTRL_TIMEOUT; reset 0. -/
  cCtrlTimeout : Nat
  /-- 16 bits; R178 (05): FIRE_REFUSED; reset 0. -/
  cFireRefused : Nat
  /-- 8 bits; R178 (05): FIRE_NOSOF; reset 0. -/
  cNoSof : Nat
  /-- 8 bits; R178 (05): UNSOLICITED; reset 0. -/
  cUnsol : Nat
  /-- 6 bits; R178 (05): CP_FLAGS; reset 0. -/
  flags : Nat
  /-- 16 bits; R178 (05): last FIRE_ID sent; reset 0. -/
  lastFire : Nat
  /-- 32 bits; R178 (05): FRAME_NO of the last intact SOF; reset 0. -/
  lastFrame : Nat
  /-- 16 bits; R178 (05): NOT_READY; reset 0. -/
  cNotReady : Nat
  /-- 16 bits; R178 (05): NO_STATUS; reset 0. -/
  cNoStatus : Nat
deriving DecidableEq, Repr

/-- What a camera port sends downstream, oldest first: the model's record of what has left the device. -/
inductive CamOut
  /-- R159, R160: FIRE with its UNIT, FIRE_ID, instant, DELAYED, and the PSN of both copies -/
  | fire (port unit fireId instant : Nat) (delayed : Bool) (psn : Nat)
  /-- R154: CTRL_REQ -/
  | ctrlReq (port tag op addr len : Nat) (data : List Byte) (psn : Nat)
  /-- R170: DARN_REQ -/
  | darnReq (port first count psn : Nat)
  /-- R164: a new CORR and CORR_SEQ in OH_TIME -/
  | corr (port seq : Nat) (value : Int)
deriving DecidableEq, Repr

/-- The camera ports. -/
structure CamSt where
  /-- R3 (00): camera ports by first lane. -/
  ports : Tab PortSt
  /-- R179 (05): each view's latch of each port's block, by view × 64 + lane; reset 0. -/
  latches : Tab (List Nat)
  /-- MODEL: what the ports have sent downstream, oldest first; reset empty. -/
  out : List CamOut
deriving DecidableEq, Repr

def PortSt.reset : PortSt :=
  { configured := false, width := 1, protection := 0, fireAt := false, expTag := 0, asym := 0, expTimeout := 100,
    frameTimeout := 1000, state := .off, cause := 0, aligned := false, longLink := false, degraded := false,
    activeMask := 0, camTag := 0, dDown := 0, theta := 0, caps := [], attempts := 0, reqs := [], reqQueue := [], nextTag := 0,
    fires := [], nextFire := 0, lastSent := none, txPsn := 0, rxPsn := 0, runs := [], heldBlocks := [], frames := [],
    gone := [], discard := [], lastFree := [], lastSof := [], stamps := [], badPeriod := false, thetas := [], goodMeans := 0, corr := 0, corrSeq := 0,
    corrWait := false, calib := none, malTimes := [], loss := false, pendSets := [], activeSets := [],
    boundSets := [], nextSet := 1, cIntact := 0, cLost := 0, cRebuilt := 0, cDarnReq := 0, cDarnPkts := 0,
    cMalformed := 0, cCtrlLate := 0, cCtrlTimeout := 0, cFireRefused := 0, cNoSof := 0, cUnsol := 0, flags := 0,
    lastFire := 0, lastFrame := 0, cNotReady := 0, cNoStatus := 0 }

def CamSt.reset : CamSt := { ports := [], latches := [], out := [] }

end Sys2Proof.Machine
end

