-- ==== Sys2Proof/Machine/Types/Event.lean ====
section
/-! DEFINITION. State of event routing and observation (spec file 19): records that wait for the router, the routing
matrix, flag pages, event rings, the MT queue, the trace, the counters and the snapshots. -/

namespace Sys2Proof.Machine

/-- An event record before a ring gives it its SEQ (R260, R497). -/
structure EventRec where
  /-- 8 bits; R497 (19): the producer's line. -/
  line : Nat
  /-- 8 bits; R497 (19): the kind within the line. -/
  kind : Nat
  /-- 16 bits; R497 (19): INST. -/
  inst : Nat
  /-- 16 bits; R497 (19): DETAIL. -/
  detail : Nat
  /-- 64 bits; R497 (19): VALUE. -/
  value : Nat
  /-- 64 bits; R260 (08): TIME, T64. -/
  time : Nat
  /-- 11 bits; R260 (08): SOURCE, 0x3FF for this device. -/
  source : Nat
  /-- R333, R334 (11): the per-hop bounds of the path that a relayed record came by, 2⁻¹⁶ ns; 0 for one of this device. -/
  allow : Nat := 0
deriving DecidableEq, Repr

/-- The event ring of a PCIe function (R503, R504, EVR_ registers of R505). -/
structure EventRing where
  /-- 64 bits; R503 (19): base address in host memory. -/
  base : Nat
  /-- 5 bits; R503 (19): log2 of the entries, 6 to 16. -/
  log2 : Nat
  /-- 16 bits; R503 (19): MSI-X vector. -/
  vector : Nat
  /-- 32 bits; R505 (19): EVR_WR, records written since EVT.SET_RING; 0 when the ring is set. -/
  wr : Nat
  /-- 32 bits; R504 (19): records released; 0 when the ring is set. -/
  rel : Nat
  /-- 1 bit; R505 (19): EVR_STATE.OVERRUN, sticky; clear when the ring is set. -/
  overrun : Bool
deriving DecidableEq, Repr

/-- The overruns of one consumer since its last CONSUMER_OVERRUN record (R502). -/
structure ConsOverrun where
  /-- R502 (19): overruns since the consumer's previous record; reset 0. -/
  since : Nat
  /-- R502 (19): line of the first of them; reset 0. -/
  first : Nat
  /-- R502 (19): instant of the previous record, in 2⁻¹⁶ ns since reset release; none before the first. -/
  last : Option Nat
deriving DecidableEq, Repr

/-- A trace record (R507) with its group's data. -/
structure TraceRec where
  /-- 6 bits; R507 (19): GROUP, filter bit number. -/
  group : Nat
  /-- 8 bits; R507 (19): KIND within the group. -/
  kind : Nat
  /-- 11 bits; R507 (19): SOURCE. -/
  source : Nat
  /-- 64 bits; R507 (19): TIME. -/
  time : Nat
  /-- 32 bits; R507 (19): DROPPED. -/
  dropped : Nat
  /-- 32 bits; R507 (19): TSEQ. -/
  tseq : Nat
  /-- 32 bytes; R507 (19): DATA. -/
  data : List Byte
deriving DecidableEq, Repr

/-- The trace (R506 to R508). -/
structure TraceSt where
  /-- 2 bits; R505 (19): TR_STATE.SINK, 0 OFF, 1 frame store, 2 host; reset 0. -/
  sink : Nat
  /-- 1 bit; R505 (19): STOPPED; reset 0. -/
  stopped : Bool
  /-- 5 bits; R505 (19): SIZE_LOG2; reset 0. -/
  sizeLog2 : Nat
  /-- 8 bits; R379 (13): function whose memory holds the host ring; reset 0. -/
  fn : Nat
  /-- 8 bits; R508 (19): host_log2; reset 0. -/
  hostLog2 : Nat
  /-- 64 bits; R508 (19): host_base; reset 0. -/
  hostBase : Nat
  /-- 64 bits; R506 (19): filter; reset 0. -/
  filter : Nat
  /-- 32 bits; R505 (19): TR_NEXT, TSEQ of the next record; reset 0. -/
  tseq : Nat
  /-- 32 bits; R507 (19): records dropped since the previous record; reset 0. -/
  dropped : Nat
  /-- R508 (19): records dropped since the last TRACE_DROP record; reset 0. -/
  dropNew : Nat
  /-- R508 (19): the sink's queue of up to 256 records, oldest first; reset empty. -/
  queue : List TraceRec
  /-- R508 (19): the frame-store ring, record t at number t mod (size / 64); reset empty. -/
  ring : Tab TraceRec
deriving DecidableEq, Repr

/-- One snapshot of the counters (R511, R415, R416). -/
structure Snapshot where
  /-- 32 bits; R379 (13): snapshot number, never 0. -/
  number : Nat
  /-- 64 bits; R511 (19): T64 of the commanded or latched instant. -/
  instant : Nat
  /-- R511 (19): the latch has been made (or missed). -/
  done : Bool
  /-- R381 (13): MISSED. -/
  missed : Bool
  /-- R381 (13): INCOMPLETE. -/
  incomplete : Bool
  /-- R415 (14): the snapshot is one of the whole fabric. -/
  fabric : Bool
  /-- R380 (13): the ticket that ends at the instant. -/
  ticket : Option Nat
  /-- R511 (19): this device's counters as latched. -/
  values : Tab Nat
  /-- R415 (14): Seam ID of the device that took SEAM.SNAPSHOT_AT (this device: none). -/
  origin : Option Nat
  /-- R415 (14): the number under which the origin holds it. -/
  originNumber : Nat
  /-- R415 (14): the peers' counters, by Seam ID, as received. -/
  peers : Tab (Tab Nat)
  /-- R415 (14): peers whose answer said MISSED. -/
  peerMissed : List Nat
deriving DecidableEq, Repr

/-- Event routing and observation (spec file 19). -/
structure EventSt where
  /-- R501 (19): records produced and not yet taken by the router, in the order of their production; reset empty. -/
  waiting : List EventRec
  /-- 24 bits a line; R500 (19): the enable bits of each line's connections, newest first, each with the T64 of its
  effect instant; reset consumers 0 to 2. -/
  routes : Tab (List (Nat × Nat))
  /-- 48 bits a view; R505 (19): EVF_LINE_HI and EVF_LINE_LO of each function and of MT; reset 0. -/
  evfLine : Tab Nat
  /-- 24 bits; R505 (19): EVF_CONS.OVERRUN; reset 0. -/
  evfCons : Nat
  /-- 32 bits; R505 (19): EVF_UNIT.OVERRUN; reset 0. -/
  evfUnit : Nat
  /-- R502 (19): overruns of each consumer not yet reported; reset none. -/
  overruns : Tab ConsOverrun
  /-- R503 (19): the event ring of each PCIe function; reset none. -/
  rings : Tab EventRing
  /-- R504 (19): the 64 entries of the MT queue, each 32 bytes, by entry number; reset empty (reads 0). -/
  mtEntries : Tab (List Byte)
  /-- 32 bits; R504 (19): EVR_WR of the MT queue; reset 0. -/
  mtWr : Nat
  /-- 32 bits; R504 (19): records released of the MT queue; reset 0. -/
  mtRel : Nat
  /-- 1 bit; R505 (19): EVR_STATE.OVERRUN of the MT queue; reset 0. -/
  mtOverrun : Bool
  /-- R506 to R508 (19): the trace. -/
  trace : TraceSt
  /-- 4,096 × 64 bits; R509 (19): the counters by number; reset 0. -/
  counters : Tab Nat
  /-- R511 (19): the snapshots held or scheduled, at most four; reset none. -/
  snaps : List Snapshot
  /-- 32 bits; R379 (13): number of the next snapshot; reset 1 (DESIGN CHOICE, log 6). -/
  snapNext : Nat
deriving DecidableEq, Repr

/-- The trace with another queue, next TSEQ, DROPPED and unreported drops: what recording a record writes (R507, R508). -/
def TraceSt.noted (t : TraceSt) (u : List TraceRec × Nat × Nat × Nat) : TraceSt :=
  { t with queue := u.1, tseq := u.2.1, dropped := u.2.2.1, dropNew := u.2.2.2 }

def TraceSt.reset : TraceSt :=
  { sink := 0, stopped := false, sizeLog2 := 0, fn := 0, hostLog2 := 0, hostBase := 0, filter := 0, tseq := 0,
    dropped := 0, dropNew := 0, queue := [], ring := [] }

/-- Nothing routed but consumers 0x00 to 0x02 of every line (R500); counters 0 (R509). -/
def EventSt.reset : EventSt :=
  { waiting := [], routes := [], evfLine := [], evfCons := 0, evfUnit := 0, overruns := [], rings := [],
    mtEntries := [], mtWr := 0, mtRel := 0, mtOverrun := false, trace := TraceSt.reset, counters := [],
    snaps := [], snapNext := 1 }

end Sys2Proof.Machine
end

