-- ==== Sys2Proof/Machine/Types/HostPort.lean ====
section
/-! DEFINITION. State of the DMA engines, the host ports, their PCIe functions, windows, queues and arbitration
(R262 to R338, spec files 09, 10 and 11). Functions are numbered port × 128 + n, 0 for the PF (R362). -/

namespace Sys2Proof.Machine

/-- RING_STATE.STATE (R292). -/
inductive ChanState | idle | stopped | run | waitMark | waitSpace | busStop
deriving DecidableEq, Repr

/-- A configuration in force on a channel (R268, R269). -/
structure RingCfg where
  /-- R268 (09): DATA_BASE. -/
  dataBase : Nat
  /-- R268 (09): DATA_LOG2. -/
  dataLog2 : Nat
  /-- R268 (09): PEG_BASE. -/
  pegBase : Nat
  /-- R268 (09): PEG_LOG2. -/
  pegLog2 : Nat
  /-- R268 (09): STS_BASE. -/
  stsBase : Nat
  /-- R268 (09): STS_LOG2. -/
  stsLog2 : Nat
  /-- R268 (09): START_MARK. -/
  startMark : Nat
  /-- R268 (09): STOP_MARK. -/
  stopMark : Nat
  /-- R268 (09): VECTOR. -/
  vector : Nat
  /-- R268 (09): FLAGS. -/
  flags : Nat
  /-- R268 (09): TAG. -/
  tag : Nat
  /-- R283 (09): descriptor count at the descriptor. -/
  index : Nat
deriving DecidableEq, Repr

/-- A TRANSFER in progress on a read channel (R281). -/
structure Transfer where
  /-- R268 (09): TAG. -/
  tag : Nat
  /-- R268 (09): SRC. -/
  src : Nat
  /-- R268 (09): LENGTH. -/
  length : Nat
  /-- R268 (09): TARGET_KIND. -/
  kind : Nat
  /-- R268 (09): TARGET_HANDLE. -/
  handle : Nat
  /-- R268 (09): TARGET_OFFSET. -/
  offset : Nat
  /-- R268 (09): IRQ_DONE. -/
  irq : Bool
  /-- R283 (09): descriptor count at it. -/
  index : Nat
  /-- R281 (09): bytes requested so far. -/
  asked : Nat
  /-- R281 (09): bytes written to the target so far. -/
  got : Nat
  /-- R281 (09): a check of its target has failed: the rest is skipped. -/
  failed : Bool
deriving DecidableEq, Repr

/-- A status record (R283) before its REC and STS_CRC. -/
structure StsRec where
  /-- R284 (09): CODE. -/
  code : Nat
  /-- R283 (09): FLAGS. -/
  flags : Nat
  /-- R283 (09): DESC_INDEX. -/
  index : Nat
  /-- R283 (09): TAG. -/
  tag : Nat
  /-- R283 (09): SEQUENCE. -/
  seq : Nat
  /-- R283 (09): RESIDUE. -/
  residue : Nat
  /-- R283 (09): TIME. -/
  time : Nat
deriving DecidableEq, Repr

/-- A peg owed to the host by a function-level reset or a freeze (R290, R316): its 64 bytes but for LOCATION, CHANNEL and CRC. -/
structure OwedPeg where
  /-- R257 (08): bytes 0 to 59 as far as they are known. -/
  bytes : List Byte
  /-- R328 (11): the instant its frame was ended, 2⁻¹⁶ ns since reset release. -/
  start : Nat
deriving DecidableEq, Repr

/-- One DMA channel, write or read (R292). -/
structure ChanSt where
  /-- 4 bits; R292 (09): STATE; reset IDLE. -/
  state : ChanState
  /-- 4 bits; R292 (09): CAUSE; reset 0. -/
  cause : Nat
  /-- R264 (09): function the channel belongs to; reset none. -/
  fn : Option Nat
  /-- 9 bits; R292 (09): bound or charged stream; reset 0. -/
  stream : Nat
  /-- R323 (10): the channel is a protected stream's alternate; reset false. -/
  alternate : Bool
  /-- 64 bits; R266 (09): descriptor ring base; reset 0. -/
  descBase : Nat
  /-- 5 bits; R266 (09): LOG2_ENTRIES; reset 4. -/
  descLog2 : Nat
  /-- 32 bits; R266 (09): accepted tail; reset 0. -/
  tail : Nat
  /-- 32 bits; R292 (09): RING_DESC_HEAD, descriptors fetched; reset 0. -/
  head : Nat
  /-- 32 bits; R267 (09): descriptors whose fetch has been requested; reset 0. -/
  asked : Nat
  /-- R267 (09): fetched descriptors not yet executed, oldest first, with their count; reset none. -/
  fetched : List (Nat × List Byte)
  /-- R281 (09): counts of those that are TRANSFERs whose target was not valid at the fetch; reset none. -/
  badFetch : List Nat
  /-- R285 (09): count and TAG of the descriptor executed last; reset 0. -/
  last : Nat × Nat
  /-- 64 bits; R270 (09): RING_WR; reset 0. -/
  wr : Nat
  /-- 32 bits; R273 (09): RING_REL; reset 0. -/
  rel : Nat
  /-- 32 bits; R292 (09): RING_PEG; reset 0. -/
  pegs : Nat
  /-- 32 bits; R273 (09): pegs released; reset 0. -/
  pegRel : Nat
  /-- 16 bits; R292 (09): REC_NEXT; reset 0. -/
  recNext : Nat
  /-- 16 bits; R292 (09): SPACE_WAITS; reset 0. -/
  spaceWaits : Nat
  /-- 16 bits; R292 (09): BAD_DB; reset 0. -/
  badDb : Nat
  /-- 4 bits; R292 (09): RING_FLAGS; reset 0. -/
  flags : Nat
  /-- R269 (09): configuration in force; reset none. -/
  cfg : Option RingCfg
  /-- R291 (09): held BUS_STOP record; reset none. -/
  held : Option StsRec
  /-- R285 (09): a HALT awaits its boundary; reset false. -/
  halting : Bool
  /-- R287 (09): an ABORT awaits the data of requests already issued; reset false. -/
  aborting : Bool
  /-- R281 (09): transfer in progress; reset none. -/
  xfer : Option Transfer
  /-- R280 (09): declared rate, MB/s; reset 0. -/
  rate : Nat
  /-- R282 (09): bytes requested in the present 1 ms; reset 0. -/
  spent : Nat
  /-- R316 (10): pegs owed at the first ARM after a configuration, oldest first; reset none. -/
  owed : List OwedPeg
  /-- R279 (09): sequences of the first frames under new Folds whose records are owed, oldest first; reset none. -/
  foldSeq : List Nat
  /-- R275 (09): the channel is issuing; reset false. -/
  issuing : Bool
deriving DecidableEq, Repr

/-- What a TLP carries (R311). -/
inductive TlpKind
  /-- payload of a stream's frame of sequence `seq`, from running ring offset `at_` on; `last` it ends the frame, `ends` its
  burst -/
  | payload (stream chan seq at_ : Nat) (last ends : Bool)
  /-- peg record of a frame -/
  | peg (stream chan seq : Nat)
  /-- event record of an event ring -/
  | event
  /-- status record -/
  | status (chan : Nat)
  /-- MSI-X message -/
  | msix (vector : Nat)
  /-- memory read request -/
  | read (tag : Nat)
  /-- completion to the host, with the Completion Status of PCI Express -/
  | completion (status : Nat)
  /-- trace record to the host ring -/
  | trace
deriving DecidableEq, Repr

/-- A TLP that the port originates (R311). -/
structure Tlp where
  /-- R325 (11): class, 0 U, 1 P, 2 B, 3 M. -/
  cls : Nat
  /-- R362 (13): function. -/
  fn : Nat
  /-- R311 (10): what it carries. -/
  kind : TlpKind
  /-- host address. -/
  addr : Nat
  /-- data bytes (empty for a read request). -/
  data : List Byte
  /-- R329 (11): size in bytes, header included. -/
  size : Nat
  /-- R328 (11): start instant of a class U record, 2⁻¹⁶ ns since reset release. -/
  start : Nat
  /-- R276, R312 (09, 10): vectors whose MSI-X messages enter class U once this TLP is in the transmit queue, in order. -/
  vecs : List Nat
  /-- R334 (11): the per-hop bounds of the path of a relayed record, 2⁻¹⁶ ns; 0 for any other. -/
  allow : Nat := 0
deriving DecidableEq, Repr

/-- Who a memory read serves (R263). -/
inductive ReadFor
  | desc (isRead : Bool) (chan index : Nat)
  | data (chan len : Nat)
  /-- nobody: its channel has been returned -/
  | gone
deriving DecidableEq, Repr

/-- A memory read outstanding on a port (R263, R314). -/
structure OutRead where
  /-- 14 bits; R299 (10): tag. -/
  tag : Nat
  /-- R263 (09): who it serves. -/
  who : ReadFor
  /-- R281 (09): bytes asked. -/
  len : Nat
  /-- R263 (09): data once complete, waiting for earlier requests. -/
  data : Option (List Byte)
deriving DecidableEq, Repr

/-- QoS of a function and class (R336, R337). -/
structure Qos where
  /-- 8 bits; R336 (11): weight; reset 16. -/
  weight : Nat
  /-- R336 (11): cap, MB/s; reset 0. -/
  cap : Nat
  /-- R337 (11): credit of the reservations, bytes × 2¹⁶; reset 0. -/
  credit : Nat
  /-- R337 (11): deficit of the round robin, bytes; reset 0. -/
  deficit : Nat
  /-- R337 (11): credits of the streams' own reservations by channel, bytes × 2¹⁶; reset 0. -/
  streams : Tab Nat
  /-- R337 (11): channel at its turn for spare, and whether its burst is under way; reset 0, not under way (DESIGN CHOICE,
  log 6). -/
  chanTurn : Nat × Bool
  /-- R337 (11): token bucket of the cap, bytes × 2¹⁶; reset 64 KiB. -/
  bucket : Nat
  /-- R336 (11): bytes carried in the present meter window; reset 0. -/
  carried : Nat
  /-- R336 (11): MB/s carried over the last window; reset 0. -/
  lastCarried : Nat
deriving DecidableEq, Repr

/-- A BAR2 window entry (R308, R310). -/
structure WindowSt where
  /-- R310 (10): KIND, 0 OFF, 1 LEASE, 2 BUFFER; reset OFF. -/
  kind : Nat
  /-- R310 (10): WRITE; reset 0. -/
  write : Bool
  /-- R310 (10): SIZE_LOG2; reset 0. -/
  log2 : Nat
  /-- R310 (10): BAR2 offset; reset 0. -/
  base : Nat
  /-- R310 (10): buffer handle; reset 0. -/
  handle : Nat
  /-- 16 bits; R310 (10): REFUSED; reset 0. -/
  refused : Nat
  /-- R308 (10): FS_SPACE reserved, MiB; reset 0. -/
  space : Nat
deriving DecidableEq, Repr

/-- An MSI-X table entry (R313). -/
structure MsixEntry where
  /-- 64 bits; PCI Express (R313): message address; reset 0. -/
  addr : Nat
  /-- 32 bits; PCI Express (R313): message data; reset 0. -/
  data : Nat
  /-- 1 bit; PCI Express (R313): vector mask; reset set. -/
  masked : Bool
  /-- 1 bit; R313 (10): pending; reset 0. -/
  pending : Bool
deriving DecidableEq, Repr

/-- One PCIe function (R298 to R302, R313, R315). -/
structure FnSt where
  /-- R300 (10): D3hot; reset D0. -/
  d3 : Bool
  /-- R296 (10): Bus Master Enable; reset 0. -/
  bme : Bool
  /-- PCI Express (R299): Memory Space Enable; reset 0. -/
  mse : Bool
  /-- 64 bits; R302 (10): BAR0; reset 0. -/
  bar0 : Nat
  /-- 64 bits; R302 (10): BAR2; reset 0. -/
  bar2 : Nat
  /-- 3 bits; PCI Express (R299): Max_Read_Request_Size; reset 0b010 (512 B). -/
  mrrs : Nat
  /-- PCI Express (R299): Enable Relaxed Ordering and Enable No Snoop; reset both 1. -/
  relaxed : Nat
  /-- PCI Express (R313): MSI-X Enable; reset 0. -/
  msixOn : Bool
  /-- PCI Express (R313): Function Mask; reset 0. -/
  msixMask : Bool
  /-- R313 (10): MSI-X table by vector; reset masked entries. -/
  msix : Tab MsixEntry
  /-- R315 (10): function-level reset in progress; reset false. -/
  flr : Bool
  /-- R308 (10): window entries; reset OFF. -/
  windows : Tab WindowSt
  /-- R309 (10): BUFFER entries cleared, each with the instant, 2⁻¹⁶ ns since reset release; reset none. -/
  cleared : List (Nat × WindowSt)
  /-- 5 bits; R305 (10): HP_FLAGS of the function; reset 0. -/
  hpFlags : Nat
  /-- 32 bits; R299, R318 (10): AER uncorrectable error status; reset 0. -/
  aer : Nat
  /-- R299, R318 (10): AER header log, 4 DW; reset 0. -/
  aerLog : List Nat
deriving DecidableEq, Repr

/-- HP_STATE.STATE (R296). -/
inductive HostState | down | early | service | frozen
deriving DecidableEq, Repr

/-- One host port. -/
structure HostSt where
  /-- R296 (10): state; reset DOWN. -/
  state : HostState
  /-- 4 bits; R305 (10): RATE, 1 to 7; reset 0. -/
  rate : Nat
  /-- 5 bits; R305 (10): WIDTH; reset 0. -/
  width : Nat
  /-- R305 (10): FLIT; reset 0. -/
  flit : Bool
  /-- R294 (10): both ends of the link support FLIT mode; reset false. -/
  flitBoth : Bool
  /-- 2 bits; R295 (10): MPS code; reset 0. -/
  mps : Nat
  /-- R296 (10): DL_Active; reset false. -/
  link : Bool
  /-- R297 (10): PERSTn# asserted; no reset value given, asserted (DESIGN CHOICE, log 7). -/
  perst : Bool
  /-- 16 bits; R305 (10): FREEZE_SEQ; reset 0. -/
  frzSeq : Nat
  /-- 8 bits; R305 (10): CAUSE; reset 0. -/
  frzCause : Nat
  /-- 64 bits; R305 (10): T64 of the last freeze; reset 0. -/
  frzTime : Nat
  /-- R317 (10): instant of the last freeze, 2⁻¹⁶ ns since reset release; reset 0. -/
  frzAt : Nat
  /-- 16 bits; R319 (10): EXTRA; reset 0. -/
  frzExtra : Nat
  /-- R320 (10): instant, 2⁻¹⁶ ns since reset release, and cause of the last trigger counted in EXTRA; reset none. -/
  extraLast : Option (Nat × Nat)
  /-- R319 (10): LINK_WAS_DOWN; reset 0. -/
  frzLink : Bool
  /-- 16 bits; R305 (10): LATE_CPL; reset 0. -/
  lateCpl : Nat
  /-- 16 bits; R305 (10): CPL_TIMEOUT; reset 0. -/
  cplTimeout : Nat
  /-- 16 bits; R305 (10): UNMAPPED; reset 0. -/
  unmapped : Nat
  /-- 16 bits; R305 (10): BAD_ACCESS; reset 0. -/
  badAccess : Nat
  /-- 16 bits; R305 (10): FAILOVERS; reset 0. -/
  failovers : Nat
  /-- R297 (10): configuration requests are answered, and not with Request Retry Status; reset false. -/
  ready : Bool
  /-- R299 (10): Completion Timeout Value; reset 0. -/
  cplValue : Nat
  /-- R301 (10): VF Enable; reset 0. -/
  vfEnable : Bool
  /-- R301 (10): NumVFs; reset 0. -/
  numVfs : Nat
  /-- R301 (10): ARI Capable Hierarchy; reset 0. -/
  ari : Bool
  /-- R302 (10): log2 of the PF's BAR2; reset 37. -/
  pfBar2 : Nat
  /-- R302 (10): log2 of a VF's BAR2, 0 absent; reset 30. -/
  vfBar2 : Nat
  /-- R313 (10): VF vector limit L; reset 64. -/
  vecLimit : Nat
  /-- R302 (10): values stored in flash for the next PERSTn# or reset; as manufactured none. -/
  stored : Option (Nat × Nat × Nat)
  /-- R298 (10): subsystem vendor and ID in force; reset 0x1F6E and 0x0001. -/
  subsys : Nat × Nat
  /-- R301 (10): First VF Offset and VF Stride do not change; System Page Size, PCI Express's reset value 1 (4 KiB). -/
  pageSize : Nat
  /-- 64 bits; R301 (10): VF BAR0; reset 0. -/
  vfBar0 : Nat
  /-- 64 bits; R301, R302 (10): VF BAR2; reset 0. -/
  vfBar2Addr : Nat
  /-- R312, R325 (10, 11): class U issue queue of 128 entries, in issue order; reset empty. -/
  qU : List Tlp
  /-- R325, R334 (11): class U TLPs that wait in Basket slots, past 512 at their producers, for an entry of the issue queue;
  reset none. -/
  uWait : List Tlp
  /-- R325 (11): class P issue queue; reset empty. -/
  qP : List Tlp
  /-- R325 (11): class B issue queue; reset empty. -/
  qB : List Tlp
  /-- R325 (11): class M issue queue; reset empty. -/
  qM : List Tlp
  /-- R311 (10): the transmit queue, oldest first; reset empty. -/
  tx : List Tlp
  /-- R326 (11): bytes of the transmit queue's front TLP already transmitted, × 2¹⁶; reset 0. -/
  txDone : Nat
  /-- R327 (11): credits of P, B and M, bytes × 2¹⁶; reset 0. -/
  credits : List Nat
  /-- R327 (11): class whose turn the rotation takes, 1 P, 2 B, 3 M; reset 1 (DESIGN CHOICE, log 6). -/
  turn : Nat
  /-- R327 (11): instant up to which credits have grown, 2⁻¹⁶ ns since reset release; reset 0. -/
  creditAt : Nat
  /-- R336 (11): QoS by function × 4 + class; reset weight 16, no cap. -/
  qos : Tab Qos
  /-- R337 (11): function at which the round robin of P and of B stands; reset 0. -/
  rrFn : List Nat
  /-- 4 × 32 bits; R334 (11): U_OVERDUE by cause: CREDIT, RECOVERY, OUTSTANDING, OTHER; reset 0. -/
  overdue : List Nat
  /-- R334 (11): U_OVERDUE rose in the present window; reset false. -/
  overdueNew : Bool
  /-- R314 (10): reads outstanding, in the order of their requests; reset none. -/
  reads : List OutRead
  /-- R288 (09): tags of requests ended by a completion timeout; reset none. -/
  lateTags : List Nat
  /-- 14 bits; R299 (10): next tag; reset 0 (DESIGN CHOICE, log 6). -/
  nextTag : Nat
  /-- R282 (09): read channel whose turn the round robin takes; reset 0. -/
  rrRead : Nat
  /-- R318 (10): class U records discarded and counted (R335); reset 0. -/
  discarded : Nat
deriving DecidableEq, Repr

/-- DMA engines and host ports. -/
structure HostsSt where
  /-- R3 (00): H0 and H1. -/
  ports : Tab HostSt
  /-- R301 (10): functions by port × 128 + n. -/
  fns : Tab FnSt
  /-- R262 (09): write channels by port × 256 + channel. -/
  wch : Tab ChanSt
  /-- R262 (09): read channels by port × 64 + channel. -/
  rch : Tab ChanSt
  /-- R293 (09): latches of channel blocks, by function × 512 + channel (read channels from 256); reset 0. -/
  chLatches : Tab (List Nat)
  /-- R306 (10): latches of the port status page by function; reset 0. -/
  hpLatches : Tab (List Nat)
  /-- R308 (10): next buffer handle, not 0; reset 1 (DESIGN CHOICE, log 6). -/
  nextBuf : Nat
  /-- MODEL: TLPs transmitted, newest last, the model's record of what left the ports; reset empty. -/
  sent : List Tlp
deriving DecidableEq, Repr

def ChanSt.reset : ChanSt :=
  { state := .idle, cause := 0, fn := none, stream := 0, alternate := false, descBase := 0, descLog2 := 4, tail := 0,
    head := 0, asked := 0, fetched := [], badFetch := [], last := (0, 0), wr := 0, rel := 0, pegs := 0, pegRel := 0,
    recNext := 0, spaceWaits := 0, badDb := 0, flags := 0, cfg := none, held := none, halting := false, aborting := false, xfer := none, rate := 0, spent := 0,
    owed := [], foldSeq := [], issuing := false }

def Qos.reset : Qos :=
  { weight := 16, cap := 0, credit := 0, deficit := 0, streams := [], chanTurn := (0, false), bucket := 65536 * 65536,
    carried := 0, lastCarried := 0 }

def WindowSt.reset : WindowSt :=
  { kind := 0, write := false, log2 := 0, base := 0, handle := 0, refused := 0, space := 0 }

def MsixEntry.reset : MsixEntry := { addr := 0, data := 0, masked := true, pending := false }

def FnSt.reset : FnSt :=
  { d3 := false, bme := false, mse := false, bar0 := 0, bar2 := 0, mrrs := 2, relaxed := 3, msixOn := false,
    msixMask := false, msix := [], flr := false, windows := [], cleared := [], hpFlags := 0, aer := 0, aerLog := [0, 0, 0, 0] }

def HostSt.reset : HostSt :=
  { state := .down, rate := 0, width := 0, flit := false, flitBoth := false, mps := 0, link := false, perst := true, frzSeq := 0,
    frzCause := 0, frzTime := 0, frzAt := 0, frzExtra := 0, extraLast := none, frzLink := false, lateCpl := 0,
    cplTimeout := 0, unmapped := 0, badAccess := 0, failovers := 0, ready := false, cplValue := 0, vfEnable := false, numVfs := 0, ari := false,
    pfBar2 := 37, vfBar2 := 30, vecLimit := 64, stored := none, subsys := (0x1F6E, 1), pageSize := 1,
    vfBar0 := 0, vfBar2Addr := 0, qU := [], uWait := [], qP := [], qB := [],
    qM := [], tx := [], txDone := 0, credits := [0, 0, 0], turn := 1, creditAt := 0, qos := [], rrFn := [0, 0],
    overdue := [0, 0, 0, 0], overdueNew := false, reads := [], lateTags := [], nextTag := 0, rrRead := 0,
    discarded := 0 }

def HostsSt.reset : HostsSt :=
  { ports := [], fns := [], wch := [], rch := [], chLatches := [], hpLatches := [], nextBuf := 1, sent := [] }

end Sys2Proof.Machine
end

