-- ==== Sys2Proof/Machine/Types/Mbx.lean ====
section
/-! DEFINITION. State of mailboxes, sessions, keys, tickets and the audit log (R339 to R360, R380, spec files 12 and 13). -/

namespace Sys2Proof.Machine

/-- MBX_STATE.STATE (R342). -/
inductive MbxState | idle | queued | running | committed | done | held
deriving DecidableEq, Repr

/-- The open session of a mailbox (R355, R356). -/
structure Session where
  /-- 32 bits; R355 (12): handle, not 0. -/
  handle : Nat
  /-- 2 bits; R355 (12): role, 1 MAKER, 2 INSTALLER, 3 OPERATOR. -/
  role : Nat
  /-- 6 bits; R355 (12): key slot. -/
  slot : Nat
  /-- R356 (12): instant of the last command with the handle, 2⁻¹⁶ ns since reset release. -/
  used : Nat
deriving DecidableEq, Repr

/-- An outstanding challenge (R355). -/
structure Challenge where
  /-- 32 bits; R355 (12): challenge ID. -/
  id : Nat
  /-- 256 bits; R355 (12): nonce. -/
  nonce : List Byte
  /-- R355 (12): instant of issue, 2⁻¹⁶ ns since reset release. -/
  issued : Nat
deriving DecidableEq, Repr

/-- What a parked command waits on (R344). -/
inductive ParkKind
  /-- a control request of a camera port, by its TAG (R155) -/
  | camera (port tag : Nat)
  /-- the 16 pulse instants of PORT.CALIBRATE (R167) -/
  | calibrate (port : Nat)
  /-- a PMBus check of POWER.SET_VF_MODE (R35) -/
  | pmbus
  /-- another device to which the command was relayed (R350) -/
  | relay (target : Nat)
deriving DecidableEq, Repr

/-- A parked command (R344). -/
structure Parked where
  /-- R344 (12): what it waits on. -/
  on : ParkKind
  /-- R344 (12): the answer once it has arrived: a status of the party and its data; none while it is awaited. -/
  answer : Option (Nat × List Byte)
  /-- R343 (12): a CANCEL has been relayed. -/
  cancelSent : Bool
deriving DecidableEq, Repr

/-- One mailbox: header, registers and areas (R339 to R342). -/
structure Mailbox where
  /-- 16 bits; R340 (12): OPCODE; reset 0. -/
  opcode : Nat
  /-- 16 bits; R340 (12): SEQUENCE; reset 0. -/
  seq : Nat
  /-- 32 bits; R340 (12): LENGTH; reset 0. -/
  length : Nat
  /-- 32 bits; R340 (12): SESSION; reset 0. -/
  session : Nat
  /-- 16 bits; R340 (12): TARGET; reset 0x03FF. -/
  target : Nat
  /-- 8 bits; R340 (12): REQ_FLAGS; reset 0. -/
  reqFlags : Nat
  /-- 8 bits; R340 (12): RSP_FLAGS; reset 0. -/
  rspFlags : Nat
  /-- 16 bits; R340 (12): STATUS; reset 0. -/
  status : Nat
  /-- 4,096 bytes; R339 (12): request area; no reset value given, 0 (DESIGN CHOICE, log 3). -/
  req : Mem
  /-- 4,096 bytes; R339, R349 (12): response area; reads 0. -/
  rsp : Mem
  /-- 4 bits; R342 (12): MBX_STATE.STATE; reset IDLE. -/
  state : MbxState
  /-- 16 bits; R342 (12): MBX_STATE.SEQ; reset 0. -/
  stateSeq : Nat
  /-- 16 bits; R342 (12): MBX_CTRL.DEADLINE, ms; reset 1,000. -/
  deadline : Nat
  /-- 8 bits; R342 (12): MBX_CTRL.VECTOR; reset 0. -/
  vector : Nat
  /-- 16 bits; R342 (12): MBX_CNT.IGNORED; reset 0. -/
  ignored : Nat
  /-- 16 bits; R342 (12): MBX_CNT.CANCEL_LATE; reset 0. -/
  cancelLate : Nat
  /-- R343, R344 (12): when the doorbell was taken, which orders it, 2⁻¹⁶ ns since reset release; reset 0. -/
  order : Nat
  /-- R343 (12): the doorbell instant, T64; reset 0. -/
  doorbell : Nat
  /-- R346 (12): instant of the deadline, 2⁻¹⁶ ns since reset release; reset 0. -/
  deadlineAt : Nat
  /-- R343 (12): a CANCEL or the deadline has come for a command of another device that has not been relayed; reset false. -/
  cancelDue : Bool
  /-- R343 (12): when the last command claimed its commit point, 2⁻¹⁶ ns since reset release, for a CANCEL or a deadline of the
  same instant; none where none has since the doorbell; reset none. -/
  commitAt : Option Nat
  /-- R355 (12): open session (MBX_SESS); reset none. -/
  sess : Option Session
  /-- R355 (12): outstanding challenge; reset none. -/
  chal : Option Challenge
  /-- R356 (12): instants of failed ROLE.OPEN_SESSION within the last 60 s; reset none. -/
  fails : List Nat
  /-- R356 (12): ROLE.GET_CHALLENGE ends BUSY; reset false. -/
  locked : Bool
  /-- R344 (12): the parked command; reset none. -/
  parked : Option Parked
deriving DecidableEq, Repr

/-- What a ticket will do (R347, R380). -/
inductive TicketKind | saveConfig | timeStep | seamSnapshot (number : Nat) | snapshot (number : Nat)
  | fwCommit (image : Nat) | fwActivate (image : Nat)
deriving DecidableEq, Repr

/-- An open ticket (R347). -/
structure Ticket where
  /-- 32 bits; R347 (12): number. -/
  id : Nat
  /-- 16 bits; R347 (12): opcode. -/
  opcode : Nat
  /-- 16 bits; R347 (12): mailbox ID. -/
  mailbox : Nat
  /-- 64 bits; R366 (13): instant, T64, 0 where the ticket has none. -/
  instant : Nat
  /-- R359 (12): session, role and slot for the entry of its end. -/
  session : Nat
  /-- R359 (12): role of the session. -/
  role : Nat
  /-- R359 (12): slot of the session. -/
  slot : Nat
  /-- R380 (13): what it does. -/
  kind : TicketKind
deriving DecidableEq, Repr

/-- A key slot (R354). -/
structure KeySlot where
  /-- R354 (12): 0 BLANK, 1 ACTIVE, 2 REVOKED. -/
  state : Nat
  /-- 32 bytes; R354 (12): the key. -/
  key : List Byte
deriving DecidableEq, Repr

/-- An entry of the audit log (R359). -/
structure AuditEntry where
  /-- 32 bits; R359 (12): ENTRY. -/
  entry : Nat
  /-- 64 bits; R359 (12): TIME. -/
  time : Nat
  /-- 16 bits; R359 (12): OPCODE. -/
  opcode : Nat
  /-- 16 bits; R359 (12): STATUS. -/
  status : Nat
  /-- 8 bits; R359 (12): ROLE, kind in [3:2]. -/
  role : Nat
  /-- 8 bits; R359 (12): SLOT. -/
  slot : Nat
  /-- 16 bits; R359 (12): MAILBOX. -/
  mailbox : Nat
  /-- 32 bits; R359 (12): SESSION. -/
  session : Nat
  /-- 8 bytes; R359 (12): REQ_DIGEST. -/
  digest : List Byte
  /-- 32 bytes; R359 (12): HASH. -/
  hash : List Byte
deriving DecidableEq, Repr

/-- A limit as it stood before a command set it anew: it still bounds the commands whose doorbells came before that command
ended (R357). -/
structure LimitNote where
  /-- R357 (12): which limit, 0 of a lane's transmitter, 1 of a stream's output, 2 the cap of a function and class. -/
  kind : Nat
  /-- R357 (12): the lane, the stream, or function × 4 + class. -/
  key : Nat
  /-- R357 (12): when the setting command ended, 2⁻¹⁶ ns since reset release. -/
  endAt : Nat
  /-- R357 (12): the limit before it. -/
  old : List Nat
deriving DecidableEq, Repr

/-- Mailboxes, sessions, keys, tickets, audit log. -/
structure MbxSt where
  /-- R339 (12): the mailboxes by mailbox ID. -/
  boxes : Tab Mailbox
  /-- R347 (12): open tickets, at most 64; reset none. -/
  tickets : List Ticket
  /-- 32 bits; R347 (12): number of the next ticket; no reset value given, 1 (DESIGN CHOICE, log 6). -/
  nextTicket : Nat
  /-- R354 (12): key slots: 0 to 3 MAKER, 4 to 11 INSTALLER, 12 to 27 OPERATOR; as manufactured BLANK (log 8). -/
  keys : Tab KeySlot
  /-- R513 (19): the lock fuse; as manufactured intact (log 8). -/
  lockedPart : Bool
  /-- R356 (12): idle time of each role, s; reset 900. -/
  idle : Tab Nat
  /-- R358 (12): audit entries still held, by entry number modulo 8,192; kept over reset, empty as manufactured (log 8). -/
  audit : Tab AuditEntry
  /-- 32 bits; R359 (12): number of the next entry; 0 as manufactured. -/
  auditNext : Nat
  /-- 32 bytes; R359 (12): HASH of the newest entry; empty before entry 0. -/
  auditHash : List Byte
  /-- MODEL: the audit memory takes writes (R346: an entry that cannot be written ends the command INTERNAL); whether it does
  is free at each passage of time (log 42); reset true. -/
  auditOk : Bool
  /-- R357 (12): limits as they were, for commands that were waiting when they were set; reset none. -/
  limits : List LimitNote
  /-- R356 (12): instants of failed ROLE.OPEN_SESSION of the device within 60 s; reset none. -/
  devFails : List Nat
  /-- R356 (12): ROLE.GET_CHALLENGE ends BUSY on every mailbox; reset false. -/
  devLocked : Bool
deriving DecidableEq, Repr

def Mailbox.reset : Mailbox :=
  { opcode := 0, seq := 0, length := 0, session := 0, target := 0x3FF, reqFlags := 0, rspFlags := 0, status := 0,
    req := [], rsp := [], state := .idle, stateSeq := 0, deadline := 1000, vector := 0, ignored := 0, cancelLate := 0,
    order := 0, doorbell := 0, deadlineAt := 0, cancelDue := false, commitAt := none, sess := none, chal := none, fails := [], locked := false,
    parked := none }

def MbxSt.reset : MbxSt :=
  { boxes := [], tickets := [], nextTicket := 1, keys := [], lockedPart := false, idle := [],
    audit := [], auditNext := 0, auditHash := [], auditOk := true, limits := [], devFails := [], devLocked := false }

end Sys2Proof.Machine
end

