-- ==== Sys2Proof/Machine/Types/Mt.lean ====
section
/-! DEFINITION. State of the two-wire target MT and the controllers MC0 to MC3 (R481 to R496, spec file 18). -/

namespace Sys2Proof.Machine

/-- A two-wire controller (R493 to R495). -/
structure McSt where
  /-- R495 (18): the bus is STUCK; reset false. -/
  stuck : Bool
  /-- R493 (18): select output; reset 0. -/
  sel : Nat
  /-- R496 (18): a transaction was abandoned and is to be repeated after a bus clear; reset false. -/
  abandoned : Bool
  /-- R495 (18): bus clears run; reset 0. -/
  clears : Nat
deriving DecidableEq, Repr

/-- A module site (R493). -/
structure ModuleSt where
  /-- R493 (18): a module answers; reset absent. -/
  present : Bool
  /-- R493 (18): it has been brought to its ready state; reset false. -/
  ready : Bool
  /-- R498 (19): CMIS flag bytes last read; reset 0. -/
  flags : Nat
deriving DecidableEq, Repr

/-- The target MT, the controllers and the modules. -/
structure MtSt where
  /-- 1 bit; R484 (18): MT_CFG.STYLE; reset strap MT_STYLE. -/
  style : Bool
  /-- 1 bit; R484 (18): MT_CFG.PEC_REQ; reset 0. -/
  pecReq : Bool
  /-- 8 bits; R484 (18): ALERT_SRC; reset 0. -/
  src : Nat
  /-- 8 bits; R484 (18): ALERT_MASK; reset 0xFF. -/
  mask : Nat
  /-- 4 bits; R484 (18): ALERT_CUR; reset 0xF. -/
  cur : Nat
  /-- 8 bits; R491 (18): bits that are set, unmasked and reported; reset 0. -/
  reported : Nat
  /-- 13 bits; R484 (18): WIN_BASE; reset 0. -/
  winBase : Nat
  /-- 8 bits; R487 (18): pointer; reset 0. -/
  pointer : Nat
  /-- 8 bits; R484 (18): MT_ERR_PEC; reset 0. -/
  errPec : Nat
  /-- 8 bits; R484 (18): MT_ERR_ACCESS; reset 0. -/
  errAccess : Nat
  /-- 8 bits; R484 (18): MT_TIMEOUTS; reset 0. -/
  timeouts : Nat
  /-- R493 (18): controllers MC0 to MC3. -/
  mcs : Tab McSt
  /-- R493 (18): module sites 0 to 15. -/
  modules : Tab ModuleSt
deriving DecidableEq, Repr

def McSt.reset : McSt := { stuck := false, sel := 0, abandoned := false, clears := 0 }

def ModuleSt.reset : ModuleSt := { present := false, ready := false, flags := 0 }

def MtSt.reset : MtSt :=
  { style := false, pecReq := false, src := 0, mask := 0xFF, cur := 0xF, reported := 0, winBase := 0, pointer := 0,
    errPec := 0, errAccess := 0, timeouts := 0, mcs := [], modules := [] }

end Sys2Proof.Machine
end

