-- ==== Sys2Proof/Machine/Types/Panel.lean ====
section
/-! DEFINITION. State of the panel port (R418 to R431, spec file 15). -/

namespace Sys2Proof.Machine

/-- Panel states of R420. -/
inductive PanelState | off | noSink | training | running | changing
deriving DecidableEq, Repr

/-- One finished image of a tile (R423): its pixels as R + 2¹⁶ G + 2³² B at the panel's depth, line by line. -/
structure TileImg where
  /-- R427 (15): SEQUENCE. -/
  seq : Nat
  /-- R426 (15): EOF_T64. -/
  eofT : Nat
  /-- R422 (15): w × h pixels. -/
  pixels : List Nat
deriving DecidableEq, Repr

/-- An overlay buffer (R424); its words lie in the device memory. -/
structure OverlaySt where
  /-- R376 (13): handle. -/
  handle : Nat
  /-- R376 (13): w. -/
  w : Nat
  /-- R376 (13): h. -/
  h : Nat
  /-- R424 (15): the bytes being shown; beyond the list 0. -/
  shown : List Byte
  /-- R424 (15): the bytes with the transfers that are DONE, shown from the next frame start; beyond the list 0. -/
  ready : List Byte
deriving DecidableEq, Repr

/-- One tile. -/
structure TileSt where
  /-- R421 (15): enabled; reset not. -/
  enabled : Bool
  /-- R421 (15): stream; reset 0. -/
  stream : Nat
  /-- R421 (15): x; reset 0. -/
  x : Nat
  /-- R421 (15): y; reset 0. -/
  y : Nat
  /-- R421 (15): w; reset 0. -/
  w : Nat
  /-- R421 (15): h; reset 0. -/
  h : Nat
  /-- R421 (15): geometry that takes effect at the next panel frame start: enable, stream, x, y, w, h; reset none. -/
  next : Option (Bool × Nat × Nat × Nat × Nat × Nat)
  /-- R423 (15): the buffer shown in RUNNING; reset none. -/
  shown : Option TileImg
  /-- R423 (15): the newest complete buffer; reset none. -/
  newest : Option TileImg
  /-- R424 (15): overlay; reset none. -/
  overlay : Option OverlaySt
  /-- R426 (15): age as last evaluated, ms; reset 0. -/
  age : Nat
  /-- R426 (15): STALE by age or for want of an image; reset true (no image since it was enabled). -/
  staleAge : Bool
  /-- R428 (15): STALE with cause CRC; reset false. -/
  staleCrc : Bool
  /-- R429 (15): STALE with cause TIMING; reset false. -/
  staleTiming : Bool
  /-- R428 (15): a band of it has mismatched in the present panel frame; reset false. -/
  crcBad : Bool
  /-- 32 bits; R428 (15): crc_fail; reset 0. -/
  crcFail : Nat
deriving DecidableEq, Repr

/-- A panel mode (R419). -/
structure PanelMode where
  /-- 16 bits; R376 (13): width. -/
  width : Nat
  /-- 16 bits; R376 (13): height. -/
  height : Nat
  /-- 32 bits; R376 (13): refresh, mHz. -/
  refresh : Nat
  /-- 8 bits; R376 (13): bits per component. -/
  bpc : Nat
deriving DecidableEq, Repr

/-- The panel port. -/
structure PanelSt where
  /-- R420 (15): state; reset OFF. -/
  state : PanelState
  /-- R419 (15): mode set; reset none. -/
  mode : Option PanelMode
  /-- R430 (15): the mode that the change in progress leads to; reset none. -/
  pending : Option PanelMode
  /-- R418 (15): HPD is high; reset low (DESIGN CHOICE, log 7). -/
  hpd : Bool
  /-- R418 (15): trained link rate, 10 Mbit/s; reset 0. -/
  linkRate : Nat
  /-- R418 (15): trained lanes; reset 0. -/
  lanes : Nat
  /-- R430 (15): the link is trained and sending resumes at the next frame start; reset false. -/
  ready : Bool
  /-- R421 (15): tiles 0 to 15; reset disabled. -/
  tiles : Tab TileSt
  /-- R376 (13): forbid_mode_change; reset 0. -/
  forbid : Bool
  /-- R423 (15): panel frames started, for the preview levels of R476; reset 0. -/
  frame : Nat
  /-- R429 (15): a band of the present panel frame was late; reset false. -/
  lateBand : Bool
  /-- R431 (15): every band of the present panel frame so far has matched; reset true. -/
  frameGood : Bool
  /-- R431 (15): a whole good panel frame has passed in RUNNING since the last gap; reset false. -/
  wholeGood : Bool
  /-- R429 (15): bands of the present panel frame compared; reset 0. -/
  bandsDone : Nat
  /-- R424 (15): next overlay handle; reset 1 (DESIGN CHOICE, log 6). -/
  nextHandle : Nat
deriving DecidableEq, Repr

def TileSt.reset : TileSt :=
  { enabled := false, stream := 0, x := 0, y := 0, w := 0, h := 0, next := none, shown := none, newest := none,
    overlay := none, age := 0, staleAge := true, staleCrc := false, staleTiming := false, crcBad := false,
    crcFail := 0 }

/-- What SET_TILE last asked of a tile (R421): enable, stream, x, y, w, h. -/
def TileSt.want (t : TileSt) : Bool × Nat × Nat × Nat × Nat × Nat := t.next.getD (t.enabled, t.stream, t.x, t.y, t.w, t.h)

def PanelSt.reset : PanelSt :=
  { state := .off, mode := none, pending := none, hpd := false, linkRate := 0, lanes := 0, ready := false, tiles := [],
    forbid := false, frame := 0, lateBand := false, frameGood := true, wholeGood := false, bandsDone := 0,
    nextHandle := 1 }

end Sys2Proof.Machine
end

