-- ==== Sys2Proof/Machine/Types/Pos.lean ====
section
/-! DEFINITION. State of the position interface: encoder channels and divider pairs (R70 to R101, spec file 03). -/

namespace Sys2Proof.Machine

/-- The mode of an encoder channel, numbered as POS.SET_CHANNEL lists them (R71, R362). -/
inductive EncMode | off | quadX1 | quadX2 | quadX4 | pulseDir | upDown | hall | bissC | ssi
deriving DecidableEq, Repr

/-- A published speed (R94): counts over a span of 2⁻¹⁶ ns. -/
inductive Speed
  | invalid
  | stopped
  | valid (counts : Int) (span : Nat)
deriving DecidableEq, Repr

/-- One encoder channel. -/
structure EncChan where
  /-- R71 (03): mode; reset OFF. -/
  mode : EncMode
  /-- 8 bits; R71 (03): filter N; reset 4. -/
  filterN : Nat
  /-- 3 bits; R71 (03): termination of A, B, Z; reset all OFF. -/
  term : Nat
  /-- 16 bits; R71 (03): WB_TIME, units of 20 ns; reset 50. -/
  wbTime : Nat
  /-- 3 bits; R71 (03): pairs A, B, Z under MONITOR; reset A and B. -/
  wbMask : Nat
  /-- 8 bits; R71 (03): QERR_LIMIT; reset 0. -/
  qerrLimit : Nat
  /-- 1 bit; R71 (03): direction INVERT; reset NORMAL. -/
  invert : Bool
  /-- R71 (03): index action, 0 NONE, 1 LATCH, 2 HOME_ONCE; reset 0. -/
  indexAction : Nat
  /-- R71 (03): index qualifier, 0 NONE, 1 AB_HIGH; reset 0. -/
  qualifier : Nat
  /-- 48 bits; R71 (03): home value, signed; reset 0. -/
  home : Int
  /-- R93 (03): log2 of K_min; reset 0. -/
  kminLog2 : Nat
  /-- R93 (03): log2 of K_max; reset 10. -/
  kmaxLog2 : Nat
  /-- R93 (03): auto range; reset ON. -/
  auto : Bool
  /-- R93 (03): t_target, ns; reset 64,000. -/
  targetNs : Nat
  /-- R93 (03): t_stop, µs; reset 10,000. -/
  stopUs : Nat
  /-- R85 (03): serial clock, units of 100 kHz; reset 10. -/
  serRate : Nat
  /-- R85 (03): position bits P; reset 24. -/
  serBits : Nat
  /-- R85 (03): SSI code, 0 BINARY, 1 GRAY; reset GRAY. -/
  serCode : Nat
  /-- R85 (03): SSI parity, 0 NONE, 1 EVEN, 2 ODD; reset NONE. -/
  serParity : Nat
  /-- R85 (03): period, ns; reset 50,000. -/
  serPeriod : Nat
  /-- R85 (03): pause, ns; reset 20,000. -/
  serPause : Nat
  /-- R85 (03): sample delay, ns; reset 0. -/
  serDelay : Nat
  /-- R85 (03): start timeout, ns; reset 20,000. -/
  serStart : Nat
  /-- R85 (03): jump limit J; reset 65,536. -/
  serJump : Nat
  /-- 48 bits; R89 (03): raw count, signed; reset 0. -/
  raw : Int
  /-- 48 bits; R92 (03): compare position x_c, signed; reset 0. -/
  xc : Int
  /-- 1 bit; R92 (03): DIR, true for REVERSE; reset FORWARD. -/
  reverse : Bool
  /-- R92 (03): edge time of the last change of x_c, 2⁻¹⁶ ns of the timebase; reset 0. -/
  edge : Nat
  /-- 1,024 times; R94 (03): the ring of edge times, newest first; reset empty. -/
  ring : List Nat
  /-- R94 (03): DIR at the previous change of x_c; reset FORWARD. -/
  prevReverse : Bool
  /-- R93 (03): log2 of the current K (POS_SPEED_HI.RANGE); reset 0. -/
  kLog2 : Nat
  /-- R94 (03): v as last measured; reset STOPPED. -/
  measured : Speed
  /-- R94 (03): the published speed; reset STOPPED. -/
  speed : Speed
  /-- 1 bit; R75 (03): FAULT; reset 0. -/
  fault : Bool
  /-- 3 bits; R74 (03): pair conditions now set, A, B, Z; reset 0. -/
  wbNow : Nat
  /-- 6 bits; R100 (03): sticky WB, QERR, HALL_ILLEGAL, SERR, DIV_OVERRUN, WRAP; reset 0. -/
  sticky : Nat
  /-- 16 bits; R100 (03): QERR_COUNT; reset 0. -/
  qerrCount : Nat
  /-- 16 bits; R100 (03): SERR_COUNT; reset 0. -/
  serrCount : Nat
  /-- 48 bits; R90 (03): POS_Z_CNT; reset 0. -/
  zCnt : Int
  /-- 64 bits; R90 (03): POS_Z_TIME, T64; reset 0. -/
  zTime : Nat
  /-- 2 bits; R79 (03): the filtered state of A ([1]) and B ([0]) last seen; reset 0 (DESIGN CHOICE, log 7). -/
  ab : Nat
  /-- 3 bits; R84 (03): reference state UVW; reset 0b100 (DESIGN CHOICE, log 7). -/
  hallRef : Nat
  /-- 3 bits; R84 (03): the filtered UVW (A, B, Z) last seen; reset 0 (DESIGN CHOICE, log 7). -/
  hallNow : Nat
  /-- R88 (03): the previous good reading; none before the first. -/
  serPrev : Option Nat
  /-- R87 (03): consecutive failed readings; reset 0. -/
  serFails : Nat
deriving DecidableEq, Repr

/-- One divider pair (R97 to R99). -/
structure Divider where
  /-- R97 (03): source channel; none until POS.SET_DIVIDER names one. -/
  source : Option Nat
  /-- R97 (03): minimum edge gap, units of 2.5 ns; reset 16 (40 ns). -/
  gap : Nat
  /-- 24 bits; R97 (03): numerator M; no reset value given, 1 (DESIGN CHOICE, log 7). -/
  m : Nat
  /-- 24 bits; R97 (03): denominator N; no reset value given, 1 (DESIGN CHOICE, log 7). -/
  n : Nat
  /-- 24 bits; R98 (03): accumulator; reset 0. -/
  acc : Nat
  /-- 17 bits; R98 (03): backlog, signed; reset 0. -/
  backlog : Int
  /-- R97 (03): output counts emitted so far, modulo 4 the quadrature phase of the DO pair; reset 0. -/
  emitted : Int
deriving DecidableEq, Repr

/-- The position interface. -/
structure PosSt where
  /-- R71 (03): channels E0 to E7. -/
  chans : Tab EncChan
  /-- R97 (03): divider pairs D0 to D3. -/
  divs : Tab Divider
  /-- R101 (03): each view's latch of each channel's block, by view × 8 + channel; 16 words, reset 0. -/
  latches : Tab (List Nat)
deriving DecidableEq, Repr

def EncChan.reset : EncChan :=
  { mode := .off, filterN := 4, term := 0, wbTime := 50, wbMask := 3, qerrLimit := 0, invert := false,
    indexAction := 0, qualifier := 0, home := 0, kminLog2 := 0, kmaxLog2 := 10, auto := true, targetNs := 64000,
    stopUs := 10000, serRate := 10, serBits := 24, serCode := 1, serParity := 0, serPeriod := 50000,
    serPause := 20000, serDelay := 0, serStart := 20000, serJump := 65536, raw := 0, xc := 0, reverse := false,
    edge := 0, ring := [], prevReverse := false, kLog2 := 0, measured := .stopped, speed := .stopped, fault := false,
    wbNow := 0, sticky := 0, qerrCount := 0, serrCount := 0, zCnt := 0, zTime := 0, ab := 0, hallRef := 4,
    hallNow := 0, serPrev := none, serFails := 0 }

def Divider.reset : Divider := { source := none, gap := 16, m := 1, n := 1, acc := 0, backlog := 0, emitted := 0 }

def PosSt.reset : PosSt := { chans := [], divs := [], latches := [] }

end Sys2Proof.Machine
end

