-- ==== Sys2Proof/Machine/Types/Power.lean ====
section
/-! DEFINITION. State of power, start-up, reset, voltage following, thermal behaviour and the rate meters (R20 to R37,
spec file 01; R454 to R480, spec file 17). -/

namespace Sys2Proof.Machine

/-- Start-up stages (R461). -/
inductive Stage | s0 | s1 | s2 | s3 | s4
deriving DecidableEq, Repr

/-- The straps as latched (R459). -/
structure Straps where
  /-- R459 (17): VSAFE_EN; reset 0 (DESIGN CHOICE, log 7). -/
  vsafe : Bool
  /-- 2 bits; R459 (17): MT_A1, MT_A0; reset 0 (DESIGN CHOICE, log 7). -/
  mtAddr : Nat
  /-- R459 (17): MT_STYLE; reset 0 (DESIGN CHOICE, log 7). -/
  style : Bool
  /-- R459 (17): SSC_EN; reset 0 (DESIGN CHOICE, log 7). -/
  ssc : Bool
  /-- R459 (17): BOOT_B; reset 0 (DESIGN CHOICE, log 7). -/
  bootB : Bool
deriving DecidableEq, Repr

/-- A start event (R466). -/
inductive StartKind | domain | pipeHalf | pipeFull | quad | stack | host
deriving DecidableEq, Repr

/-- A start event that waits for the pacer or ramps (R466). -/
structure StartEvent where
  /-- R466 (17): kind. -/
  kind : StartKind
  /-- R466 (17): instance. -/
  inst : Nat
deriving DecidableEq, Repr

/-- A rate meter (R29, R30). -/
structure MeterSt where
  /-- R29 (01): units carried in the open window (bytes, handshakes or slots); reset 0. -/
  now : Nat
  /-- R30 (01): data waited in the open window; reset false. -/
  waited : Bool
  /-- 8 bits; R29 (01): flags of the last window; reset 0. -/
  flags : Nat
  /-- R29 (01): capacity at the close; reset 0. -/
  capacity : Nat
  /-- R29 (01): admitted at the close; reset 0. -/
  admitted : Nat
  /-- R29 (01): carried over the last window; reset 0. -/
  carried : Nat
  /-- R29 (01): carried values of the last 1,000 windows, newest first; reset none. -/
  history : List Nat
  /-- R29 (01): pace; reset 0. -/
  pace : Nat
deriving DecidableEq, Repr

/-- Power, reset, voltage following, thermal behaviour, meters. -/
structure PowerSt where
  /-- R461 (17): stage; S1 at reset release. -/
  stage : Stage
  /-- R463 (17): neither image verified; reset false. -/
  recovery : Bool
  /-- R457 (17): RESET# is low or the device holds itself in reset; reset false (released). -/
  held : Bool
  /-- R457 (17): RESET# is low; reset false (released). -/
  resetLow : Bool
  /-- R456 (17): PWR_EN; reset high (R456). -/
  pwrEn : Bool
  /-- R480 (17): THERMTRIP# is asserted; reset false. -/
  trip : Bool
  /-- R480 (17): boot ROM waits for the logic sensors to fall; reset false. -/
  tripWait : Bool
  /-- R468 (17): POWER.ENTER_STANDBY has committed and standby follows; reset false. -/
  standby : Bool
  /-- R470 (17): PWR_EN is in its least low time of 110 ms; reset false. -/
  lowHold : Bool
  /-- R469 (17): a wake latched, 1 WAKE#, 2 MT; reset none. -/
  wake : Option Nat
  /-- R460 (17): what the next reset release will have as its cause; reset 0x02 RESET_PIN (the pin alone remains). -/
  nextCause : Nat
  /-- R460 (17): reset cause; reset 0x01 POWER_ON. -/
  cause : Nat
  /-- R460 (17): wake source; reset 0. -/
  wakeSource : Nat
  /-- R460 (17): event rings that already hold the RESET_CAUSE record; reset none. -/
  causeGiven : List Nat
  /-- R459 (17): straps. -/
  straps : Straps
  /-- R33 (01): VCORE_SAFE# is asserted; reset false. -/
  vcoreSafe : Bool
  /-- R35 (01): mode FIXED; reset false. -/
  fixed : Bool
  /-- R377 (13): cause of the last entry into FIXED; reset 0. -/
  vfCause : Nat
  /-- R34 (01): setpoint, mV; reset 750 (R32). -/
  setpoint : Nat
  /-- R37 (01): last READ_VOUT, mV; reset 750 (R32). -/
  vout : Nat
  /-- R37 (01): margin M, 0.001; reset 0 (no evaluation yet). -/
  margin : Nat
  /-- R34 (01): consecutive evaluations with M ≥ 1.08; reset 0. -/
  wide : Nat
  /-- R34 (01): the regulator has not yet reported the new value of a raise; reset false. -/
  settling : Bool
  /-- R34 (01): setpoint before the last raise, mV; reset 750 (R32). -/
  raisedFrom : Nat
  /-- R37 (01): raises; reset 0. -/
  raises : Nat
  /-- R37 (01): lowers; reset 0. -/
  lowers : Nat
  /-- R35 (01): consecutive failed PMBus transactions; reset 0. -/
  pmbusFails : Nat
  /-- R35 (01): consecutive READ_VOUT readings out of 15 mV; reset 0. -/
  voutFails : Nat
  /-- R472 (17): core hold; reset false. -/
  coreHold : Bool
  /-- 36 readings; R474 (17): sensors 0 to 31 and stacks 32 to 35, 0.1 °C, as used after exclusion; reset 250 (DESIGN CHOICE, log 7). -/
  temps : List Int
  /-- R474 (17): sensors excluded; reset none. -/
  excluded : List Nat
  /-- R478 (17): mean rise of tj_logic over the last 1 s, 0.1 °C per s; reset 0. -/
  rise : Int
  /-- R478 (17): tj_logic of the last 1,000 readings, newest first; reset none. -/
  tjPast : List Int
  /-- R475 (17): highest active step, 0 to 3; reset 0. -/
  step : Nat
  /-- R475 (17): STATUS_WORD reports IOUT_OC_WARN; reset false. -/
  ocWarn : Bool
  /-- R475 (17): since when every reading has stayed below the exit of the highest step, 2⁻¹⁶ ns; reset none. -/
  coolSince : Option Nat
  /-- R476 (17): PREVIEW level, 0 to 2; reset 0. -/
  preview : Nat
  /-- R476 (17): throttle level by priority; reset 0. -/
  throttle : Tab Nat
  /-- R479 (17): a stack is hot and FS_BW is 3,780,000 MB/s; reset false. -/
  fsHot : Bool
  /-- R461 (17): stacks, 0 not ready, 1 half rate, 2 full rate; reset 0. -/
  fsStacks : Tab Nat
  /-- R466 (17): start events that wait for a grant, oldest first; reset none. -/
  pacer : List StartEvent
  /-- R466 (17): ramps in progress: slope in A/µs and end, 2⁻¹⁶ ns since reset release; reset none. -/
  ramps : List (Nat × Nat)
  /-- R182 (06): pipes, 0 off, 1 half rate, 2 full rate; reset 0. -/
  pipes : Tab Nat
  /-- R29 (01): meters by resource × 65,536 + instance; reset 0. -/
  meters : Tab MeterSt
  /-- R29 (01): T64 of the last window's close; reset 0. -/
  windowEnd : Nat
deriving DecidableEq, Repr

def Straps.reset : Straps := { vsafe := false, mtAddr := 0, style := false, ssc := false, bootB := false }

def MeterSt.reset : MeterSt :=
  { now := 0, waited := false, flags := 0, capacity := 0, admitted := 0, carried := 0, history := [],
    pace := 0 }

/-- A power-on just released from reset: stage S1, cause POWER_ON (R460, R461). -/
def PowerSt.reset : PowerSt :=
  { stage := .s1, recovery := false, held := false, resetLow := false, pwrEn := true, trip := false, tripWait := false,
    standby := false, lowHold := false, wake := none, nextCause := 2, cause := 1, wakeSource := 0, causeGiven := [],
    straps := Straps.reset, vcoreSafe := false, fixed := false, vfCause := 0, setpoint := 750, vout := 750,
    margin := 0, wide := 0, settling := false, raisedFrom := 750, raises := 0, lowers := 0, pmbusFails := 0, voutFails := 0,
    coreHold := false, temps := List.replicate 36 250, excluded := [], rise := 0, tjPast := [], step := 0,
    ocWarn := false, coolSince := none, preview := 0, throttle := [], fsHot := false, fsStacks := [], pacer := [],
    ramps := [], pipes := [], meters := [], windowEnd := 0 }

end Sys2Proof.Machine
end

