-- ==== Sys2Proof/Machine/Types/Seam.lean ====
section
/-! DEFINITION. State of the Seam fabric (R384 to R416, spec file 14). -/

namespace Sys2Proof.Machine

/-- Link states of R384. -/
inductive LinkState | off | training | up | degraded | failed | wiring
deriving DecidableEq, Repr

/-- A flit without the fields that belong to one link (R388). -/
structure Flit where
  /-- 8 bits; R389 (14): KIND. -/
  kind : Nat
  /-- 2 bits; R388 (14): CLASS, 0 U, 1 P, 2 B, 3 M. -/
  cls : Nat
  /-- 10 bits; R388 (14): SRC. -/
  src : Nat
  /-- 10 bits; R388 (14): DEST. -/
  dest : Nat
  /-- 6 bits; R388 (14): HOPS. -/
  hops : Nat
  /-- 9 bits; R388 (14): STREAM. -/
  stream : Nat
  /-- 32 bits; R394 (14): ESN. -/
  esn : Nat
  /-- R401 (14): ALT. -/
  alt : Bool
  /-- R388 (14): NBLK payload blocks of 32 bytes. -/
  payload : List Byte
  /-- R333 (11): of a flit that has come to its destination, the link it came in on; 0xFF for none. -/
  via : Nat := 0xFF
deriving DecidableEq, Repr

/-- A flit in a replay buffer (R391). -/
structure SentFlit where
  /-- 32 bits; R391 (14): FSN. -/
  fsn : Nat
  /-- the flit -/
  flit : Flit
  /-- R391 (14): replays of this FSN without an advance of ACK. -/
  replays : Nat
deriving DecidableEq, Repr

/-- A flit that waits to leave (R393). -/
structure QFlit where
  /-- R393 (14): link it came in on; none for a flit of this device. -/
  inLink : Option Nat
  /-- R389 (14): link of a link-local or flooded flit; none for a routed one. -/
  out : Option Nat
  /-- the flit -/
  flit : Flit
deriving DecidableEq, Repr

/-- One Seam link. -/
structure LinkSt where
  /-- R385 (14): quad; a link number that no link holds is not listed. -/
  quad : Nat
  /-- R385 (14): first lane. -/
  first : Nat
  /-- R384 (14): width in lanes. -/
  width : Nat
  /-- R384 (14): state; OFF until its lanes leave L2. -/
  state : LinkState
  /-- R384 (14): HELLO sent; reset false. -/
  helloSent : Bool
  /-- R384 (14): an intact HELLO has arrived; reset false. -/
  helloGot : Bool
  /-- 64 bits; R384 (14): peer serial; reset 0. -/
  peerSerial : Nat
  /-- R384 (14): peer Seam ID, 0xFFFF for none; reset 0xFFFF. -/
  peerId : Nat
  /-- R384 (14): peer link number; reset 0. -/
  peerLink : Nat
  /-- 32 bits; R391 (14): FSN of the next new flit; reset 0. -/
  txFsn : Nat
  /-- 32 bits; R391 (14): FSN expected next; reset 0. -/
  rxFsn : Nat
  /-- R391 (14): every flit is discarded until the expected FSN arrives with REPLAY; reset false. -/
  nakSent : Bool
  /-- R391 (14): LINK blocks with NAK sent; reset 0. -/
  naks : Nat
  /-- R391 (14): the replay buffer, oldest first; reset empty. -/
  replay : List SentFlit
  /-- 32 bits; R390 (14): the check of the flit last sent on the link, which CRC_PREV of its next block carries; reset 0. -/
  crcPrev : Nat
  /-- R392 (14): credit held for the peer's class buffers U, P, B, M, in blocks; reset 0. -/
  credit : List Nat
  /-- R392 (14): blocks whose credit is still to be returned, by class; reset 0. -/
  owed : List Nat
  /-- R386 (14): lanes active for sending, as a mask of the link's lanes; reset 0. -/
  active : Nat
  /-- R386 (14): receive lanes that are UP, as a mask; reset 0. -/
  rxUp : Nat
  /-- 32 bits; R372 (13): replays; reset 0. -/
  replays : Nat
  /-- 32 bits; R372 (13): reroutes; reset 0. -/
  reroutes : Nat
  /-- 8 bits; R404 (14): the peer's HOPS_TO_ROOT; reset 0xFF. -/
  peerHops : Nat
  /-- R404 (14): the peer's TSTATE is LOCKED; reset false. -/
  peerLocked : Bool
deriving DecidableEq, Repr

/-- One routing table entry (R399). -/
structure RouteSt where
  /-- 1 bit; R399 (14): VALID. -/
  valid : Bool
  /-- 1 bit; R399 (14): USING_ALT. -/
  usingAlt : Bool
  /-- 6 bits; R399 (14): HOPS. -/
  hops : Nat
  /-- 8 bits; R399 (14): ALT, 0xFF for none. -/
  alt : Nat
  /-- 8 bits; R399 (14): PRIMARY. -/
  primary : Nat
deriving DecidableEq, Repr

/-- A link as a PROBE lists it (R395). -/
structure ProbeLink where
  /-- link number -/
  link : Nat
  /-- width -/
  width : Nat
  /-- peer serial -/
  peer : Nat
  /-- peer link number -/
  peerLink : Nat
deriving DecidableEq, Repr

/-- A stored PROBE (R395). -/
structure ProbeSt where
  /-- 64 bits; R395 (14): serial. -/
  serial : Nat
  /-- 32 bits; R395 (14): PSEQ. -/
  pseq : Nat
  /-- 16 bits; R395 (14): Seam ID, 0xFFFF for none. -/
  seamId : Nat
  /-- R395 (14): FIXED. -/
  fixed : Bool
  /-- R395 (14): CONFLICT. -/
  conflict : Bool
  /-- R395 (14): UP links. -/
  links : List ProbeLink
  /-- R395 (14): last heard, 2⁻¹⁶ ns since reset release. -/
  heard : Nat
deriving DecidableEq, Repr

/-- A device of the topology (R398). -/
structure TopoSt where
  /-- R398 (14): serial. -/
  serial : Nat
  /-- R398 (14): Seam ID, 0xFFFF for none. -/
  seamId : Nat
  /-- R372 (13): hops from this device. -/
  hops : Nat
  /-- R372 (13): UP links. -/
  links : Nat
  /-- R398 (14): state 0 to 4. -/
  state : Nat
deriving DecidableEq, Repr

/-- A part of an assignment (R397). -/
structure AssignPart where
  /-- R397 (14): part number. -/
  part : Nat
  /-- R397 (14): entries: serial and Seam ID. -/
  entries : List (Nat × Nat)
deriving DecidableEq, Repr

/-- The receive order of one source and class (R394). -/
structure EsnRx where
  /-- 32 bits; R394 (14): ESN expected next; reset 0. -/
  expect : Nat
  /-- R394 (14): flits that wait for an earlier one, by ESN. -/
  waiting : List Flit
deriving DecidableEq, Repr

/-- A position sample of a peer's channel (R411). -/
structure SampleSt where
  /-- R411 (14): SPD_STATE. -/
  speedState : Nat
  /-- R411 (14): DIR. -/
  reverse : Bool
  /-- R411 (14): x_c. -/
  x : Int
  /-- R411 (14): t_v, T64. -/
  t : Nat
  /-- R411 (14): v, 2⁻¹⁶ counts/s. -/
  v : Int
  /-- R411 (14): arrival, T64. -/
  at_ : Nat
  /-- R411 (14): no sample for 100 µs: INVALID. -/
  stale : Bool
deriving DecidableEq, Repr

/-- A LATCH request sent (R412) and not answered. -/
structure LatchWait where
  /-- R412 (14): unit. -/
  unit : Nat
  /-- R412 (14): instant, T64. -/
  instant : Nat
  /-- R411 (14): peer and channel n. -/
  peer : Nat
  /-- R411 (14): channel. -/
  chan : Nat
  /-- R58, R412 (02, 14): the camera port whose LOST peg waits for the position; none for a fire instant that was sent. -/
  lost : Option Nat
deriving DecidableEq, Repr

/-- A mirrored channel: this device sends its samples to a peer's unit (R411). -/
structure MirrorSt where
  /-- R411 (14): peer. -/
  peer : Nat
  /-- R411 (14): unit of the peer. -/
  unit : Nat
  /-- R411 (14): channel n of this device. -/
  chan : Nat
  /-- R411 (14): the compare position last sent; none before the first sample. -/
  sentX : Option Int
deriving DecidableEq, Repr

/-- A frame that a landing stream is receiving (R407, R409). -/
structure LandSt where
  /-- R407 (14): source device; none until the first frame flit after STREAM.START. -/
  source : Option Nat
  /-- R409 (14): payload received of the frame in progress and not yet given to it. -/
  data : List Byte
  /-- R409 (14): a frame is in progress. -/
  open_ : Bool
  /-- R251 (08): the frame in progress has no storage and is dropped. -/
  dropped : Bool
  /-- R409 (14): SEQUENCE expected of the next template; none before the first. -/
  next : Option Nat
deriving DecidableEq, Repr

/-- A reservation that another device's stream holds on a link of this one (R403). -/
structure HopResv where
  /-- R403 (14): source device. -/
  source : Nat
  /-- R403 (14): stream number. -/
  stream : Nat
  /-- R403 (14): destination. -/
  dest : Nat
  /-- R403 (14): link. -/
  link : Nat
  /-- R23 (01): demand, MB/s. -/
  demand : Nat
deriving DecidableEq, Repr

/-- A relayed command of this device (R413). -/
structure RelaySt where
  /-- R413 (14): mailbox that waits. -/
  mailbox : Nat
  /-- R413 (14): target Seam ID. -/
  target : Nat
  /-- R413 (14): MBX_REQ has been sent. -/
  sent : Bool
  /-- R350 (12): header and request as they stood. -/
  bytes : List Byte
  /-- R350 (12): the local command has ended without an answer; a later answer is MBX_LATE_RESULT. -/
  late : Bool
deriving DecidableEq, Repr

/-- The Seam fabric as this device holds it. -/
structure SeamSt where
  /-- R385 (14): links by number; reset none. -/
  links : Tab LinkSt
  /-- R397 (14): own Seam ID; reset none. -/
  id : Option Nat
  /-- R372 (13): SEAM.SET_ID mode and ID for the next join: none for mode 0; reset none. -/
  fixedNext : Option Nat
  /-- R397 (14): the fixed ID in force since the device joined; reset none. -/
  fixed : Option Nat
  /-- R398 (14): the fixed ID is held by another device; reset false. -/
  conflict : Bool
  /-- 32 bits; R395 (14): PSEQ of the next PROBE; reset 0. -/
  pseq : Nat
  /-- R395 (14): stored PROBEs; reset none. -/
  probes : List ProbeSt
  /-- R398 (14): the topology as of the last convergence; reset none. -/
  topo : List TopoSt
  /-- R396 (14): serial of the root; reset none. -/
  root : Option Nat
  /-- 32 bits; R397 (14): assignment epoch last flooded or applied; reset 0. -/
  epoch : Nat
  /-- R397 (14): epoch and parts of an assignment not yet complete; reset none. -/
  parts : Nat × List AssignPart
  /-- R397 (14): IDs by serial that the last assignment gives; reset none. -/
  assigned : List (Nat × Nat)
  /-- 1,024 entries; R399 (14): the routing table by Seam ID; reset none valid. -/
  routes : Tab RouteSt
  /-- R394 (14): next ESN by destination × 4 + class; reset 0. -/
  esnTx : Tab Nat
  /-- R394 (14): receive order by source × 4 + class; reset 0. -/
  esnRx : Tab EsnRx
  /-- R393 (14): flits waiting to leave, oldest first; reset none. -/
  queue : List QFlit
  /-- R393 (14): source whose turn the round robin of each class takes next; reset 0. -/
  turn : List Nat
  /-- R394 (14): flits delivered to this device and not yet acted on, oldest first; reset none. -/
  landed : List (Nat × Flit)
  /-- R411 (14): samples of peers' channels, by source × 8 + channel; reset none. -/
  samples : Tab SampleSt
  /-- R411 (14): channels mirrored to peers; reset none. -/
  mirrors : List MirrorSt
  /-- R412 (14): raw counts of the last 1 ms by mirrored channel: T64 and count, newest first; reset none. -/
  history : Tab (List (Nat × Int))
  /-- R412 (14): LATCH requests outstanding; reset none. -/
  waits : List LatchWait
  /-- R413 (14): relayed commands by target, oldest first; reset none. -/
  relays : List RelaySt
  /-- R409 (14): landing streams' frames in progress by stream; reset none. -/
  landings : Tab LandSt
  /-- R407 (14): frames discarded as misdirected by stream; reset 0. -/
  misdirected : Tab Nat
  /-- R407 (14): frames that found no started landing stream, by stream; reset 0. -/
  unlanded : Tab Nat
  /-- R403 (14): reservations of peers' streams; reset none. -/
  hopResv : List HopResv
  /-- R405 (14): parent link; reset none. -/
  parent : Option Nat
  /-- 8 bits; R405 (14): own HOPS_TO_ROOT; reset 0xFF. -/
  hopsToRoot : Nat
  /-- R405 (14): θ of the exchanges since the last mean, 2⁻¹⁶ ns; reset none. -/
  thetas : List Int
  /-- R397 (14): the link layer has been up since the device last joined; reset false. -/
  joined : Bool
deriving DecidableEq, Repr

def LinkSt.make (quad first width : Nat) : LinkSt :=
  { quad := quad, first := first, width := width, state := .training, helloSent := false, helloGot := false,
    peerSerial := 0, peerId := 0xFFFF, peerLink := 0, txFsn := 0, rxFsn := 0, nakSent := false, naks := 0,
    replay := [], crcPrev := 0, credit := [0, 0, 0, 0], owed := [0, 0, 0, 0], active := 0, rxUp := 0, replays := 0, reroutes := 0,
    peerHops := 0xFF, peerLocked := false }

def RouteSt.none : RouteSt := { valid := false, usingAlt := false, hops := 0, alt := 0xFF, primary := 0 }

def LandSt.reset : LandSt := { source := .none, data := [], open_ := false, dropped := false, next := .none }

def SeamSt.reset : SeamSt :=
  { links := [], id := none, fixedNext := none, fixed := none, conflict := false, pseq := 0, probes := [], topo := [],
    root := none, epoch := 0, parts := (0, []), assigned := [], routes := [], esnTx := [], esnRx := [], queue := [],
    turn := [0, 0, 0, 0], landed := [], samples := [], mirrors := [], history := [], waits := [], relays := [],
    landings := [], misdirected := [], unlanded := [], hopResv := [], parent := none, hopsToRoot := 0xFF, thetas := [],
    joined := false }

end Sys2Proof.Machine
end

