-- ==== Sys2Proof/Machine/Types/Stream.lean ====
section
/-! DEFINITION. State of the image pipes, the table memory's directory, the streams with their frames, the Basket,
the frame store and the leases (R180 to R261, spec files 06, 07 and 08). -/

namespace Sys2Proof.Machine

/-- PP_STATE.STATE of a pipe in service (R211): HALF is stage S3, shown by the stage. -/
inductive PipeState | idle | run | faulted
deriving DecidableEq, Repr

/-- One image pipe. -/
structure PipeSt where
  /-- 4 bits; R211 (06): state; reset IDLE. -/
  state : PipeState
  /-- 4 bits; R211 (06): CAUSE, 0 none, 1 SWATCH, 2 STALL; reset 0. -/
  cause : Nat
  /-- R181 (06): stream in the in-line slot; reset none. -/
  inline : Option Nat
  /-- 64 bits; R211 (06): handshakes completed; reset 0. -/
  hs : Nat
  /-- 64 bits; R211 (06): frames finished; reset 0. -/
  frames : Nat
  /-- 32 bits; R211 (06): SWATCH_PASS; reset 0. -/
  swPass : Nat
  /-- 64 bits; R211 (06): T64 of the last passing swatch; reset 0. -/
  swTime : Nat
  /-- 16 bits; R211 (06): SWATCH_FAIL; reset 0. -/
  swFail : Nat
  /-- 16 bits; R211 (06): STALL; reset 0. -/
  stalls : Nat
  /-- 16 bits; R211 (06): HDR_RANGE; reset 0. -/
  hdrRange : Nat
  /-- 16 bits; R211 (06): HDR_PARTIAL; reset 0. -/
  hdrPartial : Nat
  /-- 32 bits; R211 (06): DP_UNREPAIRED; reset 0. -/
  dpUnrep : Nat
  /-- R211 (06): stream in progress (PP_CURRENT), with its epoch; reset none. -/
  current : Option (Nat × Nat)
  /-- 5 bits; R211 (06): PP_FLAGS; reset 0. -/
  flags : Nat
  /-- R203 (06): number of the next swatch, 0 to 15; reset 0. -/
  swNext : Nat
  /-- R183 (06): stream at its turn in the deficit round robin, 512 before the first slice; reset 512. -/
  rrNext : Nat
  /-- R183 (06): deficit of each stream, handshakes; reset 0. -/
  deficit : Tab Nat
  /-- R185 (06): recovery plan: (stream, pipe) for each protected stream; reset none. -/
  plan : List (Nat × Nat)
deriving DecidableEq, Repr

/-- A table of the table memory (R196). -/
structure TableSt where
  /-- R196 (06): camera port. -/
  port : Nat
  /-- R197 (06): kind. -/
  kind : Nat
  /-- R196 (06): size in bytes. -/
  size : Nat
  /-- R196 (06): sealed. -/
  sealed : Bool
deriving DecidableEq, Repr

/-- A region of interest (R224, R226). -/
structure Roi where
  /-- 16 bits; R369 (13): X. -/
  x : Nat
  /-- 16 bits; R369 (13): Y. -/
  y : Nat
  /-- 16 bits; R369 (13): W. -/
  w : Nat
  /-- 16 bits; R369 (13): H. -/
  h : Nat
deriving DecidableEq, Repr

/-- The output settings of a stream (R224, R369). -/
structure OutSet where
  /-- 16 bits; R224 (07): format; reset 0x2500. -/
  format : Nat
  /-- R224 (07): OUT_SHIFT; reset 20 − b. -/
  shift : Nat
  /-- R224 (07): bx; reset 1. -/
  bx : Nat
  /-- R224 (07): by; reset 1. -/
  by_ : Nat
  /-- R224 (07): bin mode MEAN; reset MEAN. -/
  mean : Bool
  /-- R224 (07): dx; reset 1. -/
  dx : Nat
  /-- R224 (07): dy; reset 1. -/
  dy : Nat
  /-- R224 (07): keep N; reset 1. -/
  keep : Nat
  /-- R224 (07): press, 0 NONE, 1 PRESS_L, 2 PRESS_V; reset NONE. -/
  press : Nat
  /-- R224 (07): PV_TIER, 0 MAIN, 1 HIGH; reset MAIN. -/
  tier : Nat
  /-- R224 (07): PV_NLY; reset 1. -/
  nly : Nat
  /-- R224 (07): PV_BPP, 1/16 bit; reset 48. -/
  bpp : Nat
  /-- R224 (07): PL_RATIO, 0.01; reset 100. -/
  ratio : Nat
  /-- R224 (07): regions, 0 to 16; reset none. -/
  rois : List Roi
deriving DecidableEq, Repr

/-- How a stream reaches processing (R181); NONE after a pipe fault without room (R206). -/
inductive Placement | inLine | throughMemory | passBy | none
deriving DecidableEq, Repr

/-- A reservation (R20, R24). -/
structure Resv where
  /-- R20 (01): resource code. -/
  res : Nat
  /-- R26 (01): instance. -/
  inst : Nat
  /-- R20 (01): demand in the resource's unit. -/
  demand : Nat
deriving DecidableEq, Repr

/-- Where a stream goes: the part that a move changes (R208, R241). -/
structure Place where
  /-- R181 (06): placement. -/
  placement : Placement
  /-- R181 (06): pipe. -/
  pipe : Nat
  /-- R241 (08): destination is the Seam. -/
  seam : Bool
  /-- R241 (08): function, R362 coding. -/
  fn : Nat
  /-- R241 (08): write channel. -/
  chan : Nat
  /-- R323 (10): alternate function. -/
  altFn : Nat
  /-- R241 (08): Seam ID of the destination. -/
  seamId : Nat
deriving DecidableEq, Repr

/-- How far a taken frame has come. -/
inductive FramePhase
  /-- its trigger time is not yet judged by the capture window (R66) -/
  | judging
  /-- input is arriving or waits for a pipe -/
  | input
  /-- the pipe has taken its first line -/
  | processing
  /-- every output byte is ready -/
  | finished
  /-- its peg waits in the class U issue queue (R289: it is kept until the peg is issued) -/
  | pegged
  /-- ended LOST, its peg still to be written in its turn -/
  | lost
deriving DecidableEq, Repr

/-- One exposure of a taken frame (R189, R191). -/
structure ExpIn where
  /-- R148 (05): exposure index. -/
  index : Nat
  /-- R148 (05): EXPOSE_DUR. -/
  dur : Nat
  /-- R153 (05): lines received, first line first, each as packed bytes. -/
  lines : List (List Byte)
  /-- R153 (05): 0 arriving, 1 intact, 2 lost. -/
  done : Nat
deriving DecidableEq, Repr

/-- A frame that a stream has taken in and not yet ended (R243). -/
structure Frame where
  /-- R243 (08): number in the order of taking; the sequence once the window has passed it. -/
  seq : Nat
  /-- R148 (05): FRAME_NO. -/
  frameNo : Nat
  /-- 16 bits; R148 (05): FIRE_ID, 0xFFFF in FREE_RUN. -/
  fireId : Nat
  /-- R208 (06): epoch. -/
  epoch : Nat
  /-- R208 (06): placement under which it runs. -/
  place : Place
  /-- R241 (08): phase. -/
  phase : FramePhase
  /-- R257 (08): TRIG_T64. -/
  trigT : Nat
  /-- R66 (02): the fraction of the trigger time that TRIG_T64 drops, 2⁻¹⁶ ns. -/
  trigFrac : Nat
  /-- R257 (08): TRIG_UNIT, 0xFF in FREE_RUN. -/
  unit : Nat
  /-- R257 (08): ENC_CHANNEL. -/
  enc : Nat
  /-- R257 (08): POSITION. -/
  pos : Int
  /-- R257 (08): EOF_T64. -/
  eofT : Nat
  /-- 16 bits; R258 (08): FLAGS gathered so far. -/
  flags : Nat
  /-- R225 (07): output settings under which it runs. -/
  out : OutSet
  /-- R279 (09): Fold operation and plane mask under which it runs. -/
  fold : Nat × Nat
  /-- R200 (06): bound parameter set. -/
  set : Nat
  /-- R148 (05): width, height, packing, mosaic and exposure count. -/
  width : Nat
  /-- R148 (05): height. -/
  height : Nat
  /-- R148 (05): packing. -/
  packing : Nat
  /-- R148 (05): mosaic. -/
  mosaic : Nat
  /-- R148 (05): exposure count E. -/
  count : Nat
  /-- R189 (06): exposures. -/
  exps : List ExpIn
  /-- R19 (01): the rest of it spills into the frame store. -/
  spilled : Bool
  /-- R183 (06): input lines that the pipe has processed. -/
  used : Nat
  /-- R228 (07): output bytes made so far. -/
  bytes : List Byte
  /-- R251 (08): bytes of storage reserved for it; none before its first output byte. -/
  stored : Option Nat
  /-- R251 (08): slots of the Basket taken for it so far. -/
  slots : Nat
  /-- R251 (08): runs of its 4 KiB chunks that landed in the frame store: first chunk, chunks; reset none. -/
  fsRuns : List (Nat × Nat)
  /-- R252 (08): ring offset at which its payload begins, once the first burst is issued. -/
  start : Option Nat
  /-- R270 (09): payload bytes issued to the port's queue or the Seam's. -/
  issued : Nat
  /-- R246 (08): of those, the bytes whose TLP or flit has been issued. -/
  left : Nat
  /-- R257 (08): PAYLOAD_BYTES of a LOST peg or number of frames of a MULTI peg. -/
  lines : Nat
  /-- R328 (11): instant at which the last of its payload TLPs entered the transmit queue or, of a LOST frame, at which it was
  ended, 2⁻¹⁶ ns since reset release. -/
  endAt : Nat
  /-- R249, R250 (08): granules of its output in the frame store and bytes of its input that lay in guard groups when the
  writing of new ones ended; none before that, and for a later frame. -/
  guarded : Option (Nat × Nat)
  /-- R253 (08): lease index and BAR2 offset, if leased. -/
  lease : Option (Nat × Nat)
  /-- R409 (14): FORMAT, WIDTH and LINES that a peg template brought; none for a frame of this device. -/
  shape : Option (Nat × Nat × Nat × Nat)
deriving DecidableEq, Repr

/-- A placement that still drains (R209). -/
structure OldPlace where
  /-- R209 (06): old epoch. -/
  epoch : Nat
  /-- R209 (06): the old placement. -/
  place : Place
  /-- R27 (01): its reservations. -/
  resv : List Resv
deriving DecidableEq, Repr

/-- What a stream was before its last start, stop, move or change of output settings (R208, R225, R242). -/
structure StreamWas where
  /-- R225, R242 (07, 08): the effect instant, 2⁻¹⁶ ns of the timebase. -/
  at_ : Nat
  /-- R242 (08): started before it. -/
  started : Bool
  /-- R225 (07): output settings before it. -/
  out : OutSet
  /-- R279 (09): Fold operation and plane mask before it. -/
  fold : Nat × Nat
  /-- R208 (06): placement before it. -/
  place : Place
  /-- R208 (06): epoch before it. -/
  epoch : Nat
  /-- R208, R225 (06, 07): a trigger has begun under what came after it. -/
  begun : Bool
deriving DecidableEq, Repr

/-- A trigger of which a SOF has met a stream (R152, R225): a later exposure goes as its first went. -/
structure TrigSeen where
  /-- 32 bits; R148 (05): FRAME_NO. -/
  frameNo : Nat
  /-- 16 bits; R148 (05): FIRE_ID, 0xFFFF in FREE_RUN. -/
  fireId : Nat
  /-- R148 (05): exposures seen. -/
  indices : List Nat
deriving DecidableEq, Repr

/-- One stream (R241). -/
structure StreamSt where
  /-- R241 (08): class, 1 P, 2 B. -/
  cls : Nat
  /-- R241 (08): camera port. -/
  port : Nat
  /-- R241 (08): substream. -/
  sub : Nat
  /-- R241 (08): the placement and destination in force. -/
  place : Place
  /-- R240 (08): mode, 0 THROUGHPUT, 1 LATENCY, 2 FIDELITY. -/
  mode : Nat
  /-- R241 (08): protected. -/
  prot : Bool
  /-- R241 (08): delivery LEASE. -/
  lease : Bool
  /-- R23 (01): declared W. -/
  w : Nat
  /-- R23 (01): declared H. -/
  h : Nat
  /-- R23 (01): declared E. -/
  e : Nat
  /-- R241 (08): priority. -/
  priority : Nat
  /-- R241 (08): capture window. -/
  window : Option Nat
  /-- R23 (01): f, 0.001 frames/s. -/
  f : Nat
  /-- R23 (01): R_in, kB/s. -/
  rIn : Nat
  /-- R23 (01): R_pk, kB/s. -/
  rPk : Nat
  /-- R23 (01): T_b, µs. -/
  tB : Nat
  /-- R241 (08): latency goal, µs. -/
  goal : Nat
  /-- R241 (08): freshness limit, ms. -/
  fresh : Nat
  /-- R241 (08): lease duration, ms. -/
  leaseMs : Nat
  /-- R224 (07): output settings. -/
  out : OutSet
  /-- R305, R324 (10): it runs on the port of its alternate after a failover; reset false. -/
  onAlt : Bool
  /-- R324 (10): a failover waits for the alternate to be ARMed, true of one that a freeze began; reset none. -/
  failing : Option Bool
  /-- R357 (12): LOSSY_ALLOWED; reset 0. -/
  lossy : Bool
  /-- R357 (12): lowest output byte rate, kB/s; reset 0. -/
  lowest : Nat
  /-- R277 (09): Fold operation and plane mask; reset 0 (none). -/
  fold : Nat × Nat
  /-- R370 (13): started; STOPPED at creation. -/
  started : Bool
  /-- R208, R225, R242 (06, 07, 08): what it was before its last change; none before the first. -/
  was : Option StreamWas
  /-- R152, R225, R243 (05, 07, 08): the last 16 triggers that met it, newest first; none at creation. -/
  triggers : List TrigSeen
  /-- R243 (08): next sequence; 0 at the first start. -/
  seqNext : Nat
  /-- R208 (06): epoch; 0 at creation (DESIGN CHOICE, log 6). -/
  epoch : Nat
  /-- R210 (06): epoch of its last peg: the first peg under another carries EPOCH_CHANGED; 0 at creation. -/
  pegEpoch : Nat
  /-- R208, R410 (06, 14): the placement that an accepted move leaves, until its switch point. -/
  moving : Option Place
  /-- R209 (06): old placement still draining. -/
  old : Option OldPlace
  /-- R24 (01): reservations held. -/
  resv : List Resv
  /-- R242 (08): frames taken in and not yet ended, oldest first. -/
  frames : List Frame
  /-- 32 bits; R370 (13): LOST. -/
  cLost : Nat
  /-- 32 bits; R370 (13): RINSED. -/
  cRinsed : Nat
  /-- 32 bits; R370 (13): EPOCH_DISCARD. -/
  cEpoch : Nat
  /-- 32 bits; R370 (13): PRESS_OVER. -/
  cPress : Nat
  /-- 32 bits; R370 (13): LEASE_SHORT. -/
  cLease : Nat
deriving DecidableEq, Repr

/-- LS_STATE.STATE (R256). -/
inductive LeaseState
  | free
  /-- the index is taken, but its peg is not visible yet: LS_STATE shows FREE (R253) -/
  | taken
  | active
  | ended
deriving DecidableEq, Repr

/-- One lease index of a function (R253, R256). -/
structure LeaseSt where
  /-- R256 (08): state; reset FREE. -/
  state : LeaseState
  /-- R256 (08): LATE_READ; reset 0. -/
  lateRead : Bool
  /-- R256 (08): EXPIRED; reset 0. -/
  expired : Bool
  /-- 9 bits; R256 (08): stream; reset 0. -/
  stream : Nat
  /-- 15 bits; R256 (08): generation; reset 0. -/
  gen : Nat
  /-- 32 bits; R256 (08): SEQ; reset 0. -/
  seq : Nat
  /-- 64 bits; R256 (08): deadline, T64; reset 0. -/
  deadline : Nat
  /-- R253 (08): BAR2 offset of the slot; reset 0. -/
  offset : Nat
  /-- R253 (08): size of the slot, bytes; reset 0. -/
  size : Nat
  /-- R253 (08): the leased payload; reset empty. -/
  data : List Byte
  /-- R255 (08): instant of its end, 2⁻¹⁶ ns since reset release; reset none. -/
  endAt : Option Nat
deriving DecidableEq, Repr

/-- Pipes, tables, streams, Basket, frame store, leases. -/
structure StoreSt where
  /-- R3 (00): IP00 to IP15. -/
  pipes : Tab PipeSt
  /-- R212 (06): each view's latch of each pipe's block, by view × 16 + pipe; reset 0. -/
  latches : Tab (List Nat)
  /-- R196 (06): tables by handle; reset none. -/
  tables : Tab TableSt
  /-- 32 bits; R196 (06): next table handle, not 0; reset 1 (DESIGN CHOICE, log 6). -/
  nextTable : Nat
  /-- R241 (08): streams 0 to 511; reset none. -/
  streams : Tab StreamSt
  /-- R245 (08): the M quota, slots; reset 1,024. -/
  mQuota : Nat
  /-- 17 banks; R244 (08): retired banks; reset none. -/
  banks : List Nat
  /-- R244 (08): instants of uncorrectable words by bank, 2⁻¹⁶ ns since reset release; reset none. -/
  bankErr : Tab Nat
  /-- R250 (08): retired pseudo-channels, stack × 32 + channel; reset none. -/
  pcs : List Nat
  /-- R250 (08): retired stacks; reset none. -/
  fsStacks : List Nat
  /-- R250 (08): instant of the last uncorrectable error by pseudo-channel; reset none. -/
  pcErr : Tab Nat
  /-- R250 (08): new guard groups are written; reset true. -/
  guard : Bool
  /-- R256 (08): leases by function × 64 + index; reset FREE. -/
  leases : Tab LeaseSt
deriving DecidableEq, Repr

def PipeSt.reset : PipeSt :=
  { state := .idle, cause := 0, inline := none, hs := 0, frames := 0, swPass := 0, swTime := 0, swFail := 0,
    stalls := 0, hdrRange := 0, hdrPartial := 0, dpUnrep := 0, current := none, flags := 0, swNext := 0, rrNext := 512,
    deficit := [], plan := [] }

def OutSet.reset : OutSet :=
  { format := 0x2500, shift := 4, bx := 1, by_ := 1, mean := true, dx := 1, dy := 1, keep := 1, press := 0, tier := 0,
    nly := 1, bpp := 48, ratio := 100, rois := [] }

def Place.reset : Place :=
  { placement := .none, pipe := 0, seam := false, fn := 0, chan := 0, altFn := 0, seamId := 0 }

def StreamSt.blank : StreamSt :=
  { cls := 2, port := 0, sub := 0, place := Place.reset, mode := 0, prot := false, lease := false, w := 0, h := 0,
    e := 1, priority := 0, window := none, f := 0, rIn := 0, rPk := 0, tB := 0, goal := 0, fresh := 0, leaseMs := 0,
    out := OutSet.reset, onAlt := false, failing := none, lossy := false, lowest := 0, fold := (0, 0), started := false, was := none, triggers := [], seqNext := 0, epoch := 0,
    pegEpoch := 0, moving := none, old := none, resv := [], frames := [], cLost := 0, cRinsed := 0,
    cEpoch := 0, cPress := 0, cLease := 0 }

def LeaseSt.reset : LeaseSt :=
  { state := .free, lateRead := false, expired := false, stream := 0, gen := 0, seq := 0, deadline := 0, offset := 0,
    size := 0, data := [], endAt := none }

def StoreSt.reset : StoreSt :=
  { pipes := [], latches := [], tables := [], nextTable := 1, streams := [], mQuota := 1024, banks := [],
    bankErr := [], pcs := [], fsStacks := [], pcErr := [], guard := true, leases := [] }

end Sys2Proof.Machine
end

