-- ==== Sys2Proof/Machine/Types/Time.lean ====
section
/-! DEFINITION. State of the timebase, its registers, its discipline and PPS_OUT (R39 to R50, spec file 02).
Instants are held in units of the fraction field, 2⁻¹⁶ ns (R5). -/

namespace Sys2Proof.Machine

/-- TB_STATUS.STATE (R42). -/
inductive DiscState | freeRun | acquire | locked | holdover
deriving DecidableEq, Repr

/-- TB_STATUS.SOURCE (R42). -/
inductive TimeSource | free | ext | seam
deriving DecidableEq, Repr

/-- The staged step of one physical function (TB_SET_ registers of R42). -/
structure StageRegs where
  /-- 48 bits; R42 (02): TB_SET_SEC; reset 0. -/
  sec : Nat
  /-- 64 bits; R42 (02): TB_SET_OFS, two's complement; reset 0. -/
  ofs : Nat
  /-- 2 bits; R42 (02): TB_SET_CTRL.MODE; reset 0. -/
  mode : Nat
deriving DecidableEq, Repr

/-- A STEP_AT_SECOND that waits for its roll-over (R45). -/
structure PendingStep where
  /-- R45 (02): seconds to take at the roll-over. -/
  sec : Nat
  /-- R380 (13): the ticket of a TIME.STEP. -/
  ticket : Option Nat
deriving DecidableEq, Repr

/-- The timebase and what disciplines it. -/
structure TimeSt where
  /-- 96 bits as a count of 2⁻¹⁶ ns; R39 (02): TB96; reset 0. -/
  tb : Nat
  /-- R39 (02): time since reset release in 2⁻¹⁶ ns, moved by no step (the clock of durations); reset 0. -/
  up : Nat
  /-- MODEL: how often the block has idled, the argument of the free passage of time; reset 0 (DESIGN CHOICE, log 4). -/
  tick : Nat
  /-- 4 bits; R42 (02): TB_STATUS.STATE; reset FREE_RUN. -/
  disc : DiscState
  /-- 4 bits; R42 (02): TB_STATUS.SOURCE; reset FREE. -/
  source : TimeSource
  /-- 4 bits; R42 (02): the TB_EVT bits as the device set them, for every view at once; reset 0. -/
  evt : Nat
  /-- 4 bits a view; R42 (02): TB_EVT bits that a view has cleared since they were set; reset none. -/
  evtCleared : Tab Nat
  /-- R43 (02): each function's latch of seconds and fraction, [63:16] seconds, [15:0] fraction; reset 0. -/
  secLatch : Tab Nat
  /-- 32 bits a view; R43 (02): each function's TB_T64_HI latch; reset 0. -/
  hiLatch : Tab Nat
  /-- R42 (02): the staged step of each PF by port; reset 0. -/
  staged : Tab StageRegs
  /-- 2 bits; R42 (02): TB_SET_STATUS.STATE, 0 IDLE, 1 PENDING, 2 DONE, 3 REFUSED; reset 0. -/
  setState : Nat
  /-- 4 bits; R42 (02): TB_SET_STATUS.CAUSE; reset 0. -/
  setCause : Nat
  /-- R45 (02): the step that waits for its roll-over; reset none. -/
  pendingStep : Option PendingStep
  /-- 2 bits; R45 (02): ports whose PF has host time control; reset 0. -/
  hostCtl : List Nat
  /-- 1 bit; R47 (02): TEN_IN is used under EXT; reset 0. -/
  useTen : Bool
  /-- R49 (02): cable delay, ps; reset 0. -/
  cableDelay : Nat
  /-- R50 (02): PPS_OUT high time, µs; reset 100,000. -/
  ppsHigh : Nat
  /-- R373 (13): phase error, ps, signed; reset 0. -/
  phaseErr : Int
  /-- R373 (13): frequency correction, 0.001 ppm, signed; reset 0. -/
  freqCorr : Int
  /-- R47 (02): consecutive good PPS_IN edges or Seam exchanges in ACQUIRE; reset 0. -/
  good : Nat
  /-- R47 (02): consecutive seconds of LOCKED without a PPS_IN edge in place; reset 0. -/
  missed : Nat
  /-- R47 (02): TEN_IN is running; reset false. -/
  tenOk : Bool
  /-- R48 (02): an acquisition step waits for the next roll-over: the phase error it removes, ps, signed; reset none. -/
  acqStep : Option Int
  /-- R50 (02): PPS_OUT is high until this instant (2⁻¹⁶ ns of the timebase); reset low. -/
  ppsUntil : Option Nat
deriving DecidableEq, Repr

def StageRegs.reset : StageRegs := { sec := 0, ofs := 0, mode := 0 }

/-- 0 s, 0 ns, 0 fraction, FREE_RUN, FREE (R39, R42); PPS_OUT high time 100 ms (R50). -/
def TimeSt.reset : TimeSt :=
  { tb := 0, up := 0, tick := 0, disc := .freeRun, source := .free, evt := 0, evtCleared := [], secLatch := [],
    hiLatch := [], staged := [], setState := 0, setCause := 0, pendingStep := none, hostCtl := [], useTen := false,
    cableDelay := 0, ppsHigh := 100000, phaseErr := 0, freqCorr := 0, good := 0, missed := 0, tenOk := false,
    acqStep := none, ppsUntil := none }

end Sys2Proof.Machine
end

