-- ==== Sys2Proof/Machine/Types/Trig.lean ====
section
/-! DEFINITION. State of the trigger compare units, their table memory, the timing pins and the capture windows
(R51 to R69, spec file 02). Instants are in 2⁻¹⁶ ns of the timebase. -/

namespace Sys2Proof.Machine

/-- The head that every TRIG.ARM_ command carries (file 13, before R371). -/
structure TrigHead where
  /-- 8 bits; R371 (13): source: 0x00 to 0x07 E0 to E7, 0x08 TIME, 0x10 + n pin Tn, or a fabric source (R411). -/
  source : Nat
  /-- R411 (14): Seam ID of the device whose channel a fabric source names; 0 for a local source. -/
  peer : Nat
  /-- R51 (02): direction, 0 FORWARD, 1 REVERSE, 2 BOTH. -/
  direction : Nat
  /-- R51 (02): late policy SKIP. -/
  skip : Bool
  /-- R51 (02): refire. -/
  refire : Bool
  /-- R51 (02): camera port target, by first lane. -/
  port : Option Nat
  /-- R51 (02): event target. -/
  event : Bool
  /-- R51 (02): capture window target. -/
  window : Option Nat
  /-- R51 (02): lead L, ns. -/
  lead : Nat
deriving DecidableEq, Repr

/-- What a unit is armed for (R51). -/
inductive TrigMode
  | oneShot (target : Int)
  | periodic (start : Int) (step : Nat) (count : Nat)
  | table (first length : Nat) (loop : Bool) (delta : Int)
deriving DecidableEq, Repr

/-- A trigger that a hold keeps back (R60). -/
structure HeldTrig where
  /-- R60 (02): t_p. -/
  tp : Nat
  /-- R58, R438 (02, 16): position latched at t_p for its peg, and whether the latch failed its check; none before. -/
  pos : Option (Int × Bool)
deriving DecidableEq, Repr

/-- A fire instant that has been sent and lies ahead (R56, R57). -/
structure FireInst where
  /-- R57 (02): the fire instant. -/
  instant : Nat
  /-- R56 (02): the predicted t_p. -/
  tp : Nat
  /-- R58 (02): fired late. -/
  delayed : Bool
  /-- R58, R59 (02): nothing was sent; at the instant its LOST peg takes the position. -/
  lost : Bool
  /-- R160 (05): FIRE_ID of the message to the camera port, if one was sent. -/
  fireId : Option Nat
  /-- R51 (02): the unit's targets when the instant was made. -/
  port : Option Nat
  /-- R51 (02): event target. -/
  event : Bool
  /-- R51 (02): window target. -/
  window : Option Nat
  /-- R57 (02): source whose counter is latched. -/
  source : Nat
deriving DecidableEq, Repr

/-- One trigger compare unit. -/
structure TrigUnit where
  /-- R371 (13): 0 IDLE, 1 ARMED (HELD is ARMED with held triggers), 3 DONE; reset IDLE. -/
  state : Nat
  /-- R51 (02): the sequence is used up; the unit stays ARMED until its last trigger has been fired or has ended; reset
  false. -/
  spent : Bool
  /-- R51 (02): parameters of the arming; reset zero (not armed). -/
  head : TrigHead
  /-- R51 (02): mode of the arming. -/
  mode : TrigMode
  /-- R52, R54 (02): index of the next trigger of the sequence; reset 0. -/
  index : Int
  /-- R51 (02): triggers used of the count; reset 0. -/
  used : Nat
  /-- R53 (02): highest trigger position fired; reset none. -/
  hi : Option Int
  /-- R53 (02): lowest trigger position fired; reset none. -/
  lo : Option Int
  /-- R53 (02): x_c of the last publication acted on; reset 0. -/
  seen : Int
  /-- R53 (02): lowest x_c published since the last publication acted on, that one included; reset 0. -/
  low : Int
  /-- R53 (02): highest x_c published since then; reset 0. -/
  high : Int
  /-- R53 (02): the farthest trigger position sent in the present motion; reset none. -/
  sent : Option Int
  /-- R53 (02): the present motion is reverse; reset false. -/
  motion : Bool
  /-- R60 (02): held triggers, oldest first; reset none. -/
  held : List HeldTrig
  /-- R57 (02): fire instants sent and still ahead, oldest first; reset none. -/
  fires : List FireInst
  /-- 32 bits; R371 (13): fired; reset 0. -/
  fired : Nat
  /-- 32 bits; R371 (13): late; reset 0. -/
  late : Nat
  /-- 32 bits; R371 (13): skipped; reset 0. -/
  skipped : Nat
  /-- R371 (13): overrun since the unit was armed; reset false. -/
  overrun : Bool
  /-- 64 bits; R371 (13): last instant, T64; reset 0. -/
  lastInstant : Nat
deriving DecidableEq, Repr

/-- One entry of a pin's schedule (R62). -/
structure Pulse where
  /-- R62 (02): next start instant. -/
  start : Nat
  /-- R62 (02): high time, 2⁻¹⁶ ns rounded from 100 ps. -/
  high : Nat
  /-- R62 (02): period, 2⁻¹⁶ ns; 0 for a single pulse. -/
  period : Nat
  /-- 16 bits; R62 (02): pulses left. -/
  count : Nat
  /-- R62 (02): the entry counts against the 16 of the schedule (false for a strobe of R63). -/
  scheduled : Bool
deriving DecidableEq, Repr

/-- One timing pin. -/
structure PinSt where
  /-- R61 (02): output; reset input with its driver off. -/
  output : Bool
  /-- R61 (02): edge selection of an input, 0 rising, 1 falling, 2 both; reset 0. -/
  edge : Nat
  /-- R63 (02): bound trigger unit; reset none. -/
  unit : Option Nat
  /-- R63 (02): binding offset, ps, signed; reset 0. -/
  offset : Int
  /-- R63 (02): binding high time, ps; reset 0. -/
  high : Nat
  /-- 16 entries; R62 (02): schedule and strobes still to rise; reset empty. -/
  pulses : List Pulse
  /-- R64 (02): falling instants of pulses now high; reset none, the pin low. -/
  falls : List Nat
  /-- R64 (02): pulses not emitted because their start had passed; reset 0. -/
  lateCount : Nat
deriving DecidableEq, Repr

/-- What opens or closes a window (R66, TRIG.ARM_WINDOW of R371). -/
inductive WinEvent
  | position (chan : Nat) (dir : Nat) (value : Int)
  | time (t64 : Nat)
  | pin (pin : Nat) (edge : Nat)
  | command
deriving DecidableEq, Repr

/-- Where a window stands (R68). -/
inductive WinPhase | unarmed | waiting | opened | ended
deriving DecidableEq, Repr

/-- An event resolved for a window and not yet acted on (R66). -/
structure WinPending where
  /-- R66 (02): resolved instant, 2⁻¹⁶ ns. -/
  at_ : Nat
  /-- R66 (02): the stop event, else the start event. -/
  stop : Bool
deriving DecidableEq, Repr

/-- One capture window. -/
structure WinSt where
  /-- R68 (02): phase; reset unarmed. -/
  phase : WinPhase
  /-- R69 (02): REARM; reset false. -/
  rearm : Bool
  /-- R66 (02): start event; reset command (not armed). -/
  start : WinEvent
  /-- R66 (02): stop event. -/
  stop : WinEvent
  /-- R66 (02): resolved events not yet acted on, ascending; reset none. -/
  events : List WinPending
  /-- R66 (02): t_start of the opening; reset 0. -/
  tStart : Nat
  /-- R66 (02): closed intervals [t_start, t_stop) that frames may still fall into, newest first; reset none. -/
  past : List (Nat × Nat)
  /-- R69 (02): the end instant of the last window; reset 0. -/
  ended : Nat
  /-- R68 (02): events ignored and counted; reset 0. -/
  ignored : Nat
deriving DecidableEq, Repr

/-- Units, table memory, pins and windows. -/
structure TrigSt where
  /-- R3 (00): TC00 to TC31. -/
  units : Tab TrigUnit
  /-- 65,536 × 48 bits; R52 (02): the table memory; no reset value given, 0 (DESIGN CHOICE, log 3). -/
  table : Tab Int
  /-- R3 (00): T00 to T23. -/
  pins : Tab PinSt
  /-- R3 (00): CW00 to CW15. -/
  windows : Tab WinSt
deriving DecidableEq, Repr

def TrigHead.reset : TrigHead :=
  { source := 0, peer := 0, direction := 0, skip := false, refire := false, port := none, event := false, window := none,
    lead := 0 }

def TrigUnit.reset : TrigUnit :=
  { state := 0, spent := false, head := TrigHead.reset, mode := .oneShot 0, index := 0, used := 0, hi := none, lo := none, seen := 0,
    low := 0, high := 0, sent := none, motion := false, held := [], fires := [], fired := 0, late := 0, skipped := 0, overrun := false, lastInstant := 0 }

def PinSt.reset : PinSt :=
  { output := false, edge := 0, unit := none, offset := 0, high := 0, pulses := [], falls := [],
    lateCount := 0 }

def WinSt.reset : WinSt :=
  { phase := .unarmed, rearm := false, start := .command, stop := .command, events := [], tStart := 0, past := [],
    ended := 0, ignored := 0 }

def TrigSt.reset : TrigSt := { units := [], table := [], pins := [], windows := [] }

end Sys2Proof.Machine
end

