-- ==== Sys2Proof/Machine/Chip.lean ====
section
/-! DEFINITION. The whole state of the KN672 but for its addressed memory and the queue of waiting commands, and the
accessors of its instances. An instance that its table does not list stands at its reset value. -/

namespace Sys2Proof.Machine

/-- Everything the spec gives the device but the bytes of its addressed memory. -/
structure Chip where
  /-- spec file 02: timebase -/
  time : TimeSt
  /-- spec file 19: events, trace, counters, snapshots -/
  ev : EventSt
  /-- spec files 12, 13: mailboxes, sessions, keys, tickets, audit log -/
  mbx : MbxSt
  /-- spec file 04: line lanes -/
  lanes : LanesSt
  /-- spec file 05: camera ports -/
  cam : CamSt
  /-- spec files 06 to 08: pipes, tables, streams, Basket, frame store, leases -/
  store : StoreSt
  /-- spec files 09 to 11: DMA, host ports -/
  hosts : HostsSt
  /-- spec file 03: position interface -/
  pos : PosSt
  /-- spec file 02: trigger units, pins, windows -/
  trig : TrigSt
  /-- spec file 14: Seam fabric -/
  seam : SeamSt
  /-- spec file 15: panel port -/
  panel : PanelSt
  /-- spec file 16: safety monitor -/
  safety : SafetySt
  /-- spec file 16: management pairs, fault list -/
  mgmt : MgmtSt
  /-- spec files 01, 17: power, start-up, thermal behaviour, meters -/
  power : PowerSt
  /-- spec file 18: two-wire buses -/
  mt : MtSt
  /-- spec files 13, 17, 19: flash, board data, saved configuration, JTAG -/
  board : BoardSt
  /-- MODEL: the bytes that the last read of a register, a window or MT returned; reset empty. -/
  rd : List Byte
  /-- MODEL: free values taken so far, the argument of the next; reset 0 (DESIGN CHOICE, log 5). -/
  draw : Nat
deriving DecidableEq, Repr

/-- The device right after a reset release that follows power-on: stage S1 (R461). -/
def Chip.reset : Chip :=
  { time := TimeSt.reset, ev := EventSt.reset, mbx := MbxSt.reset, lanes := LanesSt.reset, cam := CamSt.reset,
    store := StoreSt.reset, hosts := HostsSt.reset, pos := PosSt.reset, trig := TrigSt.reset, seam := SeamSt.reset,
    panel := PanelSt.reset, safety := SafetySt.reset, mgmt := MgmtSt.reset, power := PowerSt.reset, mt := MtSt.reset,
    board := BoardSt.reset, rd := [], draw := 0 }

/-- The chip and its addressed memory. -/
structure Dev where
  /-- the state of the blocks -/
  chip : Chip
  /-- the bytes of buffers, tables, overlays and staged images -/
  mem : Mem
deriving DecidableEq, Repr

/-- A change of the chip alone: the addressed memory stays. -/
def Dev.onChip (f : Chip → Chip) (d : Dev) : Dev := { d with chip := f d.chip }

namespace Chip

def lane (c : Chip) (i : Nat) : LaneSt := c.lanes.lanes.getD LaneSt.reset i
def setLane (c : Chip) (i : Nat) (v : LaneSt) : Chip := { c with lanes.lanes := c.lanes.lanes.put i v }
def quad (c : Chip) (i : Nat) : QuadSt := c.lanes.quads.getD QuadSt.reset i
def setQuad (c : Chip) (i : Nat) (v : QuadSt) : Chip := { c with lanes.quads := c.lanes.quads.put i v }
def port (c : Chip) (p : Nat) : PortSt := c.cam.ports.getD PortSt.reset p
def setPort (c : Chip) (p : Nat) (v : PortSt) : Chip := { c with cam.ports := c.cam.ports.put p v }
def pipe (c : Chip) (i : Nat) : PipeSt := c.store.pipes.getD PipeSt.reset i
def setPipe (c : Chip) (i : Nat) (v : PipeSt) : Chip := { c with store.pipes := c.store.pipes.put i v }
def stream? (c : Chip) (i : Nat) : Option StreamSt := c.store.streams.find? i
def setStream (c : Chip) (i : Nat) (v : StreamSt) : Chip := { c with store.streams := c.store.streams.put i v }
def lease (c : Chip) (fn i : Nat) : LeaseSt := c.store.leases.getD LeaseSt.reset (fn * 64 + i)
def setLease (c : Chip) (fn i : Nat) (v : LeaseSt) : Chip :=
  { c with store.leases := c.store.leases.put (fn * 64 + i) v }
def host (c : Chip) (p : Nat) : HostSt := c.hosts.ports.getD HostSt.reset p
def setHost (c : Chip) (p : Nat) (v : HostSt) : Chip := { c with hosts.ports := c.hosts.ports.put p v }
def fn (c : Chip) (f : Nat) : FnSt := c.hosts.fns.getD FnSt.reset f
def setFn (c : Chip) (f : Nat) (v : FnSt) : Chip := { c with hosts.fns := c.hosts.fns.put f v }
def wch (c : Chip) (p i : Nat) : ChanSt := c.hosts.wch.getD ChanSt.reset (p * 256 + i)
def setWch (c : Chip) (p i : Nat) (v : ChanSt) : Chip := { c with hosts.wch := c.hosts.wch.put (p * 256 + i) v }
def rch (c : Chip) (p i : Nat) : ChanSt := c.hosts.rch.getD ChanSt.reset (p * 64 + i)
def setRch (c : Chip) (p i : Nat) (v : ChanSt) : Chip := { c with hosts.rch := c.hosts.rch.put (p * 64 + i) v }
def enc (c : Chip) (i : Nat) : EncChan := c.pos.chans.getD EncChan.reset i
def setEnc (c : Chip) (i : Nat) (v : EncChan) : Chip := { c with pos.chans := c.pos.chans.put i v }
def divider (c : Chip) (i : Nat) : Divider := c.pos.divs.getD Divider.reset i
def setDivider (c : Chip) (i : Nat) (v : Divider) : Chip := { c with pos.divs := c.pos.divs.put i v }
def unit (c : Chip) (i : Nat) : TrigUnit := c.trig.units.getD TrigUnit.reset i
def setUnit (c : Chip) (i : Nat) (v : TrigUnit) : Chip := { c with trig.units := c.trig.units.put i v }
def pin (c : Chip) (i : Nat) : PinSt := c.trig.pins.getD PinSt.reset i
def setPin (c : Chip) (i : Nat) (v : PinSt) : Chip := { c with trig.pins := c.trig.pins.put i v }
def window (c : Chip) (i : Nat) : WinSt := c.trig.windows.getD WinSt.reset i
def setWindow (c : Chip) (i : Nat) (v : WinSt) : Chip := { c with trig.windows := c.trig.windows.put i v }
def link? (c : Chip) (i : Nat) : Option LinkSt := c.seam.links.find? i
def setLink (c : Chip) (i : Nat) (v : LinkSt) : Chip := { c with seam.links := c.seam.links.put i v }
def tile (c : Chip) (i : Nat) : TileSt := c.panel.tiles.getD TileSt.reset i
def setTile (c : Chip) (i : Nat) (v : TileSt) : Chip := { c with panel.tiles := c.panel.tiles.put i v }
def safeFn (c : Chip) (i : Nat) : SafeFn := c.safety.fns.getD SafeFn.reset i
def setSafeFn (c : Chip) (i : Nat) (v : SafeFn) : Chip := { c with safety.fns := c.safety.fns.put i v }
def box (c : Chip) (m : Nat) : Mailbox := c.mbx.boxes.getD Mailbox.reset m
def setBox (c : Chip) (m : Nat) (v : Mailbox) : Chip := { c with mbx.boxes := c.mbx.boxes.put m v }
def mc (c : Chip) (i : Nat) : McSt := c.mt.mcs.getD McSt.reset i
def setMc (c : Chip) (i : Nat) (v : McSt) : Chip := { c with mt.mcs := c.mt.mcs.put i v }
def module (c : Chip) (i : Nat) : ModuleSt := c.mt.modules.getD ModuleSt.reset i
def setModule (c : Chip) (i : Nat) (v : ModuleSt) : Chip := { c with mt.modules := c.mt.modules.put i v }
def meter (c : Chip) (r i : Nat) : MeterSt := c.power.meters.getD MeterSt.reset (r * 65536 + i)
def setMeter (c : Chip) (r i : Nat) (v : MeterSt) : Chip :=
  { c with power.meters := c.power.meters.put (r * 65536 + i) v }

end Chip

end Sys2Proof.Machine
end

