-- ==== Sys2Proof/Machine/Bytes.lean ====
section
/-! DEFINITION. Byte order (R9), signed fields, bit fields, and the checks the spec computes itself: CRC-32C (R10),
CRC-16 (R532), the SMBus PEC (R489) and the BiSS CRC-6 (R86). -/

namespace Sys2Proof.Machine

/-- A little-endian number (R9): the first byte is the least significant. -/
def leNat : List Byte → Nat
  | [] => 0
  | b :: bs => b.toNat + 256 * leNat bs

/-- The low `n` bytes of `v`, least significant first (R9). -/
def le : Nat → Nat → List Byte
  | 0, _ => []
  | n + 1, v => BitVec.ofNat 8 v :: le n (v / 256)

/-- A block of words as bytes. -/
def wordBytes (l : List Nat) : List Byte := l.flatMap (le 4)

/-- The field of `n` bytes at offset `o` of a record; a byte beyond the record reads 0. -/
def fieldAt (r : List Byte) (o n : Nat) : Nat := leNat ((r.drop o).take n)

def u8 (r : List Byte) (o : Nat) : Nat := fieldAt r o 1
def u16 (r : List Byte) (o : Nat) : Nat := fieldAt r o 2
def u32 (r : List Byte) (o : Nat) : Nat := fieldAt r o 4
def u48 (r : List Byte) (o : Nat) : Nat := fieldAt r o 6
def u64 (r : List Byte) (o : Nat) : Nat := fieldAt r o 8

/-- Bits `[lo + w - 1 : lo]` of `v`. -/
def bits (v lo w : Nat) : Nat := v / 2 ^ lo % 2 ^ w

/-- Bit `i` of `v`. -/
def bit (v i : Nat) : Bool := v / 2 ^ i % 2 == 1

/-- 1 for true, 0 for false. -/
def b2n (b : Bool) : Nat := if b then 1 else 0

/-- `v` read as a two's complement number of `w` bits. -/
def signed (w v : Nat) : Int := if v % 2 ^ w < 2 ^ (w - 1) then (v % 2 ^ w : Nat) else (v % 2 ^ w : Nat) - (2 ^ w : Nat)

/-- The two's complement code of `i` in `w` bits. -/
def unsigned (w : Nat) (i : Int) : Nat := (i % (2 ^ w : Nat)).toNat

def i8 (r : List Byte) (o : Nat) : Int := signed 8 (u8 r o)
def i32 (r : List Byte) (o : Nat) : Int := signed 32 (u32 r o)
def i64 (r : List Byte) (o : Nat) : Int := signed 64 (u64 r o)

/-- `v` with bit `i` set. -/
def setBit (v i : Nat) : Nat := if bit v i then v else v + 2 ^ i

/-- `v` without the bits of `m`. -/
def clearBits (v m : Nat) : Nat := v - (v &&& m)

/-- `v` limited to the range of a counter that saturates at `2 ^ w - 1`. -/
def sat (w v : Nat) : Nat := min v (2 ^ w - 1)

/-- A rational `n / d` rounded to the nearest integer, halves away from zero. -/
def roundDiv (n : Int) (d : Nat) : Int :=
  if 0 ≤ n then (2 * n + d) / (2 * d) else -((2 * (-n) + d) / (2 * d))

/-- One step of a reflected CRC: the register shifted right once. -/
def crcStepR (poly r : Nat) : Nat := if r % 2 = 1 then (r / 2) ^^^ poly else r / 2

/-- `n` steps of a reflected CRC. -/
def crcStepsR (poly : Nat) : Nat → Nat → Nat
  | 0, r => r
  | n + 1, r => crcStepsR poly n (crcStepR poly r)

/-- CRC-32C (R10): the Castagnoli polynomial reflected, start and final XOR of all ones. -/
def crc32c (bs : List Byte) : Nat :=
  (bs.foldl (fun r b => crcStepsR 0x82F63B78 8 (r ^^^ b.toNat)) 0xFFFFFFFF) ^^^ 0xFFFFFFFF

/-- One step of a CRC of `w` bits that takes the most significant bit first. -/
def crcStepL (w poly r : Nat) : Nat :=
  if bit r (w - 1) then ((r * 2) % 2 ^ w) ^^^ poly else (r * 2) % 2 ^ w

def crcStepsL (w poly : Nat) : Nat → Nat → Nat
  | 0, r => r
  | n + 1, r => crcStepsL w poly n (crcStepL w poly r)

/-- The SMBus packet error code (R489): CRC-8, polynomial x⁸ + x² + x + 1, start 0. -/
def pec (bs : List Byte) : Nat := bs.foldl (fun r b => crcStepsL 8 0x07 8 (r ^^^ b.toNat)) 0

/-- A CRC of `w` bits over a list of bits, first bit first, start `init`. -/
def crcBits (w poly init : Nat) (l : List Bool) : Nat :=
  l.foldl (fun r b => if bit r (w - 1) != b then ((r * 2) % 2 ^ w) ^^^ poly else (r * 2) % 2 ^ w) init

end Sys2Proof.Machine
end

