-- ==== Sys2Proof/Machine/Sha.lean ====
section
/-! DEFINITION. SHA-256 and HMAC-SHA-256, which R354 to R360 name (PRESUMED, log 16: FIPS 180-4 and RFC 2104). -/

namespace Sys2Proof.Machine

/-- The prime numbers below 312, of which there are 64. -/
def shaPrimes : List Nat :=
  (List.range 312).filter fun n => decide (2 ≤ n) && (List.range 16).all fun d => n ≤ d + 2 || n % (d + 2) != 0

/-- The first 32 bits of the fractional part of the `k`-th root of `n`, with the root below 2⁵: its bits are found from the
highest down. -/
def rootBits (k n : Nat) : BitVec 32 :=
  BitVec.ofNat 32 ((List.range 37).foldr (fun b r => if (r + 2 ^ b) ^ k ≤ n * 2 ^ (32 * k) then r + 2 ^ b else r) 0)

/-- The round constants: from the cube roots of the first 64 primes. -/
def shaK : List (BitVec 32) := shaPrimes.map (rootBits 3)

/-- The first chaining value: from the square roots of the first 8 primes. -/
def shaH : List (BitVec 32) := (shaPrimes.take 8).map (rootBits 2)

/-- A 32-bit word from four bytes, most significant first. -/
def shaWord (bs : List Byte) : BitVec 32 :=
  BitVec.ofNat 32 (bs.foldl (fun n b => n * 256 + b.toNat) 0)

/-- A 32-bit word as four bytes, most significant first. -/
def shaBytes (w : BitVec 32) : List Byte := (le 4 w.toNat).reverse

/-- `n` further words of the message schedule, `w` newest first. -/
def shaSchedule : Nat → List (BitVec 32) → List (BitVec 32)
  | 0, w => w
  | n + 1, w =>
    let g := fun i => w.getD i 0
    let s0 := (g 14).rotateRight 7 ^^^ (g 14).rotateRight 18 ^^^ (g 14) >>> 3
    let s1 := (g 1).rotateRight 17 ^^^ (g 1).rotateRight 19 ^^^ (g 1) >>> 10
    shaSchedule n ((s1 + g 6 + s0 + g 15) :: w)

/-- One round on the eight working words. -/
def shaRound (v : List (BitVec 32)) (kw : BitVec 32) : List (BitVec 32) :=
  match v with
  | [a, b, c, d, e, f, g, h] =>
    let t1 := h + (e.rotateRight 6 ^^^ e.rotateRight 11 ^^^ e.rotateRight 25) + ((e &&& f) ^^^ (~~~e &&& g)) + kw
    let t2 := (a.rotateRight 2 ^^^ a.rotateRight 13 ^^^ a.rotateRight 22) + ((a &&& b) ^^^ (a &&& c) ^^^ (b &&& c))
    [t1 + t2, a, b, c, d + t1, e, f, g]
  | v => v

/-- One block of 64 bytes taken into the chaining value. -/
def shaBlock (h : List (BitVec 32)) (blk : List Byte) : List (BitVec 32) :=
  let w0 := (List.range 16).map fun i => shaWord ((blk.drop (4 * i)).take 4)
  let w := (shaSchedule 48 w0.reverse).reverse
  List.zipWith (· + ·) h ((List.zipWith (· + ·) shaK w).foldl shaRound h)

/-- `n` blocks from the front of the padded message. -/
def shaBlocks : Nat → List (BitVec 32) → List Byte → List (BitVec 32)
  | 0, h, _ => h
  | n + 1, h, bs => shaBlocks n (shaBlock h (bs.take 64)) (bs.drop 64)

/-- SHA-256. -/
def sha256 (m : List Byte) : List Byte :=
  let zeros := (119 - m.length % 64) % 64
  let p := m ++ 0x80 :: (List.replicate zeros 0 ++ (le 8 (8 * m.length)).reverse)
  ((shaBlocks (p.length / 64) shaH p).map shaBytes).flatten

/-- HMAC-SHA-256 under a key of at most 64 bytes. -/
def hmac (key m : List Byte) : List Byte :=
  let k := key ++ List.replicate (64 - key.length) 0
  sha256 (k.map (· ^^^ 0x5c) ++ sha256 (k.map (· ^^^ 0x36) ++ m))

end Sys2Proof.Machine
end

