-- ==== Sys2Proof/Machine/Ops.lean ====
section
/-! DEFINITION. The operations that every family shares: instants, free values, event records, counters, meters, the
TLPs and interrupts a port originates, the trace, and the fault list. -/

namespace Sys2Proof.Machine

/-- Instants and durations are counted in 2⁻¹⁶ ns. -/
def nsU : Nat := 65536
def usU : Nat := 65536 * 1000
def msU : Nat := 65536 * 1000000
def secU : Nat := 65536 * 1000000000

/-- The integer quotient `n / d` where the spec states no rounding: exact where `d` divides `n`, else a free choice
between the two neighbours (log 10). -/
def quot (n : Int) (d : Nat) : Int :=
  if d = 0 then 0 else if n % d = 0 then n / d else n / d + (if Config.roundUp n d then 1 else 0)

/-- The two-wire target's own view of the pages (R485) and its mailbox ID (R339). -/
def mtView : Nat := 0x4000

/-- Function number `f` (port × 128 + n) exists in the numbering of R362. -/
def validFn (f : Nat) : Bool := f < 256 && f % 128 < 64

/-- A reader of the pages: a function or MT. -/
def validView (v : Nat) : Bool := validFn v || v == mtView

/-- Mailbox IDs of R339: PCIe functions, MT, and remote mailboxes by Seam ID. -/
def validMb (m : Nat) : Bool := validView m || (0x8000 ≤ m && m < 0x8400)

/-- A channel number exists (R262). -/
def chanOk (isRead : Bool) (i : Nat) : Bool := if isRead then decide (i < 64) else decide (i < 256)

/-- A rate code and width that a port supports (R294). -/
def linkOk (rate width : Nat) : Bool :=
  decide (1 ≤ rate) && decide (rate ≤ 7) && (width == 1 || width == 4 || width == 8 || width == 16)

/-- Where the addressed memories of R196, R308, R378 and R424 lie in the model's one memory, by handle (log 3). -/
def bufBase (h : Nat) : Nat := 2 ^ 76 + h * 2 ^ 40
def tableBase (h : Nat) : Nat := 2 ^ 77 + h * 2 ^ 40
def overlayBase (h : Nat) : Nat := 2 ^ 78 + h * 2 ^ 40
def imageBase (i : Nat) : Nat := 2 ^ 79 + i * 2 ^ 40

/-- The delay that a Seam hop adds at most at a link's rate code, 2⁻¹⁶ ns (R333). -/
def hopBound (rate : Nat) : Nat := ([300, 410, 620, 1050].getD rate 1050) * 65536

namespace Chip

/-- T64 (R6): seconds × 10⁹ + nanoseconds, the fraction dropped. -/
def t64 (c : Chip) : Nat := c.time.tb / 65536

/-- The clock of durations, 2⁻¹⁶ ns since reset release. -/
def up (c : Chip) : Nat := c.time.up

/-- The functions of a port that exist: the PF, and the VFs that VF Enable has made (R301). -/
def portFns (c : Chip) (p : Nat) : List Nat :=
  let h := c.host p
  (p * 128) :: (if h.vfEnable then (List.range (min h.numVfs 63)).map (p * 128 + 1 + ·) else [])

/-- The views that hold event flags: every function and MT (R499). -/
def views (c : Chip) : List Nat := c.portFns 0 ++ c.portFns 1 ++ [mtView]

/-- Reads and writes of a function that exists reach its BARs through a trained port that is not FROZEN (R296, R318), not in
D3hot (R300), and not during a function-level reset (R315). MT always reaches its space. -/
def reaches (c : Chip) (view : Nat) : Bool :=
  let h := c.host (view / 128)
  256 ≤ view || ((h.state == .early || h.state == .service) && (c.portFns (view / 128)).contains view && !(c.fn view).d3 &&
    !(c.fn view).flr)

/-- A free value of kind `kind` in the device's draws (log 5). -/
def fresh (c : Chip) (kind : Nat) (args : List Nat) : Nat := Config.openValue kind c.draw args

/-- The next draw. -/
def drawn (c : Chip) : Chip := { c with draw := c.draw + 1 }

/-- Adds `n` to counter `k` (R509). -/
def count (c : Chip) (k n : Nat) : Chip :=
  if n = 0 then c else { c with ev.counters := c.ev.counters.upd 0 k (· + n) }

/-- Produces an event record with its TIME given (R497): it waits for the router, and the line's counter counts it. -/
def emitAt (c : Chip) (line kind inst detail value time : Nat) : Chip :=
  let r : EventRec :=
    { line := line, kind := kind, inst := inst % 65536, detail := detail % 65536, value := value % 2 ^ 64, time := time,
      source := 0x3FF }
  ({ c with ev.waiting := c.ev.waiting ++ [r] } : Chip).count line 1

/-- Produces an event record at the instant of detection. -/
def emit (c : Chip) (line kind inst detail value : Nat) : Chip := c.emitAt line kind inst detail value c.t64

/-- Adds to what a resource instance has carried in the open window (R29). -/
def carry (c : Chip) (res inst n : Nat) : Chip :=
  let m := c.meter res inst
  c.setMeter res inst { m with now := m.now + n }

/-- Data waited at a resource instance in the open window (R30). -/
def waits (c : Chip) (res inst : Nat) : Chip := c.setMeter res inst { c.meter res inst with waited := true }

/-- Adds an entry to the fault list and reports it (R445); an item already listed stays as it is. -/
def addFault (c : Chip) (kind inst : Nat) : Chip :=
  if c.mgmt.faults.any (fun f => f.kind == kind && f.inst == inst) then c
  else
    ({ c with mgmt.faults := c.mgmt.faults ++ [{ kind := kind, inst := inst, since := c.up, t64 := c.t64 }] } : Chip).emit
      0x23 1 (kind * 256 + inst) 1 c.t64

/-- Removes an entry of the fault list and reports it (R445). -/
def dropFault (c : Chip) (kind inst : Nat) : Chip :=
  match c.mgmt.faults.find? (fun f => f.kind == kind && f.inst == inst) with
  | none => c
  | some f =>
    ({ c with mgmt.faults := c.mgmt.faults.filter fun g => !(g.kind == kind && g.inst == inst) } : Chip).emit
      0x23 1 (kind * 256 + inst) 2 f.t64

/-- An item stands in the fault list. -/
def faulted (c : Chip) (kind inst : Nat) : Bool := c.mgmt.faults.any fun f => f.kind == kind && f.inst == inst

/-- Records a trace record of group `g` (R506, R508) if the filter selects the group. -/
def trace (c : Chip) (g kind : Nat) (data : List Byte) (time : Nat) : Chip :=
  let t := c.ev.trace
  if t.sink = 0 || !bit t.filter g || (t.stopped && t.sink == 1) || (decide (32 ≤ g) && c.mbx.lockedPart) then c
  else if t.queue.length < 256 then
    let r : TraceRec :=
      { group := g, kind := kind, source := 0x3FF, time := time, dropped := t.dropped, tseq := t.tseq,
        data := (data ++ List.replicate 32 0).take 32 }
    ({ c with ev.trace := t.noted (t.queue ++ [r], (t.tseq + 1) % 2 ^ 32, 0, t.dropNew) } : Chip).count 0x4D 1
  else
    ({ c with ev.trace := t.noted (t.queue, t.tseq, sat 32 (t.dropped + 1), t.dropNew + 1) } : Chip).count 0x4E 1

/-- A trace record whose group has no layout of its own: its DATA is left open (log 15). -/
def traceOpen (c : Chip) (g kind : Nat) : Chip :=
  c.trace g kind ((List.range 32).map fun i => Config.traceByte g c.ev.trace.tseq i) c.t64

/-- The size of a function's MSI-X table (R313). -/
def vectors (c : Chip) (f : Nat) : Nat :=
  let h := c.host (f / 128)
  if f % 128 = 0 then 256 else if h.numVfs = 0 then 0 else min h.vecLimit (8 * (1792 / (8 * h.numVfs)))

/-- A class U TLP into a port's issue queue, in the order of start instants, ties in ascending function (R329). -/
def insertU (q : List Tlp) (t : Tlp) : List Tlp :=
  let before := fun (a : Tlp) => decide (a.start < t.start) || (a.start == t.start && decide (a.fn ≤ t.fn))
  q.takeWhile before ++ t :: q.dropWhile before

/-- A class U TLP takes an entry of the issue queue, which has 128, or waits for one (R325, R334). -/
def pushU (h : HostSt) (t : Tlp) : HostSt :=
  if h.qU.length < 128 && h.uWait.isEmpty then { h with qU := insertU h.qU t } else { h with uWait := insertU h.uWait t }

/-- Entries of the issue queue that came free go to what waits for one. -/
def refillU (h : HostSt) : HostSt :=
  let n := 128 - h.qU.length
  { h with qU := (h.uWait.take n).foldl insertU h.qU, uWait := h.uWait.drop n }

/-- Bytes of the completions to a read of `n` bytes at address `a` (R309): none is longer than the payload size, and one that
another follows ends at a Read Completion Boundary of 64 bytes. -/
def cutCpl (mps : Nat) : Nat → Nat → Nat → List Nat
  | 0, _, _ => []
  | fuel + 1, a, n =>
    let k := min n (mps - a % 64)
    if n ≤ k then [n] else k :: cutCpl mps fuel (a + k) (n - k)

/-- A function's request that started at address `a` is completed with what was read (R309, R311): the completions enter the
transmit queue behind everything that is in it. MT's reads are not PCI Express requests. -/
def complete (c : Chip) (view status a : Nat) : Chip :=
  if 256 ≤ view then c
  else
    let p := view / 128
    let h := c.host p
    let cut := cutCpl (128 * 2 ^ h.mps) (c.rd.length / 64 + 2) a c.rd.length
    let tlps := (cut.zip (cut.scanl (· + ·) 0)).map fun k =>
      ({ cls := 3, fn := view, kind := .completion status, addr := 0, data := (c.rd.drop k.2).take k.1, size := k.1 + 16,
         start := c.up, vecs := [] } : Tlp)
    ((c.setHost p { h with tx := h.tx ++ tlps }).count (0xD00 + 64 * p + 3) ((tlps.map (·.size)).foldl (· + ·) 0)).carry 4 p
      c.rd.length

/-- A read that a function does not serve: a trained port completes it with UR, without data (R300, R315); a port that is
FROZEN or DOWN does not answer (R296, R318). -/
def turnAway (c : Chip) (view a : Nat) : Chip :=
  let st := (c.host (view / 128)).state
  if st = .early || st = .service then ({ c with rd := [] } : Chip).complete view 1 a else { c with rd := [] }

/-- A read by a function or MT from address `a` on: `f` serves it where it reaches the function's BARs. -/
def readBy (c : Chip) (view a : Nat) (f : Chip → Chip) : Chip :=
  if c.reaches view then (f c).complete view 0 a else c.turnAway view a

/-- An uncorrectable error that AER records for a function (R299, R318): its status bit, and the header of the first error's
TLP, which no row brings (log 59). -/
def aerNote (c : Chip) (f k : Nat) : Chip :=
  let g := c.fn f
  let log := if g.aer = 0 then (List.range 4).map fun i => c.fresh 59 [f, k, i] % 2 ^ 32 else g.aerLog
  (c.setFn f { g with aer := setBit g.aer k, aerLog := log }).drawn

/-- Sends the MSI-X message of a function's vector (R313): masked, it stays pending. -/
def msix (c : Chip) (f v : Nat) : Chip :=
  let fs := c.fn f
  let h := c.host (f / 128)
  if !fs.msixOn || decide (c.vectors f ≤ v) then c
  else
    let e := fs.msix.getD MsixEntry.reset v
    if fs.msixMask || e.masked then c.setFn f { fs with msix := fs.msix.put v { e with pending := true } }
    else if h.state = .down || h.state = .frozen || !fs.bme || fs.d3 || fs.flr then
      c.setHost (f / 128) { h with discarded := h.discarded + 1 }
    else
      let t : Tlp :=
        { cls := 0, fn := f, kind := .msix v, addr := e.addr, data := le 4 e.data, size := 20, start := c.up,
          vecs := [] }
      c.setHost (f / 128) (pushU h t)

/-- Sends a class U record of a function to host memory (R325, R328), or discards and counts it where the port is not
in SERVICE (R335). -/
def sendU (c : Chip) (f : Nat) (kind : TlpKind) (addr : Nat) (data : List Byte) (start : Nat) (vecs : List Nat)
    (allow : Nat := 0) : Chip :=
  let h := c.host (f / 128)
  let fs := c.fn f
  if h.state = .service && fs.bme && !fs.d3 && !fs.flr then
    c.setHost (f / 128)
      (pushU h { cls := 0, fn := f, kind := kind, addr := addr, data := data, size := data.length + 16, start := start,
                 vecs := vecs, allow := allow })
  else c.setHost (f / 128) { h with discarded := h.discarded + 1 }

/-- Sends a class M TLP of a function (R325); where the port is not in SERVICE it is not issued. -/
def sendM (c : Chip) (f : Nat) (kind : TlpKind) (addr : Nat) (data : List Byte) (vecs : List Nat) : Chip :=
  let h := c.host (f / 128)
  let fs := c.fn f
  if h.state = .service && fs.bme && !fs.d3 && !fs.flr then
    c.setHost (f / 128)
      { h with qM := h.qM ++ [{ cls := 3, fn := f, kind := kind, addr := addr, data := data, size := data.length + 16,
                                start := c.up, vecs := vecs }] }
  else c

/-- Payload bytes padded with 0 to whole blocks of 32 bytes (R388). -/
def blocks (bs : List Byte) : List Byte := bs ++ List.replicate ((32 - bs.length % 32) % 32) 0

/-- The Seam ID of the fabric root, where it is known (R396). -/
def rootId (c : Chip) : Option Nat :=
  match c.seam.root with
  | none => none
  | some r => if r = Config.serial.toNat then c.seam.id else (c.seam.assigned.find? (·.1 == r)).map (·.2)

/-- The routing table holds a reachable destination (R399). -/
def reachable (c : Chip) (dest : Nat) : Bool := (c.seam.routes.getD RouteSt.none dest).valid

/-- Originates a routed flit (R394): only with a Seam ID and a route; class U with an alternate on both routes (R402). -/
def originate (c : Chip) (cls kind dest stream : Nat) (payload : List Byte) : Chip :=
  match c.seam.id with
  | none => c
  | some me =>
    let r := c.seam.routes.getD RouteSt.none dest
    if !r.valid || dest == me then c
    else
      let k := dest * 4 + cls
      let e := c.seam.esnTx.getD 0 k
      let f : Flit :=
        { kind := kind, cls := cls, src := me, dest := dest, hops := 0, stream := stream, esn := e, alt := false,
          payload := blocks payload }
      let q : QFlit := { inLink := none, out := none, flit := f }
      let more := if cls = 0 && r.alt != 0xFF then [{ q with flit := { f with alt := true } }] else []
      { c with seam.esnTx := c.seam.esnTx.put k ((e + 1) % 2 ^ 32), seam.queue := c.seam.queue ++ q :: more }

/-- The numbers of the links that are UP or DEGRADED (R384). -/
def upLinks (c : Chip) : List Nat :=
  (c.seam.links.filter fun p => p.2.state = .up || p.2.state = .degraded).map (·.1)

/-- Floods a flit of class M on every UP link but one (R395, R397, R415). -/
def flood (c : Chip) (kind : Nat) (payload : List Byte) (but : Option Nat) : Chip :=
  let f : Flit :=
    { kind := kind, cls := 3, src := 0, dest := 0, hops := 0, stream := 0, esn := 0, alt := false,
      payload := blocks payload }
  let q := ((c.upLinks).filter fun l => but != some l).map fun l =>
    ({ inLink := none, out := some l, flit := f } : QFlit)
  { c with seam.queue := c.seam.queue ++ q }

/-- A calibration that the command of a mailbox was waiting for is given up with it (R167, R343). -/
def stopCalib (c : Chip) (mb : Nat) : Chip :=
  { c with cam.ports := c.cam.ports.mapVals fun _ (t : PortSt) =>
      if t.calib.any (·.mailbox == mb) then { t with calib := none } else t }

/-- Resolves an event to a window at `time` (R66): it waits to act in the order of resolved instants. -/
def winPush (c : Chip) (w time : Nat) (stop : Bool) : Chip :=
  let ws := c.window w
  let l := ws.events
  let evs := l.takeWhile (fun e => decide (e.at_ ≤ time)) ++ { at_ := time, stop := stop } ::
    l.dropWhile (fun e => decide (e.at_ ≤ time))
  c.setWindow w { ws with events := evs }

/-- Delivers an event of kind command to a window (R66): to its event of that kind, with two of them the one it waits
for; a window with none ignores and counts it. -/
def winCommand (c : Chip) (w time : Nat) : Chip :=
  let ws := c.window w
  let s := decide (ws.start = .command)
  let p := decide (ws.stop = .command)
  if ws.phase = .unarmed || (!s && !p) then c.setWindow w { ws with ignored := ws.ignored + 1 }
  else if s && p then c.winPush w time (ws.phase = .opened || ws.events.any (!·.stop))
  else c.winPush w time p

/-- Runs `f` over a list, threading the chip. -/
def foldC {α : Type} (c : Chip) (l : List α) (f : Chip → α → Chip) : Chip := l.foldl f c

end Chip

end Sys2Proof.Machine
end

