-- ==== Sys2Proof/Machine/EventOps.lean ====
section
/-! DEFINITION. Event routing (R497 to R505), the trace's sinks (R508) and the latching of snapshots (R511). -/

namespace Sys2Proof.Machine

/-- An event record's 32 bytes under sequence number `seq` (R260, R497). -/
def EventRec.bytes (r : EventRec) (seq : Nat) : List Byte :=
  let b := le 2 (r.line * 256 + r.kind) ++ le 2 r.source ++ le 4 seq ++ le 8 r.time ++ le 2 r.inst ++ le 2 r.detail ++
    le 8 r.value
  b ++ le 4 (crc32c b)

/-- The fixed matrix of R500: line `l` is wired to consumer `k`. -/
def wired (l k : Nat) : Bool :=
  if k ≤ 3 || k == 5 then true
  else if k = 4 then !(l == 3 || l == 4 || l == 5)
  else if k = 6 || k = 7 then !(l == 3 || l == 4 || l == 5 || l == 0x2A || l == 0x2B || l == 0x2C)
  else decide (k < 24) && (l == 3 || l == 7 || l == 8 || l == 0xA || l == 0x21 || l == 0x22)

/-- The ALERT_SRC bit that a record of a line sets when it is written (R490): SAFE, FREEZE, THERMAL, MGMT, BUS. -/
def alertBit (l : Nat) : Option Nat :=
  if l = 0x22 then some 0 else if l = 0x19 then some 1 else if l = 0x26 then some 2 else if l = 0x24 then some 3
  else if l = 0x25 || l = 0x29 then some 7 else none

namespace Chip

/-- Connection enables of a line for a record of TIME `t`: a change applies to records whose TIME is after its effect
instant; at reset those to EVF and the two ring consumers (R500). -/
def routeMask (c : Chip) (l t : Nat) : Nat :=
  match (c.ev.routes.getD [] l).find? fun p => decide (p.1 < t) with
  | some p => p.2
  | none => 7

/-- A connection is enabled for a record (R500). -/
def routed (c : Chip) (l k t : Nat) : Bool := wired l k && bit (c.routeMask l t) k

/-- Sets an enable bit from the present instant on (R500). -/
def setRoute (c : Chip) (l k : Nat) (on : Bool) : Chip :=
  let m := match c.ev.routes.getD [] l with | p :: _ => p.2 | [] => 7
  let m := if on then setBit m k else clearBits m (2 ^ k)
  { c with ev.routes := c.ev.routes.upd [] l ((c.t64, m) :: ·) }

/-- Sets a bit of ALERT_SRC; a bit that was 0 becomes unreported (R491). -/
def alert (c : Chip) (b : Nat) : Chip :=
  if bit c.mt.src b then c
  else { c with mt.src := setBit c.mt.src b, mt.reported := clearBits c.mt.reported (2 ^ b) }

/-- A record is in the scope of a function (R503): every record for a PF, the listed ones for a VF. -/
def inScope (c : Chip) (f : Nat) (r : EventRec) : Bool :=
  if f % 128 = 0 then true
  else if r.line = 0x15 then
    match c.stream? r.inst with
    | some s => !s.place.seam && (s.place.fn == f || (s.prot && s.place.altFn == f))
    | none => false
  else if r.line = 0x2F then r.inst / 256 == f
  else if r.line = 0x1B then r.inst == f
  else if r.line = 0x18 || r.line = 0x19 || r.line = 0x1A then r.inst == f / 128
  else false

/-- The sticky flag of a line in the event flag page of each function in scope and of MT (R499, R505). -/
def setFlags (c : Chip) (r : EventRec) : Chip :=
  c.foldC (c.views.filter fun v => v == mtView || c.inScope v r) fun c v =>
    { c with ev.evfLine := c.ev.evfLine.upd 0 v (setBit · r.line) }

/-- A busy consumer does not act (R502): flag, counter, and a CONSUMER_OVERRUN record now or 1 ms after the last. -/
def overrun (c : Chip) (k l : Nat) : Chip :=
  let o := (c.ev.overruns.find? k).getD { since := 0, first := l, last := none }
  let o := if o.since = 0 then { o with first := l } else o
  let c := ({ c with ev.evfCons := setBit c.ev.evfCons k } : Chip).count (0x30 + k) 1
  let due := match o.last with | none => true | some t => decide (t + msU ≤ c.up)
  if due then
    let c := { c with ev.overruns := c.ev.overruns.put k { o with since := 0, last := some c.up } }
    c.emit 0x2C 1 k o.first (o.since + 1)
  else { c with ev.overruns := c.ev.overruns.put k { o with since := o.since + 1 } }

/-- Writes a record to the event ring of a function (R503, R504). -/
def ringWrite (c : Chip) (f : Nat) (r : EventRec) : Chip :=
  match c.ev.rings.find? f with
  | none => c
  | some g =>
    let entries := 2 ^ g.log2
    let held := (g.wr + 2 ^ 32 - g.rel) % 2 ^ 32
    let past := decide (entries ≤ held)
    let vecs := if held = 0 then [g.vector] else []
    let c := { c with ev.rings := c.ev.rings.put f { g with wr := (g.wr + 1) % 2 ^ 32, overrun := g.overrun || past } }
    let c := c.sendU f .event (g.base + 32 * (g.wr % entries)) (r.bytes g.wr) (c.up - (c.time.tb - r.time * 65536)) vecs r.allow
    if past then c.overrun (1 + f / 128) r.line else c

/-- Writes a record to the MT queue of 64 entries and sets the EVENT alert (R499, R504). -/
def mtWrite (c : Chip) (r : EventRec) : Chip :=
  let n := c.ev.mtWr
  let held := (n + 2 ^ 32 - c.ev.mtRel) % 2 ^ 32
  let past := decide (64 ≤ held)
  let c := { c with ev.mtEntries := c.ev.mtEntries.put (n % 64) (r.bytes n), ev.mtWr := (n + 1) % 2 ^ 32,
                    ev.mtOverrun := c.ev.mtOverrun || past }
  (if past then c.overrun 3 r.line else c).alert 6

/-- Relays a record to the fabric root (R414); busy without a Seam ID or a route to the root. -/
def seamRelay (c : Chip) (r : EventRec) : Chip :=
  match c.seam.id, c.rootId with
  | some me, some root =>
    if root = me then c
    else if c.reachable root then c.originate 0 0x20 root 0 ({ r with source := 1024 + me }.bytes 0)
    else c.overrun 4 r.line
  | _, _ => c.overrun 4 r.line

/-- The size of the trace ring in records, in the frame store or in host memory. -/
def traceEntries (c : Chip) : Nat :=
  2 ^ (if c.ev.trace.sink = 1 then c.ev.trace.sizeLog2 else c.ev.trace.hostLog2) / 64

/-- The 64 bytes of a trace record (R507). -/
def traceBytes (r : TraceRec) : List Byte :=
  let b := le 2 r.source ++ le 1 r.group ++ le 1 r.kind ++ le 4 r.dropped ++ le 4 r.tseq ++ List.replicate 8 0 ++
    le 8 r.time ++ r.data
  b ++ le 4 (crc32c b)

/-- The trace queue into its sink (R508). -/
def flushTrace (c : Chip) : Chip :=
  let t := c.ev.trace
  let n := max 1 c.traceEntries
  let c := { c with ev.trace.queue := [] }
  if t.sink = 1 then
    c.foldC t.queue fun c r => { c with ev.trace.ring := c.ev.trace.ring.put (r.tseq % n) r }
  else if t.sink = 2 then
    c.foldC t.queue fun c r => c.sendM t.fn .trace (t.hostBase + 64 * (r.tseq % n)) (traceBytes r) []
  else c

/-- Latches every counter as snapshot `number` (R511). -/
def latch (c : Chip) (number instant : Nat) : Snapshot :=
  { number := number, instant := instant, done := true, missed := false, incomplete := false, fabric := false,
    ticket := none, values := c.ev.counters, origin := none, originNumber := number, peers := [], peerMissed := [] }

/-- The next snapshot number, never 0 (R379). -/
def nextSnap (n : Nat) : Nat := if n + 1 = 2 ^ 32 then 1 else n + 1

/-- One enabled consumer acts on a record (R499). -/
def consume (c : Chip) (r : EventRec) (k : Nat) : Chip :=
  if k = 0 then c.setFlags r
  else if k = 1 || k = 2 then
    c.foldC ((c.portFns (k - 1)).filter fun f => c.inScope f r) fun c f => c.ringWrite f r
  else if k = 3 then c.mtWrite r
  else if k = 4 then c.seamRelay r
  else if k = 5 then
    if 256 ≤ c.ev.trace.queue.length && c.ev.trace.sink != 0 then (c.trace 0 0 (r.bytes 0) r.time).overrun 5 r.line
    else c.trace 0 0 (r.bytes 0) r.time
  else if k = 6 then
    if 4 ≤ (c.ev.snaps.filter fun (t : Snapshot) => t.origin.isNone).length then c.overrun 6 r.line
    else
      let n := c.ev.snapNext
      let c := { c with ev.snaps := c.ev.snaps ++ [c.latch n c.t64], ev.snapNext := nextSnap n }
      c.emit 0x2A 1 0 2 (n * 2 ^ 32)
  else if k = 7 then
    if c.ev.trace.stopped || c.ev.trace.sink != 1 then c.overrun 7 r.line
    else
      let c := c.flushTrace
      let c := { c with ev.trace.stopped := true }
      c.emit 0x2B 1 c.ev.trace.sink r.line ((c.ev.trace.tseq + 2 ^ 32 - 1) % 2 ^ 32)
  else
    let w := k - 8
    let ws := c.window w
    if ws.phase = .unarmed || (ws.phase = .ended && !ws.rearm) ||
        !(decide (ws.start = .command) || decide (ws.stop = .command)) then c.overrun k r.line
    else c.winCommand w (r.time * 65536)

/-- A record reaches its consumers in ascending code (R499 to R501); a relayed record only 0x00 to 0x03 and 0x05. -/
def dispatchRec (c : Chip) (r : EventRec) : Chip :=
  let c := match alertBit r.line with | some b => if r.source = 0x3FF then c.alert b else c | none => c
  c.foldC ((List.range 24).filter fun k => c.routed r.line k r.time && (r.source == 0x3FF || k ≤ 3 || k == 5)) fun c k =>
    c.consume r k

/-- The router takes the oldest waiting record of a line (R501). -/
def routerTake (c : Chip) (l : Nat) : Chip :=
  match c.ev.waiting.find? (·.line == l) with
  | none => c
  | some r =>
    let before := c.ev.waiting.takeWhile (·.line != l)
    let after := (c.ev.waiting.dropWhile (·.line != l)).drop 1
    ({ c with ev.waiting := before ++ after } : Chip).dispatchRec r

/-- A deferred CONSUMER_OVERRUN record (R502). -/
def overrunRecord (c : Chip) (k : Nat) : Chip :=
  match c.ev.overruns.find? k with
  | none => c
  | some o =>
    if o.since = 0 then c
    else
      let c := { c with ev.overruns := c.ev.overruns.put k { o with since := 0, last := some c.up } }
      c.emit 0x2C 1 k o.first o.since

/-- TRACE_DROP for the records dropped since the last (R508). -/
def traceDropReport (c : Chip) : Chip :=
  if c.ev.trace.dropNew = 0 then c
  else
    let n := c.ev.trace.dropNew
    ({ c with ev.trace.dropNew := 0 } : Chip).emit 0x2B 2 c.ev.trace.sink 0 n

/-- A release of event records (R504): accepted only up to the records written, else ignored. -/
def ringRelease (c : Chip) (view v : Nat) : Chip :=
  let ok := fun (wr rel : Nat) => decide ((v + 2 ^ 32 - rel) % 2 ^ 32 ≤ (wr + 2 ^ 32 - rel) % 2 ^ 32)
  if view = mtView then
    if ok c.ev.mtWr c.ev.mtRel then { c with ev.mtRel := v % 2 ^ 32 } else c
  else
    match c.ev.rings.find? view with
    | none => c
    | some g => if ok g.wr g.rel then { c with ev.rings := c.ev.rings.put view { g with rel := v % 2 ^ 32 } } else c

end Chip

end Sys2Proof.Machine
end

