-- ==== Sys2Proof/Machine/Mailbox.lean ====
section
/-! DEFINITION. Mailboxes: the ends of commands (R341, R343, R348), tickets (R347), the audit log (R358, R359), rights
(R351 to R356), relays (R350, R413), and the one procedure that takes a command through R345 and R346. -/

namespace Sys2Proof.Machine

/-- Status codes of R364. -/
def stOK : Nat := 0
def stPENDING : Nat := 1
def stBADARG : Nat := 0x10
def stBADSTATE : Nat := 0x11
def stNORIGHT : Nat := 0x12
def stBUSY : Nat := 0x13
def stCANCELLED : Nat := 0x14
def stTIMEOUT : Nat := 0x15
def stLIMIT : Nat := 0x20
def stNOCAP : Nat := 0x21
def stINTERNAL : Nat := 0x30

/-- Who issues a command and how: what the checks and the audit entry need of its mailbox. -/
structure Ctx where
  /-- mailbox ID -/
  mb : Nat
  /-- opcode -/
  opcode : Nat
  /-- handle in the header -/
  session : Nat
  /-- the open session of the mailbox, if the header's handle is its -/
  sess : Option Session
  /-- role under which it is issued, 0 none -/
  role : Nat
  /-- slot of the session -/
  slot : Nat
  /-- R354: an UNPROVISIONED device grants every group to this mailbox -/
  grantAll : Bool
  /-- R354: an UNPROVISIONED device grants this mailbox only the commands marked "any" -/
  anyOnly : Bool
  /-- T64 at which the doorbell was taken -/
  doorbell : Nat

/-- How a command's checks end (R345, R346). -/
inductive Res
  /-- a check fails: status, and the refusal detail of R26 where there is one; nothing changes -/
  | refuse (status : Nat) (rsp : List Byte)
  /-- a check fails and the command's chapter makes the refusal itself visible in the state: status, response, and
  that change -/
  | refuseC (status : Nat) (rsp : List Byte) (f : Chip → Chip)
  /-- a command of the first group, or one that is not recorded as a command: its status, its RSP_FLAGS, its response
  and what it changes -/
  | ends (status flags : Nat) (rsp : List Byte) (f : Dev → Dev)
  /-- the commit point is reached: the change with its response -/
  | commit (f : Dev → Dev × List Byte)
  /-- the commit point is reached and the change comes later: ticket kind and instant, the change made now, response -/
  | later (kind : Nat → TicketKind) (instant : Nat) (f : Nat → Dev → Dev × List Byte)
  /-- the command waits on an outside party (R344) -/
  | park (on : ParkKind) (f : Dev → Dev)

/-- Refuses with no detail. -/
def Res.no (st : Nat) : Res := .refuse st []

/-- A change of the chip with no response. -/
def Res.doC (f : Chip → Chip) : Res := .commit fun d => (d.onChip f, [])

/-- A change of the chip with a response. -/
def Res.doR (f : Chip → Chip × List Byte) : Res := .commit fun d => ({ d with chip := (f d.chip).1 }, (f d.chip).2)

/-- A plain answer. -/
def Res.say (rsp : List Byte) : Res := .ends stOK 0 rsp id

/-- One command of the command set: its row in the tables of R366 to R379, and its meaning. -/
structure Cmd where
  /-- opcode -/
  opcode : Nat
  /-- roles that may issue it; empty for "any" -/
  roles : List Nat
  /-- LENGTH is right for the opcode and the request bytes (R361) -/
  size : List Byte → Bool
  /-- first stage that offers its object (R461), 2 to 4 -/
  stage : Nat := 2
  /-- a VF mailbox may name this object (R352, R383) -/
  scope : Chip → Nat → List Byte → Bool := fun _ _ _ => false
  /-- R464: the object whose stored configuration it sets -/
  cfg : List Byte → Chip → Option Nat := fun _ _ => none
  /-- R464: stored commands that it makes void: opcode and object -/
  uncfg : List Byte → List (Nat × Nat) := fun _ => []
  /-- checks 3 to 6 and the change -/
  body : Ctx → List Byte → Dev → Res
  /-- the rest of the command once its outside party has answered (R344) -/
  resume : Ctx → List Byte → Nat × List Byte → Dev → Res := fun _ _ _ _ => .no stINTERNAL

namespace Chip

/-- `n` bytes of the next draw of the random source (log 5). -/
def random (c : Chip) (n : Nat) : List Byte := (List.range n).map fun i => Config.randomByte c.draw i

/-- The handle of a session that opens now (R355): random and not 0. -/
def newHandle (c : Chip) : Nat := max 1 (leNat (c.random 4))

/-- No MAKER slot is ACTIVE: UNPROVISIONED (R354). -/
def unprovisioned (c : Chip) : Bool :=
  !([0, 1, 2, 3].any fun i => (c.mbx.keys.getD { state := 0, key := [] } i).state == 1)

/-- The slot index of a role's slot (R354): MAKER 0 to 3, INSTALLER 4 to 11, OPERATOR 12 to 27. -/
def slotIndex (role slot : Nat) : Nat := if role = 1 then slot else if role = 2 then 4 + slot else 12 + slot

/-- A slot number exists for a role (R354). -/
def slotOk (role slot : Nat) : Bool :=
  (role == 1 && slot < 4) || (role == 2 && slot < 8) || (role == 3 && slot < 16)

/-- The first 32 bytes of an audit entry (R359). -/
def auditHead (e : AuditEntry) : List Byte :=
  le 4 e.entry ++ le 8 e.time ++ le 2 e.opcode ++ le 2 e.status ++ le 1 e.role ++ le 1 e.slot ++ le 2 e.mailbox ++
    le 4 e.session ++ e.digest

/-- The HASH that precedes entry 0 (R359). -/
def auditSeed : List Byte :=
  sha256 ([0x4B, 0x4E, 0x36, 0x37, 0x32, 0x2D, 0x41, 0x55, 0x44, 0x49, 0x54] ++ le 8 Config.serial.toNat)

/-- Writes an entry to the audit log (R358, R359): `kind` 0 command, 1 session open, 2 session end, 3 ticket end. -/
def audit (c : Chip) (kind opcode status role slot mb session : Nat) (digest : List Byte) : Chip :=
  let n := c.mbx.auditNext
  let e : AuditEntry :=
    { entry := n, time := c.t64, opcode := opcode, status := status, role := kind * 4 + role % 4, slot := slot,
      mailbox := mb, session := session, digest := digest, hash := [] }
  let prev := if n = 0 then auditSeed else c.mbx.auditHash
  let h := sha256 (prev ++ auditHead e)
  { c with mbx.audit := c.mbx.audit.put (n % 8192) { e with hash := h }, mbx.auditNext := n + 1, mbx.auditHash := h }

/-- Ends the open session of a mailbox with its cause (R356, R359). -/
def endSession (c : Chip) (mb cause : Nat) : Chip :=
  let b := c.box mb
  match b.sess with
  | none => c
  | some s =>
    (c.setBox mb { b with sess := none }).audit 2 0 cause s.role s.slot mb s.handle (List.replicate 8 0)

/-- The port of a PCIe mailbox is FROZEN (R349). -/
def boxFrozen (c : Chip) (mb : Nat) : Bool := mb < 256 && (c.host (mb / 128)).state == .frozen

/-- Changes MBX_STATE (R343), with its trace record (R506). -/
def setMbxState (c : Chip) (mb : Nat) (st : MbxState) : Chip :=
  (c.setBox mb { c.box mb with state := st }).traceOpen 1 0

/-- Signals the end of a command where REQ_FLAGS.IRQ asks for it (R348). -/
def signalEnd (c : Chip) (mb : Nat) : Chip :=
  let b := c.box mb
  if b.reqFlags % 2 = 0 then c
  else if mb = mtView then c.alert 4
  else if mb < 256 then c.msix mb b.vector
  else c

/-- The header as it stands, 32 bytes (R340). -/
def headerBytes (b : Mailbox) : List Byte :=
  le 2 b.opcode ++ le 2 b.seq ++ le 4 b.length ++ le 4 b.session ++ le 2 b.target ++ le 1 b.reqFlags ++
    le 1 b.rspFlags ++ le 2 b.status ++ List.replicate 14 0

/-- A mailbox with the end of its command in the header and the response area (R340, R348). `flags`: bit 0 AUDITED,
1 TICKET, 2 UNKNOWN. -/
def answered (b : Mailbox) (status flags : Nat) (rsp : List Byte) : Mailbox :=
  { b with rsp := b.rsp.writeBytes 0 rsp, length := rsp.length, rspFlags := flags, status := status, parked := none }

/-- Counts the end of a command (R510). -/
def countEnd (c : Chip) (status : Nat) : Chip :=
  let c := c.count (if status = 0 then 0x4A else 0x4B) 1
  if status = stNOCAP then c.count 0x4C 1 else c

/-- A command ends (R341, R348): response area, LENGTH, RSP_FLAGS, STATUS, then DONE, or HELD through a freeze (R349);
a remote mailbox answers over the fabric (R413). -/
def endCommand (c : Chip) (mb status flags : Nat) (rsp : List Byte) : Chip :=
  let b := answered (c.box mb) status flags rsp
  let c := (c.setBox mb b).countEnd status
  if c.boxFrozen mb then c.setMbxState mb .held
  else if 0x8000 ≤ mb then
    (c.setMbxState mb .done).originate 3 0x31 (mb - 0x8000) 0 (headerBytes b ++ rsp)
  else (c.setMbxState mb .done).signalEnd mb

/-- REQ_DIGEST of R359. -/
def reqDigest (b : Mailbox) (req : List Byte) : List Byte := (sha256 ((headerBytes b).take 16 ++ req)).take 8

/-- The request bytes of a mailbox, LENGTH of them. -/
def requestOf (c : Chip) (mb : Nat) : List Byte := (c.box mb).req.readBytes 0 (min (c.box mb).length 4096)

/-- Who issues the command that stands in a mailbox (R351 to R356). -/
def ctxOf (c : Chip) (mb : Nat) : Ctx :=
  let b := c.box mb
  let sess := match b.sess with
    | some s => if s.handle = b.session then some s else none
    | none => none
  { mb := mb, opcode := b.opcode, session := b.session, sess := sess,
    role := (sess.map (·.role)).getD 0, slot := (sess.map (·.slot)).getD 0,
    grantAll := c.unprovisioned && (mb == 0 || mb == 128 || mb == mtView),
    anyOnly := c.unprovisioned && !(mb == 0 || mb == 128 || mb == mtView), doorbell := b.doorbell }

/-- A limit is set anew: while commands wait, what it was is kept for them (R357). -/
def noteLimit (c : Chip) (kind key : Nat) (old : List Nat) : Chip :=
  let waits := (c.mbx.boxes.filter fun e => e.2.state == .queued).map fun e => e.2.order
  if waits.isEmpty then c
  else
    let live := c.mbx.limits.filter fun n => waits.any fun t => decide (t ≤ n.endAt)
    { c with mbx.limits := live ++ [{ kind := kind, key := key, endAt := c.up, old := old }] }

/-- The limit that bounds the command of a mailbox (R357): as it stood when the doorbell was taken; `now`: as it stands. -/
def limitFor (c : Chip) (mb kind key : Nat) (now : List Nat) : List Nat :=
  match c.mbx.limits.find? fun n => n.kind == kind && n.key == key && decide ((c.box mb).order ≤ n.endAt) with
  | some n => n.old
  | none => now

/-- Notes the use of a session (R356). -/
def useSession (c : Chip) (sess : Option Session) (mb : Nat) : Chip :=
  match sess with
  | some s => c.setBox mb { c.box mb with sess := some { s with used := c.up } }
  | none => c

/-- Step 2 of R345: session, role and scope (R351 to R356, R383); ROLE.PROGRAM_KEY and ROLE.REVOKE_KEY are not relayed
(R350, R354). -/
def mayIssue (c : Chip) (m : Cmd) (x : Ctx) (req : List Byte) : Bool :=
  if 0x8000 ≤ x.mb ∧ (m.opcode = 0x0904 ∨ m.opcode = 0x0905) then false
  else if m.roles = [] then true
  else if x.grantAll then true
  else if x.anyOnly then false
  else
    match x.sess with
    | none => false
    | some s =>
      m.roles.contains s.role &&
        (if x.mb < 256 && x.mb % 128 != 0 then s.role == 3 && m.scope c x.mb req else true)

/-- A management pair is active (R450). -/
def pairActive (c : Chip) : Bool := c.mgmt.pairA == .active || c.mgmt.pairB == .active

/-- The stage as a number (R461). -/
def stageNo (c : Chip) : Nat :=
  match c.power.stage with | .s0 => 0 | .s1 => 1 | .s2 => 2 | .s3 => 3 | .s4 => 4

/-- Opcodes that recovery accepts (R463). -/
def recoveryOp (o : Nat) : Bool := o == 0x0101 || o == 0x0C01 || o == 0x0C02 || o == 0x0C03 || o == 0x0C04

/-- The mailboxes work: in recovery and from stage S2 (R461, R463), and the device is not held in reset. -/
def mailboxUp (c : Chip) : Bool :=
  !c.power.held && (decide (2 ≤ c.stageNo) || (c.power.stage == .s1 && c.power.recovery))

/-- Keeps the configuration commands in force (R464). -/
def journal (c : Chip) (m : Cmd) (req : List Byte) : Chip :=
  let drop := m.uncfg req
  let l := c.board.cfg.filter fun i => !(drop.any fun p => p.1 == i.opcode && p.2 == i.key)
  match m.cfg req c with
  | none => { c with board.cfg := l }
  | some k =>
    let it : CfgItem := { opcode := m.opcode, key := k, req := req }
    let l := if l.any (fun i => i.opcode == m.opcode && i.key == k) then
        l.map fun i => if i.opcode = m.opcode ∧ i.key = k then it else i
      else l ++ [it]
    { c with board.cfg := l }

/-- The committed change goes to the standby pair before it is applied (R448). -/
def mirror (c : Chip) : Chip :=
  if c.mgmt.pairA = .standby || c.mgmt.pairB = .standby then { c with mgmt.mirrored := c.mgmt.mirrored + 1 } else c

/-- Opens a ticket (R347). -/
def openTicket (c : Chip) (x : Ctx) (instant : Nat) (kind : TicketKind) : Chip :=
  let t : Ticket :=
    { id := c.mbx.nextTicket, opcode := x.opcode, mailbox := x.mb, instant := instant, session := x.session,
      role := x.role, slot := x.slot, kind := kind }
  { c with mbx.tickets := c.mbx.tickets ++ [t], mbx.nextTicket := (c.mbx.nextTicket + 1) % 2 ^ 32 }

/-- A ticket ends (R347): CMD_DONE, its second audit entry, the MT alert of R490, and a copy to the device that relayed
its command (R382). -/
def endTicket (c : Chip) (id status : Nat) : Chip :=
  match c.mbx.tickets.find? (·.id == id) with
  | none => c
  | some t =>
    let c := { c with mbx.tickets := c.mbx.tickets.filter (·.id != id) }
    let c := c.audit 3 t.opcode status t.role t.slot t.mailbox t.session (List.replicate 8 0)
    let v := id * 2 ^ 32 + status
    let c := c.emit 0x1B 1 t.mailbox t.opcode v
    let c := if t.mailbox = mtView then c.alert 5 else c
    if 0x8000 ≤ t.mailbox then
      let r : EventRec :=
        { line := 0x1B, kind := 1, inst := t.mailbox, detail := t.opcode, value := v, time := c.t64,
          source := 1024 + c.seam.id.getD 0x3FF }
      c.originate 0 0x20 (t.mailbox - 0x8000) 0 (r.bytes 0)
    else c

end Chip

/-- A ticket of a scheduled instant ends TIMEOUT (R381). -/
def Chip.ticketMissed (c : Chip) (t : Nat) : Chip := c.endTicket t stTIMEOUT

/-- The command claims its commit point (R346): the audit entry, the mirror, then the change and the end. A command of
the first group changes nothing that the audit records, but an opening of a session is recorded as one (R358, R359). -/
def commitCmd (m : Cmd) (x : Ctx) (req : List Byte) (status flags : Nat) (f : Dev → Dev × List Byte) (d : Dev) : Dev :=
  let c := d.chip
  if !c.mbx.auditOk then
    let c := (c.emit 0x1C 2 x.mb x.opcode 0).endCommand x.mb stINTERNAL 0 []
    { d with chip := c }
  else
    let c := (c.setBox x.mb { c.box x.mb with commitAt := some c.up }).setMbxState x.mb .committed
    let dg := Chip.reqDigest (c.box x.mb) req
    let c := if m.opcode = 0x0902 then c.audit 1 x.opcode status (u8 req 0) (u8 req 1) x.mb c.newHandle dg
      else c.audit 0 x.opcode status x.role x.slot x.mb x.session dg
    let r := f { d with chip := c.mirror }
    let c := r.1.chip.journal m req
    { r.1 with chip := c.endCommand x.mb status (flags + 1) r.2 }

/-- What follows the checks of a command (R345, R346): its refusal, answer, commit, ticket or parking. -/
def finish (m : Cmd) (x : Ctx) (req : List Byte) (res : Res) (d : Dev) : Dev :=
  let dry := bit (d.chip.box x.mb).reqFlags 1
  match res with
  | .refuse st rsp =>
    let c := d.chip
    let opens := m.opcode == 0x0902
    let noted := (!(m.roles.isEmpty) || opens) && !dry && m.opcode != 0x0908 && st != stTIMEOUT && st != stCANCELLED
    let dg := Chip.reqDigest (c.box x.mb) req
    let c :=
      if !noted then c
      else if opens then c.audit 1 x.opcode st (u8 req 0) (u8 req 1) x.mb 0 dg
      else c.audit 0 x.opcode st x.role x.slot x.mb x.session dg
    { d with chip := c.endCommand x.mb st (b2n noted) rsp }
  | .refuseC st rsp f =>
    let c := d.chip
    if dry then { d with chip := c.endCommand x.mb st 0 rsp }
    else
      let c := c.audit 0 x.opcode st x.role x.slot x.mb x.session (Chip.reqDigest (c.box x.mb) req)
      { d with chip := (f c).endCommand x.mb st 1 rsp }
  | .ends st fl rsp f => if dry then d.onChip fun c => c.endCommand x.mb st 0 rsp
    else (f d).onChip fun c => c.endCommand x.mb st fl rsp
  | .commit f => if dry then d.onChip fun c => c.endCommand x.mb stOK 0 [] else commitCmd m x req stOK 0 f d
  | .later kind instant f =>
    if 64 ≤ d.chip.mbx.tickets.length then
      d.onChip fun c =>
        (if dry then c else
          c.audit 0 x.opcode stBUSY x.role x.slot x.mb x.session (Chip.reqDigest (c.box x.mb) req)).endCommand
          x.mb stBUSY (b2n (!dry)) []
    else if dry then d.onChip fun c => c.endCommand x.mb stOK 0 []
    else
      let id := d.chip.mbx.nextTicket
      commitCmd m x req stPENDING 2 (fun d =>
        let r := f id (d.onChip fun c => c.openTicket x instant (kind id))
        (r.1, le 4 id ++ le 4 0 ++ r.2)) d
  | .park on f =>
    if dry then d.onChip fun c => c.endCommand x.mb stOK 0 []
    else (f d).onChip fun c =>
      c.setBox x.mb { c.box x.mb with parked := some { on := on, answer := none, cancelSent := false } }

/-- Checks a command in the order of R345 and carries it to its end or to parking. -/
def runLocal (m : Cmd) (mb : Nat) (d : Dev) : Dev :=
  let c := d.chip
  let req := c.requestOf mb
  let x := c.ctxOf mb
  let c := c.useSession x.sess mb
  let d := { d with chip := c }
  if !c.pairActive && !c.power.recovery then finish m x req (.no stINTERNAL) d
  else if !(decide ((c.box mb).length ≤ 4096) && m.size req) then finish m x req (.no stBADARG) d
  else if c.power.recovery && !Chip.recoveryOp m.opcode then finish m x req (.no stBADSTATE) d
  else if !(c.power.recovery || c.mayIssue m x req) then finish m x req (.no stNORIGHT) d
  else
    let early := decide (c.stageNo < m.stage) && !c.power.recovery
    match m.body x req d with
    | .refuse st rsp =>
      finish m x req (if early && st != stBADARG && st != stNORIGHT then .no stBADSTATE else .refuse st rsp) d
    | r => finish m x req (if early then .no stBADSTATE else r) d

/-- An opcode that the command set does not list ends BAD_ARG at step 1 (R365). -/
def unknownCmd (opcode : Nat) : Cmd :=
  { opcode := opcode, roles := [], size := fun _ => false, body := fun _ _ _ => .no stBADARG }

/-- Relays the command of a mailbox to another device (R350, R413), or ends it where the rules refuse that. -/
def runRelay (m : Cmd) (mb : Nat) (d : Dev) : Dev :=
  let c := d.chip
  let b := c.box mb
  let req := c.requestOf mb
  let x := c.ctxOf mb
  let waiting := c.seam.relays.filter fun r => r.target == b.target && !r.late
  if !c.pairActive then finish m x req (.no stINTERNAL) d
  else if !(decide (b.length ≤ 4096) && c.reachable b.target) then finish m x req (.no stBADARG) d
  else if m.opcode = 0x0904 || m.opcode = 0x0905 || (mb < 256 && mb % 128 != 0) then
    finish m x req (.no stNORIGHT) d
  else if 16 ≤ waiting.length then finish m x req (.no stBUSY) d
  else
    let bytes := Chip.headerBytes b ++ req
    let now := !(c.seam.relays.any fun r => r.target == b.target)
    let r : RelaySt := { mailbox := mb, target := b.target, sent := now, bytes := bytes, late := false }
    let c := { c with seam.relays := c.seam.relays ++ [r] }
    let c := if now then c.originate 3 0x30 b.target 0 bytes else c
    let c := if now && b.cancelDue then c.originate 3 0x32 b.target 0 (le 2 b.seq) else c
    let nb : Mailbox :=
      { b with parked := some { on := .relay b.target, answer := none, cancelSent := b.cancelDue } }
    { d with chip := c.setBox mb nb }

/-- The firmware takes the command of a mailbox (R344): here or on the device that TARGET names (R340, R4). -/
def takeWith (m : Cmd) (mb : Nat) (d : Dev) : Dev :=
  let c := (d.chip.setMbxState mb .running).count 0x49 1
  let d := { d with chip := c }
  let t := (c.box mb).target
  if t = 0x3FF || some t == c.seam.id || 0x8000 ≤ mb then runLocal m mb d else runRelay m mb d

namespace Chip

/-- A mailbox whose doorbell is taken (R343): QUEUED, with its place in the order and its deadline (R346). -/
def queued (c : Chip) (b : Mailbox) : Mailbox :=
  { b with state := .queued, stateSeq := b.seq, order := c.up, doorbell := c.t64,
           deadlineAt := c.up + (if b.deadline = 0 then 1000 else b.deadline) * msU, cancelDue := false, commitAt := none,
           parked := none }

/-- The doorbell of a mailbox is taken (R343). After the commit point of POWER.ENTER_STANDBY the command ends CANCELLED
(R468). -/
def ringBell (c : Chip) (mb : Nat) : Chip :=
  let c := (c.setBox mb (c.queued (c.box mb))).traceOpen 1 0
  if c.power.standby then c.endCommand mb stCANCELLED 0 [] else c

/-- GO written to a doorbell (R343). -/
def goBell (c : Chip) (mb seq : Nat) : Chip :=
  let b := c.box mb
  if !c.mailboxUp || !c.reaches mb then c
  else if (b.state = .idle || b.state = .done) && b.seq == seq % 65536 then c.ringBell mb
  else c.setBox mb { b with ignored := sat 16 (b.ignored + 1) }

end Chip

/-- A doorbell that comes now is not taken at once (R344, R472): an earlier one waits, or the core is held. -/
def Chip.bellWaits (c : Chip) : Bool := c.power.coreHold || c.mbx.boxes.any fun e => e.2.state == .queued

/-- A command of the command set as one row: the request area and header are written, GO is given, and the firmware
takes the command where no earlier doorbell waits (R341, R343, R344); else it stays QUEUED for the row that takes the next
command. While the mailbox is busy the GO is ignored and counted. -/
def tilpo (m : Cmd) (mb : Nat) (req : List Byte) (d : Dev) : Dev :=
  let c := d.chip
  let b := c.box mb
  if !c.mailboxUp || !c.reaches mb then d
  else if b.state = .idle || b.state = .done then
    let c := c.setBox mb { b with opcode := m.opcode, length := req.length,
                                  req := Mem.writeBytes [] 0 (req.take 4096) }
    let c := c.ringBell mb
    if (c.box mb).state = .queued && !d.chip.bellWaits then takeWith m mb { d with chip := c } else { d with chip := c }
  else { d with chip := c.setBox mb { b with ignored := sat 16 (b.ignored + 1) } }

end Sys2Proof.Machine
end

