-- ==== Sys2Proof/Machine/SafetyOps.lean ====
section
/-! DEFINITION. The safety monitor's shared operations: detections, causes that clear, the safe state (R434 to R442). -/

namespace Sys2Proof.Machine

/-- Causes that are events and not conditions (R436): a cause of this kind is present until the next period of the
monitor (log 21). -/
def momentary (cause : Nat) : Bool :=
  [0x0105, 0x0106, 0x0107, 0x0201, 0x0301, 0x0302, 0x0303, 0x0404].contains cause

namespace Chip

/-- Entry into the safe state (R437): both pins at their safe levels, no heartbeat, SAFE_STATE with the function, the
cause and its time. A safe state already in force is not entered again. -/
def enterSafe (c : Chip) (fnNo cause : Nat) : Chip :=
  let mode := cause == 0x0104
  if c.safety.safe then { c with safety.modeOnly := c.safety.modeOnly && mode, safety.resume := false }
  else
    let c := { c with safety.safe := true, safety.beat := false, safety.resume := false, safety.pinA := false,
                      safety.pinB := true, safety.modeOnly := mode }
    c.emit 0x22 1 fnNo cause c.t64

/-- A function goes into DEMAND with a cause (R434, R436). -/
def demand (c : Chip) (i cause : Nat) : Chip :=
  let f := c.safeFn i
  let first := f.state != .demand && f.state != .latched
  c.setSafeFn i { f with state := .demand, cause := if first then cause else f.cause,
                         detect := if first then c.t64 else f.detect,
                         onlyMode := cause == 0x0104 && (first || f.onlyMode) }

/-- A diagnostic of function `i` detects a failure at object `obj` (R436, R437). -/
def detect (c : Chip) (i cause obj : Nat) : Chip :=
  let f := c.safeFn i
  if !f.enabled || f.causes.contains (cause, obj) then c
  else
    let c := c.setSafeFn i { f with causes := f.causes ++ [(cause, obj)] }
    (c.demand i cause).enterSafe i cause

/-- A diagnostic of an "All" row of R436 detects a failure: every enabled function goes into DEMAND. -/
def detectAll (c : Chip) (cause obj : Nat) : Chip :=
  if c.safety.all.contains (cause, obj) then c
  else
    let c := { c with safety.all := c.safety.all ++ [(cause, obj)] }
    let c := c.foldC ((List.range 4).filter fun i => (c.safeFn i).enabled) fun c i => c.demand i cause
    c.enterSafe 0xFF cause

/-- A function whose causes have all cleared goes to LATCHED, or from MODE alone back to ACTIVE (R439). -/
def settle (c : Chip) (i : Nat) : Chip :=
  let f := c.safeFn i
  if f.state = .demand && f.causes.isEmpty && c.safety.all.isEmpty then
    if f.onlyMode then c.setSafeFn i { f with state := .active, cause := 0, detect := 0, onlyMode := false }
    else c.setSafeFn i { f with state := .latched }
  else c

/-- A cause of function `i` clears (R439). -/
def clearCause (c : Chip) (i cause obj : Nat) : Chip :=
  let f := c.safeFn i
  (c.setSafeFn i { f with causes := f.causes.filter (· != (cause, obj)) }).settle i

/-- An "All" cause clears (R439). -/
def clearAll (c : Chip) (cause obj : Nat) : Chip :=
  let c := { c with safety.all := c.safety.all.filter (· != (cause, obj)) }
  c.foldC (List.range 4) fun c i => c.settle i

/-- Sets or clears an "All" cause by its condition. -/
def judgeAll (c : Chip) (bad : Bool) (cause obj : Nat) : Chip :=
  if bad then c.detectAll cause obj else c.clearAll cause obj

/-- Sets or clears a cause of a function by its condition. -/
def judge (c : Chip) (bad : Bool) (i cause obj : Nat) : Chip :=
  if bad then c.detect i cause obj else c.clearCause i cause obj

/-- Function `i` is enabled with scope bit `b` set. -/
def covers (c : Chip) (i b : Nat) : Bool := (c.safeFn i).enabled && bit (c.safeFn i).scope b

/-- Functions 0 and 1 cover a stream with a host destination by bits 16 and 17 (R433). -/
def coversStream (c : Chip) (i : Nat) (s : StreamSt) : Bool :=
  !s.place.seam && c.covers i (if s.prot then 16 else 17)

/-- The fresh image function has the panel in its scope (R431). -/
def coversPanel (c : Chip) : Bool := (c.safeFn 0).enabled && bits (c.safeFn 0).scope 0 16 != 0

/-- A unit is held by the safe state (R437). -/
def safeHeld (c : Chip) (u : Nat) : Bool := c.safety.safe && c.covers 2 u

/-- Every enabled function is ACTIVE and no "All" cause is present (R439). -/
def healthy (c : Chip) : Bool :=
  c.safety.all.isEmpty && (List.range 4).all fun i => !(c.safeFn i).enabled || (c.safeFn i).state == .active

/-- The safe state is left (R442): SAFE_STATE writes a record for the exit, and the heartbeat resumes at the next
period start. -/
def leaveSafe (c : Chip) (cause : Nat) : Chip :=
  if !c.safety.safe then c
  else
    let c := { c with safety.safe := false, safety.resume := true, safety.modeOnly := false }
    c.emit 0x22 1 (0x8000 + 0xFF) cause c.t64

end Chip

end Sys2Proof.Machine
end

