-- ==== Sys2Proof/Machine/FrameOps.lean ====
section
/-! DEFINITION. Frames that streams take in: their sequence, their lines, their ends (R153, R163, R243, R252, R258). -/

namespace Sys2Proof.Machine

/-- Flags of a peg (R258). -/
def fLOST : Nat := 0x001
def fDEGRADED : Nat := 0x002
def fDELAYED : Nat := 0x004
def fSTALE : Nat := 0x008
def fEPOCH : Nat := 0x010
def fREDUCED : Nat := 0x020
def fRESET : Nat := 0x040
def fRINSED : Nat := 0x080
def fLEASED : Nat := 0x100
def fMULTI : Nat := 0x200

/-- A frame of which nothing is known. -/
def Frame.blank : Frame :=
  { seq := 0, frameNo := 0, fireId := 0xFFFF, epoch := 0, place := Place.reset, phase := .lost, trigT := 0, trigFrac := 0, unit := 0xFF,
    enc := 0xFF, pos := 0, eofT := 0, flags := 0, out := OutSet.reset, fold := (0, 0), set := 0, width := 0, height := 0, packing := 0,
    mosaic := 0, count := 1, exps := [], spilled := false, used := 0, bytes := [], stored := none, slots := 0, fsRuns := [],
    start := none, issued := 0, left := 0, lines := 0, endAt := 0, guarded := none, lease := none, shape := none }

/-- `x` is the frame `f` of the same stream, with its sequence and before its peg (R243). -/
def Frame.same (f x : Frame) : Bool := x.seq == f.seq && x.epoch == f.epoch && x.phase != .judging && x.phase != .pegged

/-- The trigger time of a frame with its fraction, 2⁻¹⁶ ns (R66). -/
def Frame.trigAt (f : Frame) : Nat := f.trigT * 65536 + f.trigFrac

/-- What a peg says of a frame's trigger (R57, R257). -/
structure Trigger where
  /-- TRIG_T64 -/
  time : Nat
  /-- TRIG_UNIT -/
  unit : Nat
  /-- ENC_CHANNEL -/
  enc : Nat
  /-- POSITION -/
  pos : Int
  /-- flags it brings: DELAYED, DEGRADED -/
  flags : Nat
  /-- the fraction of its instant that TRIG_T64 drops, 2⁻¹⁶ ns (R6, R66) -/
  frac : Nat := 0

namespace Chip

/-- The started streams of a camera port. -/
def startedOf (c : Chip) (p : Nat) : List Nat :=
  (c.store.streams.filter fun e => e.2.port == p && e.2.started).map (·.1)

/-- The next sequence of a stream (R243). -/
def seqAfter (n k : Nat) : Nat := (n + k) % 2 ^ 32

/-- Appends a frame to those a stream has taken: with a capture window its trigger time is judged first (R66), else it
takes its sequence at once (R243). `k` frames are covered by one record. -/
def takeFrame (c : Chip) (sid : Nat) (f : Frame) (k : Nat) : Chip :=
  match c.stream? sid with
  | none => c
  | some s =>
    if s.window.isSome then c.setStream sid { s with frames := s.frames ++ [{ f with phase := .judging }] }
    else
      let c := c.setStream sid
        { s with frames := s.frames ++ [{ f with seq := s.seqNext }], seqNext := seqAfter s.seqNext k,
                 cLost := if f.phase = .lost then sat 32 (s.cLost + k) else s.cLost }
      if f.phase = .lost then c.count (0xB00 + sid) k else c

/-- STREAM_MOVED at a switch point (R208): the first sequence under the new epoch. -/
def movedRecord (c : Chip) (sid seq : Nat) : Chip :=
  match c.stream? sid with
  | none => c
  | some s => (c.setStream sid { s with moving := none }).emit 0x15 1 sid ((s.epoch + 255) % 256 * 256 + s.epoch) seq

/-- The switch point still ahead needs a SOF (R208): the move is to another placement, not of the destination alone
(R410). -/
def awaitsSof (s : StreamSt) : Bool :=
  match s.moving with
  | some o => o.placement != s.place.placement || o.pipe != s.place.pipe
  | none => false

/-- A LOST frame of a stream that never had a SOF (R58, R59, R153, R163): `k` frames in one record, with MULTI for more
than one. Before a switch point that needs a SOF it is of the old epoch (R208, R209). -/
def addLost (c : Chip) (sid : Nat) (t : Trigger) (frameNo k : Nat) : Chip :=
  match c.stream? sid with
  | none => c
  | some s =>
    let old := awaitsSof s
    let c := if s.moving.isSome && !old && s.window.isNone then c.movedRecord sid s.seqNext else c
    let f := { Frame.blank with
      frameNo := frameNo, epoch := if old then (s.epoch + 255) % 256 else s.epoch,
      place := if old then (s.old.map (·.place)).getD s.place else s.place, trigT := t.time, trigFrac := t.frac, unit := t.unit, enc := t.enc,
      pos := if t.enc = 0xFF then 0 else t.pos, flags := t.flags ||| fLOST ||| (if 1 < k then fMULTI else 0),
      out := s.out, lines := if 1 < k then k else 0, endAt := c.up }
    c.takeFrame sid f k

/-- A trigger of a camera port ends LOST: a peg for every started stream of the port (R58, R163). -/
def lostTrigger (c : Chip) (p : Nat) (t : Trigger) : Chip :=
  let c := c.setPort p { c.port p with cLost := sat 32 ((c.port p).cLost + 1) }
  (c.foldC (c.startedOf p) fun c sid => c.addLost sid t 0 1).count (0x500 + 4 * p + 1) 1

/-- A pipe's work in progress on frames of a stream that are taken from it ends (R211). -/
def endWork (c : Chip) (sid : Nat) (l : List Frame) : Chip :=
  c.foldC (l.filter (·.phase == .processing)) fun c x =>
    let q := c.pipe x.place.pipe
    if q.current = some (sid, x.epoch) then
      c.setPipe x.place.pipe { q with state := if q.state = .run then .idle else q.state, current := none }
    else c

/-- Changes the frames of a stream for which `sel` holds. -/
def mapFrames (c : Chip) (sid : Nat) (sel : Frame → Bool) (f : Frame → Frame) : Chip :=
  match c.stream? sid with
  | none => c
  | some s => c.setStream sid { s with frames := s.frames.map fun x => if sel x then f x else x }

/-- Frames of a stream end LOST where they stand (R153, R209, R251): what was issued stays issued, and the storage that TLPs
still to be issued read stays theirs (R246); a frame still under judgement only takes the flag. -/
def loseFrames (c : Chip) (sid : Nat) (sel : Frame → Bool) (flags : Nat) : Chip :=
  match c.stream? sid with
  | none => c
  | some s =>
    let hit := fun (x : Frame) => sel x && x.phase != .lost && x.phase != .pegged
    let n := (s.frames.filter fun x => hit x && x.phase != .judging).length
    let lose := fun (x : Frame) =>
      { x with flags := x.flags ||| fLOST ||| flags, phase := if x.phase = .judging then .judging else .lost,
               bytes := [], stored := none, slots := 0, fsRuns := if x.left < x.issued then x.fsRuns else [],
               lines := x.issued, endAt := c.up }
    let c := c.setStream sid
      { s with frames := s.frames.map fun x => if hit x then lose x else x, cLost := sat 32 (s.cLost + n) }
    (c.endWork sid (s.frames.filter hit)).count (0xB00 + sid) n

/-- A frame that goes without a trace brings the first frame under a new Fold one sequence forward (R279). -/
def foldBack (c : Chip) (pl : Place) (seq : Nat) : Chip :=
  if pl.seam then c
  else
    let w := c.wch (pl.fn / 128) pl.chan
    c.setWch (pl.fn / 128) pl.chan { w with foldSeq := w.foldSeq.map fun q => if q = seq then q else seqAfter q (2 ^ 32 - 1) }

/-- A frame that is still under the old Fold takes the sequence that the first one under the new Fold was to have (R279). -/
def foldForth (c : Chip) (pl : Place) (seq : Nat) : Chip :=
  if pl.seam then c
  else
    let w := c.wch (pl.fn / 128) pl.chan
    c.setWch (pl.fn / 128) pl.chan { w with foldSeq := w.foldSeq.map fun q => if q = seq then seqAfter q 1 else q }

/-- The capture window has judged the oldest frame under judgement (R66): it takes its sequence, or goes without a
trace. One that a rinse has met meanwhile is counted RINSED (R261). -/
def judged (c : Chip) (sid : Nat) (pass : Bool) : Chip :=
  match c.stream? sid with
  | none => c
  | some s =>
    let before := s.frames.takeWhile (·.phase != .judging)
    match s.frames.dropWhile (·.phase != .judging) with
    | [] => c
    | f :: rest =>
      if !pass then (c.setStream sid { s with frames := before ++ rest }).foldBack s.place s.seqNext
      else
        let lost := bit f.flags 0
        let k := max 1 (if bit f.flags 9 then f.lines else 1)
        let f := { f with phase := if lost then .lost else .input, seq := s.seqNext }
        let c := c.setStream sid
          { s with frames := before ++ f :: rest, seqNext := seqAfter s.seqNext k,
                   cLost := if lost then sat 32 (s.cLost + k) else s.cLost,
                   cRinsed := if bit f.flags 7 then sat 32 (s.cRinsed + k) else s.cRinsed }
        let c := if s.moving.isSome && f.epoch == s.epoch then c.movedRecord sid f.seq else c
        if lost then c.count (0xB00 + sid) k else c

/-- A frame's identity on its port: FRAME_NO (R152); exposures of one trigger share it. -/
def sameFrame (n : Nat) (f : Frame) : Bool := f.frameNo == n && f.exps.any (·.done == 0)

/-- Bytes that writing `n` bytes of a stream to the frame store carries (R29, R249): a protected stream's with their guard granules. -/
def writeBytes (c : Chip) (s : StreamSt) (n : Nat) : Nat := if s.prot && c.store.guard then n + (n + 2) / 3 else n

/-- A frame's input lies in the frame store (R19, R181). -/
def inStore (f : Frame) : Bool := f.place.placement == .throughMemory || (f.place.placement == .inLine && f.spilled)

/-- A line of an exposure reaches the frames of a port's streams (R153). -/
def addLine (c : Chip) (p sub n index : Nat) (line : List Byte) : Chip :=
  c.foldC (c.store.streams.map (·.1)) fun c sid =>
    match c.stream? sid with
    | none => c
    | some s =>
      if s.port != p || s.sub != sub then c
      else
        let sel := fun (f : Frame) => f.frameNo == n && f.phase != .lost
        let k := (s.frames.filter fun f => sel f && inStore f && f.exps.any fun e => e.index == index && e.done == 0).length
        (c.carry 2 0 (c.writeBytes s (k * line.length))).mapFrames sid sel fun f =>
        { f with exps := f.exps.map fun e => if e.index = index ∧ e.done = 0 then { e with lines := e.lines ++ [line] } else e }

end Chip

end Sys2Proof.Machine
end

