-- ==== Sys2Proof/Machine/ImageMath.lean ====
section
/-! DEFINITION. The arithmetic of the image pipes: unpacking, linearisation, exposure merge, black level, flat field,
defects (R186 to R195), colour reconstruction and matrix (R213 to R223), reduction and conversion (R226 to R229). -/

namespace Sys2Proof.Machine

/-- Everything the stages need of one frame. -/
structure ImgIn where
  /-- declared width -/
  w : Nat
  /-- lines of the camera frame -/
  h : Nat
  /-- PACKING: bits per sample -/
  b : Nat
  /-- MOSAIC -/
  mosaic : Nat
  /-- exposure count E -/
  count : Nat
  /-- exposures: index, EXPOSE_DUR, intact, lines -/
  exps : List ExpIn
  /-- the 144 bytes of the bound set; empty for none (identity corrections) -/
  set : List Byte
  /-- number of entries of the set's defect table -/
  defects : Nat
  /-- the table memory -/
  mem : Mem
  /-- declared frame rate, 0.001 frames/s, which Press-V's level depends on (R235) -/
  rate : Nat := 0

/-- The tile size m of a mosaic (R186). -/
def tileOf (mosaic : Nat) : Nat := if 1 ≤ mosaic ∧ mosaic ≤ 4 then 2 else if 0x10 ≤ mosaic ∧ mosaic ≤ 0x13 then 4 else 1

/-- MOSAIC values of R151. -/
def mosaicOk (m : Nat) : Bool := decide (m ≤ 4) || (decide (0x10 ≤ m) && decide (m ≤ 0x13)) || m == 0x20

/-- The bit of a MOSAIC code in CAP_FORMATS: its place in the listed order of R151. -/
def mosaicIndex (m : Nat) : Nat :=
  (([0, 1, 2, 3, 4, 0x10, 0x11, 0x12, 0x13, 0x20] : List Nat).findIdx? (· == m)).getD 15

/-- PACKING values of R151. -/
def packingOk (p : Nat) : Bool := p == 8 || p == 10 || p == 12 || p == 14 || p == 16

/-- Samples per pixel (R151). -/
def samplesOf (mosaic : Nat) : Nat := if mosaic = 0x20 then 3 else 1

/-- Bytes of a packed line (R151, R187). -/
def lineBytes (w b mosaic : Nat) : Nat := (w * samplesOf mosaic * b + 7) / 8

/-- The `k`-th packed sample of a line (R151). -/
def rawSample (b : Nat) (line : List Byte) (k : Nat) : Nat := fieldAt line (k * b / 8) 4 / 2 ^ (k * b % 8) % 2 ^ b

/-- Limits a value to the range 0 to `m`. -/
def clampTo (m : Nat) (v : Int) : Int := max 0 (min v m)

/-- The signed range of stages 4 to 6. -/
def clamp25 (v : Int) : Int := max (-(2 ^ 24)) (min v (2 ^ 24 - 1))

def max24 : Nat := 2 ^ 24 - 1

/-- An `n`-byte field of a table. -/
def tabField (m : Mem) (handle o n : Nat) : Nat := leNat (m.readBytes (tableBase handle + o) n)

namespace ImgIn

/-- Mosaic position of a sample: of component `c` for RGB (R186). -/
def pos (i : ImgIn) (x y c : Nat) : Nat :=
  if i.mosaic = 0x20 then c else (y % tileOf i.mosaic) * tileOf i.mosaic + x % tileOf i.mosaic

/-- Stage 1 (R187). -/
def s1 (i : ImgIn) (e : ExpIn) (x y c : Nat) : Nat :=
  rawSample i.b (e.lines.getD y []) (x * samplesOf i.mosaic + c) * 2 ^ (16 - i.b)

/-- An entry of the linearisation table (R188). -/
def lut (i : ImgIn) (k : Nat) : Int :=
  let h := u32 i.set 8
  if h = 0 then 256 * k else (tabField i.mem h (4 * k) 4 % 2 ^ 20 : Nat)

/-- Stage 2 (R188). -/
def s2 (i : ImgIn) (e : ExpIn) (x y c : Nat) : Int :=
  let s := i.s1 e x y c
  let k := s / 16
  let a := i.lut k
  let next := if k = 4095 then 2 * i.lut 4095 - i.lut 4094 else i.lut (k + 1)
  clampTo (2 ^ 20 - 1) (a + ((next - a) * (s % 16 : Nat) + 8).fdiv 16)

/-- MERGE of the bound set (R198). -/
def merge (i : ImgIn) : Bool := bit (u8 i.set 5) 1

/-- The intact exposures (R191). -/
def intact (i : ImgIn) : List ExpIn := i.exps.filter (·.done == 1)

/-- The reference exposure's duration: the largest (R189). -/
def refDur (i : ImgIn) : Nat := (i.intact.map (·.dur)).foldl max 0

/-- g_k in 8.16, and whether it was above 16.0 (R189); the ratio of two durations of 0 is not stated (log 22). -/
def gain (i : ImgIn) (dur : Nat) : Nat × Bool :=
  if dur = 0 then (if i.refDur = 0 then Config.openValue 22 0 [] % (16 * 65536 + 1) else 16 * 65536, i.refDur != 0)
  else
    let g := (2 * i.refDur * 65536 + dur) / (2 * dur)
    (min g (16 * 65536), decide (16 * 65536 < g))

/-- h(x) of R189. -/
def weight (i : ImgIn) (x : Int) : Nat :=
  let knee := u32 i.set 40 % 2 ^ 20
  let sat := u32 i.set 36 % 2 ^ 20
  let v := x.toNat
  if v ≤ knee then 65536 else if sat ≤ v then 0 else (sat - v) * 65536 / (sat - knee)

/-- The exposure with the smallest duration, the lowest index on a tie (R189). -/
def shortest (l : List ExpIn) : Option ExpIn :=
  l.foldl (fun a e => match a with | none => some e | some b => if e.dur < b.dur then some e else some b) none

/-- Stage 3 with MERGE, or of one exposure (R189). -/
def merged (i : ImgIn) (x y c : Nat) : Int :=
  if i.count ≤ 1 then match i.intact with | e :: _ => i.s2 e x y c | [] => (match i.exps with | e :: _ => i.s2 e x y c | [] => 0)
  else
    let l := i.intact.map fun e =>
      let v := i.s2 e x y c
      let n := (2 * v.toNat * (i.gain e.dur).1 + 65536) / 131072
      (e.dur * i.weight v, n)
    let sw := (l.map (·.1)).foldl (· + ·) 0
    if sw = 0 then
      match shortest i.intact with
      | some e => (((2 * (i.s2 e x y c).toNat * (i.gain e.dur).1 + 65536) / 131072 : Nat) : Int)
      | none => 0
    else (((l.map fun p => p.1 * p.2).foldl (· + ·) 0 + sw / 2) / sw : Nat)

/-- The exposures are interleaved line by line (R190). -/
def interleaved (i : ImgIn) : Bool := decide (1 < i.count) && !i.merge

/-- Exposures whose lines take turns in the image: 1 unless they are interleaved (R190). -/
def ways (i : ImgIn) : Nat := if i.interleaved then i.count else 1

/-- Lines of the image that stages 4 to 9 see. -/
def rows (i : ImgIn) : Nat := if i.interleaved then i.count * i.h else i.h

/-- Stage 3 (R189 to R191): exposure `k` of an interleaved frame; the lines of a missing one are 0. -/
def s3 (i : ImgIn) (k x y c : Nat) : Int :=
  if i.interleaved then
    match i.exps.find? (fun e => e.index == k && e.done == 1) with
    | some e => i.s2 e x y c
    | none => 0
  else i.merged x y c

/-- A column vector's entry (R192, R193). -/
def col (i : ImgIn) (h x : Nat) : Nat := tabField i.mem h (2 * x) 2

/-- A node of a grid (R197). -/
def node (i : ImgIn) (h : Nat) (sgn : Bool) (gx gy : Nat) : Int :=
  let across := tabField i.mem h 0 2
  let v := tabField i.mem h (8 + 2 * (gy * across + gx)) 2
  if sgn then signed 16 v else v

/-- The interpolated value of a grid (R194). -/
def grid (i : ImgIn) (h : Nat) (sgn : Bool) (x y : Nat) : Int :=
  let s := 2 ^ (tabField i.mem h 4 1)
  let fx : Int := (x % s : Nat)
  let fy : Int := (y % s : Nat)
  let n := fun a b => i.node h sgn (x / s + a) (y / s + b)
  let t : Int := (s - fx) * (s - fy) * n 0 0 + fx * (s - fy) * n 1 0 + (s - fx) * fy * n 0 1 + fx * fy * n 1 1
  (2 * t + (s : Int) * s).fdiv (2 * s * s)

/-- Stage 4 (R192). -/
def s4 (i : ImgIn) (k x y c : Nat) : Int :=
  let bl : Nat := u32 i.set (48 + 4 * i.pos x y c) % 2 ^ 24
  let dcH := u32 i.set 12
  let dgH := u32 i.set 16
  let dc : Int := if dcH = 0 then 0 else signed 16 (i.col dcH x)
  let dg : Int := if dgH = 0 then 0 else i.grid dgH true x y
  clamp25 (i.s3 k x y c - bl - (dc + dg) * 2 ^ (u8 i.set 44 % 16))

/-- Stage 5 (R193). -/
def s5 (i : ImgIn) (k x y c : Nat) : Int :=
  let pcH := u32 i.set 20
  let pgH := u32 i.set 24
  let pc : Int := if pcH = 0 then 16384 else i.col pcH x
  let pg : Int := if pgH = 0 then 16384 else i.grid pgH false x y
  let g : Int := if i.set = [] then 4096 else u16 i.set (112 + 2 * i.pos x y c)
  clamp25 ((i.s4 k x y c * pc * pg * g + 2 ^ 39).fdiv (2 ^ 40))

/-- The defect list names a pixel (R195, R197). -/
def named (i : ImgIn) (x y : Nat) : Bool :=
  let h := u32 i.set 28
  h != 0 && (List.range i.defects).any fun n =>
    let e := tabField i.mem h (8 * n) 8
    let kind := e / 2 ^ 62
    let len := bits e 32 16
    let ey := bits e 16 16
    let ex := bits e 0 16
    if kind = 1 then x == ex && decide (ey ≤ y) && (len == 0 || decide (y < ey + len))
    else if kind = 2 then y == ey && decide (ex ≤ x) && (len == 0 || decide (x < ex + len))
    else x == ex && y == ey

/-- The colour of a mosaic cell (R213): 0 R, 1 G, 2 B, 3 I, 4 W, 5 C; of mono and RGB one colour. -/
def colourAt (mosaic x y : Nat) : Nat :=
  let cell := fun (l : List Nat) (m : Nat) => l.getD ((y % m) * m + x % m) 0
  if mosaic = 1 then cell [0, 1, 1, 2] 2
  else if mosaic = 2 then cell [1, 0, 2, 1] 2
  else if mosaic = 3 then cell [1, 2, 0, 1] 2
  else if mosaic = 4 then cell [2, 1, 1, 0] 2
  else if mosaic = 0x10 then cell [2, 1, 0, 1, 1, 3, 1, 3, 0, 1, 2, 1, 1, 3, 1, 3] 4
  else if mosaic = 0x11 then cell [4, 0, 4, 1, 2, 4, 1, 4, 4, 1, 4, 0, 1, 4, 2, 4] 4
  else if mosaic = 0x12 then cell [0, 5, 0, 5, 5, 2, 5, 2, 0, 5, 0, 5, 5, 2, 5, 2] 4
  else if mosaic = 0x13 then cell [0, 5, 0, 5, 5, 5, 5, 5, 0, 5, 0, 5, 5, 5, 5, 5] 4
  else 0

/-- A neighbour at most 4 away in one direction with the same colour (R195): `f d` is the place at distance d. -/
def neighbour (i : ImgIn) (x y : Nat) (f : Nat → Option (Nat × Nat)) : Option (Nat × Nat) :=
  ([1, 2, 3, 4].filterMap f).find? fun p => colourAt i.mosaic p.1 p.2 == colourAt i.mosaic x y

/-- The four candidates of R195: left, right, up, down. -/
def candidates (i : ImgIn) (x y : Nat) : List (Option (Nat × Nat)) :=
  [i.neighbour x y fun d => if d ≤ x then some (x - d, y) else none,
   i.neighbour x y fun d => if x + d < i.w then some (x + d, y) else none,
   i.neighbour x y fun d => if d ≤ y then some (x, y - d) else none,
   i.neighbour x y fun d => if y + d < i.h then some (x, y + d) else none]

/-- What stage 6 does with a pixel (R195): the value, and whether it was left at 0. -/
def s6' (i : ImgIn) (k x y c : Nat) : Int × Bool :=
  if !i.named x y then (i.s5 k x y c, false)
  else
    let ok := fun (p : Option (Nat × Nat)) => match p with | some q => if i.named q.1 q.2 then none else some q | none => none
    let l := (i.candidates x y).map ok
    let v := fun (p : Nat × Nat) => i.s5 k p.1 p.2 c
    let mean := fun a b => ((v a + v b + 1).fdiv 2, false)
    match l with
    | [some a, some b, _, _] => mean a b
    | [_, _, some a, some b] => mean a b
    | _ => match l.filterMap id with
      | a :: _ => (v a, false)
      | [] => (0, true)

def s6 (i : ImgIn) (k x y c : Nat) : Int := (i.s6' k x y c).1

/-- Pixels of a camera line that stage 6 leaves at 0 (R195). -/
def unrepaired (i : ImgIn) (k y : Nat) : Nat :=
  if u32 i.set 28 = 0 then 0
  else ((List.range i.w).filter fun x => (List.range (samplesOf i.mosaic)).any fun c => (i.s6' k x y c).2).length

/-- A coordinate outside the frame, moved to the nearest of its mosaic position inside (R216). -/
def edge (m n : Nat) (x : Int) : Nat :=
  if x < 0 then (x + m * (-((x).fdiv m))).toNat
  else if (n : Int) ≤ x then (x - m * (-((-(x - n + 1)).fdiv m))).toNat
  else x.toNat

/-- Stage 7's input: negative values taken as 0 (R186), with the edge rule of R216. -/
def inp (i : ImgIn) (k : Nat) (x y : Int) : Int :=
  max 0 (i.s6 k (edge (tileOf i.mosaic) i.w x) (edge (tileOf i.mosaic) i.h y) 0)

/-- The colour table of the bound set (R214). -/
def colTab (i : ImgIn) (o n : Nat) : Nat := tabField i.mem (u32 i.set 32) o n

/-- Class of a pixel (R217): 0 FLAT, 1 HORIZONTAL, 2 VERTICAL. -/
def klass (i : ImgIn) (dH dV : Int) : Nat :=
  let t : Int := (i.colTab 4 4 % 2 ^ 24 : Nat) + ((i.colTab 2 1 : Nat) * (dH + dV)).fdiv 256
  if bit (i.colTab 1 1) 1 then 0 else if t < dV - dH then 1 else if t < dH - dV then 2 else 0

def absI (x : Int) : Int := x.natAbs

/-- The colour at a place that may lie outside the frame (R216). -/
def colourI (i : ImgIn) (x y : Int) : Nat :=
  colourAt i.mosaic (edge (tileOf i.mosaic) i.w x) (edge (tileOf i.mosaic) i.h y)

/-- Green of the base tier (R218); of a pixel outside the frame, that of the pixel used for it (R216). -/
def green (i : ImgIn) (k : Nat) (x y : Int) : Int :=
  let x : Int := edge (tileOf i.mosaic) i.w x
  let y : Int := edge (tileOf i.mosaic) i.h y
  let v := i.inp k
  if i.colourI x y = 1 then v x y
  else
    let c := v x y
    let sH := 2 * c - v (x - 2) y - v (x + 2) y
    let sV := 2 * c - v x (y - 2) - v x (y + 2)
    let dH := absI (v (x - 1) y - v (x + 1) y) + absI sH
    let dV := absI (v x (y - 1) - v x (y + 1)) + absI sV
    let gH := (2 * (v (x - 1) y + v (x + 1) y) + sH + 2).fdiv 4
    let gV := (2 * (v x (y - 1) + v x (y + 1)) + sV + 2).fdiv 4
    let q := i.klass dH dV
    clampTo max24 (if q = 1 then gH else if q = 2 then gV else (gH + gV + 1).fdiv 2)

/-- Red (0) or blue (2) of the base tier (R219). -/
def redBlue (i : ImgIn) (k : Nat) (x y : Int) (want : Nat) : Int :=
  let v := i.inp k
  let g := i.green k
  let here := i.colourI x y
  let d := fun a b => v a b - g a b
  if here = want then v x y
  else if here = 1 then
    if i.colourI (x - 1) y = want then clampTo max24 (g x y + (d (x - 1) y + d (x + 1) y + 1).fdiv 2)
    else clampTo max24 (g x y + (d x (y - 1) + d x (y + 1) + 1).fdiv 2)
  else clampTo max24 (g x y + (d (x - 1) (y - 1) + d (x + 1) (y - 1) + d (x - 1) (y + 1) + d (x + 1) (y + 1) + 2).fdiv 4)

/-- The anchor colour of an extended mosaic (R220). -/
def anchor (mosaic : Nat) : Nat := if mosaic = 0x10 then 1 else if mosaic = 0x11 then 4 else 5

/-- The anchor plane (R220); of a pixel outside the frame, that of the pixel used for it (R216). -/
def anchorAt (i : ImgIn) (k : Nat) (x y : Int) : Int :=
  let x : Int := edge (tileOf i.mosaic) i.w x
  let y : Int := edge (tileOf i.mosaic) i.h y
  let v := i.inp k
  if i.colourI x y = anchor i.mosaic then v x y
  else
    let q := i.klass (absI (v (x - 1) y - v (x + 1) y)) (absI (v x (y - 1) - v x (y + 1)))
    if q = 1 then (v (x - 1) y + v (x + 1) y + 1).fdiv 2
    else if q = 2 then (v x (y - 1) + v x (y + 1) + 1).fdiv 2
    else (v (x - 1) y + v (x + 1) y + v x (y - 1) + v x (y + 1) + 2).fdiv 4

/-- Places at Chebyshev distance `d`. -/
def ring (x y : Int) (d : Nat) : List (Int × Int) :=
  let r : List Int := (List.range (2 * d + 1)).map fun (n : Nat) => (n : Int) - (d : Int)
  (r.flatMap fun a => r.map fun b => (a, b)).filterMap fun p =>
    if max p.1.natAbs p.2.natAbs = d then some (x + p.1, y + p.2) else none

/-- Another channel of the extended tier (R221). -/
def channel (i : ImgIn) (k : Nat) (x y : Int) (want : Nat) : Int :=
  if want = anchor i.mosaic then i.anchorAt k x y
  else if i.colourI x y = want then i.inp k x y
  else
    let at_ := fun d => (ring x y d).filter fun p => i.colourI p.1 p.2 == want
    let q := if (at_ 1).isEmpty then at_ 2 else at_ 1
    let s : Int := (q.map fun p => i.inp k p.1 p.2 - i.anchorAt k p.1 p.2).foldl (· + ·) 0
    clampTo max24 (i.anchorAt k x y + (s + ((q.length / 2 : Nat) : Int)).fdiv (q.length : Nat))

/-- The colours of the components of an extended mosaic (R213). -/
def wants (mosaic : Nat) : List Nat :=
  if mosaic = 0x10 then [0, 1, 2, 3] else if mosaic = 0x11 then [0, 1, 2, 4] else if mosaic = 0x12 then [0, 5, 2] else [0, 5, 5]

/-- Infrared subtraction (R222). -/
def irSub (i : ImgIn) (c : List Int) : List Int :=
  if i.mosaic = 0x10 ∧ bit (i.colTab 1 1) 0 = true then
    let ir := c.getD 3 0
    (List.range 4).map fun n =>
      if n = 3 then ir else max 0 (c.getD n 0 - ((i.colTab (44 + 2 * n) 2 : Nat) * ir + 8192).fdiv 16384)
  else c

/-- Stage 7 (R213, R216 to R222). -/
def s7 (i : ImgIn) (k x y : Nat) : List Int :=
  if i.mosaic = 0x20 then [0, 1, 2].map fun c => max 0 (i.s6 k x y c)
  else if i.mosaic = 0 then [max 0 (i.s6 k x y 0)]
  else if i.mosaic ≤ 4 then [i.redBlue k x y 0, i.green k x y, i.redBlue k x y 2]
  else i.irSub ((wants i.mosaic).map fun w => i.channel k x y w)

/-- Stage 8 (R223). -/
def s8 (i : ImgIn) (k x y : Nat) : List Int :=
  let c := i.s7 k x y
  if u32 i.set 32 = 0 then c
  else
    let m := fun a b => signed 16 (i.colTab (8 + 2 * (4 * a + b)) 2)
    let o := fun a => signed 32 (i.colTab (32 + 4 * a) 4)
    let row := fun a =>
      clampTo max24 ((m a 0 * c.getD 0 0 + m a 1 * c.getD 1 0 + m a 2 * c.getD 2 0 + m a 3 * c.getD 3 0 + 2048).fdiv 4096
        + o a)
    [row 0, row 1, row 2] ++ c.drop 3

/-- A component of the image that stage 9 takes (R223, R226): of class 0x2 the sample, of class 0x3 component `c`. -/
def v9 (i : ImgIn) (colour : Bool) (c x row : Nat) : Int :=
  let k := if i.interleaved then row % i.count else 0
  let y := if i.interleaved then row / i.count else row
  if colour then (i.s8 k x y).getD c 0 else max 0 (i.s6 k x y 0)

/-- Context lines below a slice that stages 6 and 7 need (R183, R195, R216): 4, and 2 in the base tier or 3 in the
extended tier. -/
def context (i : ImgIn) (colour : Bool) : Nat :=
  4 + (if colour then (if tileOf i.mosaic = 2 then 2 else if tileOf i.mosaic = 4 then 3 else 0) else 0)

/-- Lines below a line that its value draws on: in the base tier one more, through R219's diagonal greens (log 54). -/
def reach (i : ImgIn) (colour : Bool) : Nat := if colour && tileOf i.mosaic = 2 then 7 else i.context colour

end ImgIn

end Sys2Proof.Machine
end

