-- ==== Sys2Proof/Machine/OutputMath.lean ====
section
/-! DEFINITION. Output formats and their sizes (R226 to R230, R238), regions, Press-L (R231 to R234), Press-V (R235,
R236), Fold (R277, R278), and the order in which a frame's output bytes become ready. -/

namespace Sys2Proof.Machine

/-- The fields of a pixel format code (R229). -/
def fmtClass (f : Nat) : Nat := f / 4096 % 16
def fmtCode (f : Nat) : Nat := f / 256 % 16
def fmtLayout (f : Nat) : Nat := f % 256

/-- Bits per component of a width code (R229). -/
def codeBits (c : Nat) : Nat :=
  if c = 0 then 8 else if c = 1 ∨ c = 2 ∨ c = 6 then 10 else if c = 3 ∨ c = 4 then 12 else 16

/-- Bits that a stored component takes. -/
def storeBits (c : Nat) : Nat := if c = 0 then 8 else if c = 2 then 10 else if c = 4 then 12 else 16

/-- PACKING of a raw width code. -/
def rawBits (c : Nat) : Nat := if c = 0 then 8 else if c = 1 then 10 else if c = 2 then 12 else if c = 3 then 14 else 16

/-- The raw width code of a PACKING. -/
def rawCode (p : Nat) : Nat := if p = 8 then 0 else if p = 10 then 1 else if p = 12 then 2 else if p = 14 then 3 else 4

/-- Components stored per pixel. -/
def fmtComps (f : Nat) : Nat :=
  if fmtClass f = 3 then (if fmtLayout f ≤ 2 then 3 else 4) else if fmtClass f = 1 then samplesOf (fmtLayout f) else 1

/-- Bytes of one output line of `w` pixels (R229, R238). -/
def lineSize (f w : Nat) : Nat :=
  if fmtClass f = 1 then (w * fmtComps f * rawBits (fmtCode f) + 7) / 8
  else if fmtCode f = 6 then 4 * w
  else (w * fmtComps f * storeBits (fmtCode f) + 7) / 8

/-- The regions that a stream delivers, the whole frame where none is set (R224), in the lines of an image in which `e` exposures of
`h` lines take turns: each region lies in every exposure, and has E × H_out lines (R190, R226, R277). -/
def roisOf (o : OutSet) (w h e : Nat) : List Roi :=
  (if o.rois.isEmpty then [{ x := 0, y := 0, w := w, h := h }] else o.rois).map fun r => { r with y := e * r.y, h := e * r.h }

/-- Width and height of a region's output (R226). -/
def outW (o : OutSet) (r : Roi) : Nat := r.w / (o.bx * o.dx)
def outH (o : OutSet) (r : Roi) : Nat := r.h / (o.by_ * o.dy)

/-- Bytes of a region's image without Press. -/
def rawSize (o : OutSet) (r : Roi) : Nat := outH o r * lineSize o.format (outW o r)

/-- SLICES of R234. -/
def slicesOf (o : OutSet) (r : Roi) : Nat := (outH o r + 63) / 64

/-- The bound of a Press-V codestream (R236), PV_BPP in 1/16. -/
def pressVBound (o : OutSet) (r : Roi) : Nat := (o.bpp * outW o r * outH o r + 127) / 128 + 512

/-- Bytes that two or more regions add (R238). -/
def dirTerm (n : Nat) : Nat := if n < 2 then 0 else 256 + 63 * n

/-- F_out of R238. -/
def fOut (o : OutSet) (w h e : Nat) : Nat :=
  let l := roisOf o w h e
  let one := fun r =>
    if o.press = 0 then rawSize o r
    else if o.press = 1 then (rawSize o r * 100 + o.ratio - 1) / o.ratio + 80 + 19 * slicesOf o r
    else pressVBound o r
  (l.map one).foldl (· + ·) 0 + dirTerm l.length

/-- The largest payload of a frame (R251, R272): for PRESS_L the container bound of R234. -/
def fMax (o : OutSet) (w h e : Nat) : Nat :=
  let l := roisOf o w h e
  if o.press = 1 then (l.map fun r => rawSize o r + 80 + 19 * slicesOf o r).foldl (· + ·) 0 + dirTerm l.length
  else fOut o w h e

/-- The parts of a folded frame (R277): their sizes without padding; of EXPOSURE_SPLIT one of H_out lines for each exposure. -/
def foldSizes (fold : Nat × Nat) (o : OutSet) (w h e : Nat) : List Nat :=
  match roisOf o w h e with
  | [r] =>
    let ow := outW o r
    let oh := outH o r
    let bytes := storeBits (fmtCode o.format) / 8
    if fold.1 = 1 then List.replicate (fmtComps o.format) (oh * ow * bytes)
    else if fold.1 = 2 then [oh * ow * bytes]
    else if fold.1 = 3 then List.replicate ((List.range 16).filter (bit fold.2)).length (oh * ((ow + 7) / 8))
    else if fold.1 = 4 then (if e ≤ 1 then [rawSize o r] else List.replicate e (rawSize o r / e))
    else [rawSize o r]
  | _ => [fMax o w h e]

/-- Parts with every one but the last padded to 64 bytes (R277). -/
def foldTotal : List Nat → Nat
  | [] => 0
  | [n] => n
  | n :: l => (n + 63) / 64 * 64 + foldTotal l

/-- F_fold of R278; without a Fold the largest payload. -/
def fFold (fold : Nat × Nat) (o : OutSet) (w h e : Nat) : Nat :=
  if fold.1 = 0 then fMax o w h e else foldTotal (foldSizes fold o w h e)

/-- F_out, folded (R238, R278). -/
def fOutFold (fold : Nat × Nat) (o : OutSet) (w h e : Nat) : Nat :=
  if fold.1 = 0 then fOut o w h e else foldTotal (foldSizes fold o w h e)

namespace ImgIn

/-- Stage 9's binning (R227): component `c` of the binned pixel at (x0, y0) of the `k`-th exposure that takes its turn. -/
def binned (i : ImgIn) (o : OutSet) (c x0 y0 k : Nat) : Int :=
  let col := fmtClass o.format == 3
  let vs := (List.range o.by_).flatMap fun dy => (List.range o.bx).map fun dx => i.v9 col c (x0 + dx) ((y0 + dy) * i.ways + k)
  let s := vs.foldl (· + ·) 0
  let n : Int := (o.bx * o.by_ : Nat)
  if o.mean then (s + n / 2).fdiv n else min s max24

/-- Conversion to `b` bits (R228). -/
def convert (o : OutSet) (v : Int) : Nat :=
  let b := codeBits (fmtCode o.format)
  let h := if o.shift = 0 then 0 else 2 ^ (o.shift - 1)
  min (2 ^ b - 1) ((v.toNat + h) / 2 ^ o.shift)

/-- The order in which a layout stores components (R229); 4 stands for X of a three-component mosaic. -/
def order (f : Nat) : List Nat :=
  if fmtClass f != 3 then [0]
  else if fmtLayout f = 1 then [0, 1, 2] else if fmtLayout f = 2 then [2, 1, 0]
  else if fmtLayout f = 3 then [0, 1, 2, 3] else [2, 1, 0, 3]

/-- An output component in storage order at output place (x, y) of a region (R226 to R229). -/
def comp (i : ImgIn) (o : OutSet) (r : Roi) (n x y : Nat) : Nat :=
  let c := (order o.format).getD n 0
  if c = 3 ∧ !(i.mosaic = 0x10 ∨ i.mosaic = 0x11) then 0
  else convert o (i.binned o c (r.x + x * o.bx * o.dx) (r.y / i.ways + y / i.ways * o.by_ * o.dy) (y % i.ways))

end ImgIn

/-- Values of `b` bits without gaps, the first in the least significant bits (R229). -/
def packBits (b : Nat) (l : List Nat) : List Byte :=
  le ((l.length * b + 7) / 8) (l.foldr (fun v a => v % 2 ^ b + a * 2 ^ b) 0)

/-- Components of a line, pixel by pixel, in a width code's storage (R229). -/
def storeLine (f : Nat) (l : List Nat) : List Byte :=
  let c := fmtCode f
  if c = 6 then
    ((List.range (l.length / 4)).map fun p =>
      le 4 (l.getD (4 * p) 0 + l.getD (4 * p + 1) 0 * 2 ^ 10 + l.getD (4 * p + 2) 0 * 2 ^ 20)).flatten
  else packBits (storeBits c) l

/-- A line of a region's image (R229). -/
def ImgIn.row (i : ImgIn) (o : OutSet) (r : Roi) (y : Nat) : List Byte :=
  storeLine o.format ((List.range (outW o r)).flatMap fun x => (List.range (fmtComps o.format)).map fun n => i.comp o r n x y)

/-- The prediction of Press-L (R231). -/
def predict (b s : Nat) (at_ : Nat → Nat → Nat) (x y : Nat) : Int :=
  let a := at_ (x - s) y
  let u := at_ x (y - s)
  let c := at_ (x - s) (y - s)
  if y < s then (if x < s then (2 ^ (b - 1) : Nat) else (a : Int))
  else if x < s then u
  else if max a u ≤ c then (min a u : Nat)
  else if c ≤ min a u then (max a u : Nat)
  else (a : Int) + u - c

/-- The mapped residual (R232). -/
def residual (b : Nat) (v : Nat) (p : Int) : Nat :=
  let e := signed b (unsigned b ((v : Int) - p))
  if 0 ≤ e then (2 * e).toNat else (-2 * e - 1).toNat

/-- The bits of a number, most significant first. -/
def bitsMsb (w v : Nat) : List Bool := (List.range w).map fun i => bit v (w - 1 - i)

/-- The code of one mapped residual (R232). -/
def rice (b k u : Nat) : List Bool :=
  let q := u / 2 ^ k
  if q < 24 then List.replicate q true ++ [false] ++ bitsMsb k (u % 2 ^ k) else List.replicate 24 true ++ bitsMsb b u

/-- The parameter with the fewest coded bits, the smaller on a tie (R233). -/
def bestK (b : Nat) (us : List Nat) : Nat :=
  let cost := fun k => (us.map fun u => (rice b k u).length).foldl (· + ·) 0
  (List.range b).foldl (fun a k => if cost k < cost a then k else a) 0

/-- A group of up to 16 residuals (R232). -/
def riceGroup (b : Nat) (us : List Nat) : List Bool :=
  let k := bestK b us
  bitsMsb 4 k ++ us.flatMap (rice b k)

/-- Residuals in groups of 16. -/
def riceLine (b : Nat) : Nat → List Nat → List Bool
  | 0, _ => []
  | n + 1, us => if us.isEmpty then [] else riceGroup b (us.take 16) ++ riceLine b n (us.drop 16)

/-- Bits into bytes from the most significant bit down (R232). -/
def packMsb (l : List Bool) : List Byte :=
  (List.range ((l.length + 7) / 8)).map fun n =>
    BitVec.ofNat 8 (((List.range 8).map fun j => if l.getD (8 * n + j) false then 2 ^ (7 - j) else 0).foldl (· + ·) 0)

/-- The neighbour step of R231. -/
def stepOf (f : Nat) : Nat := if fmtClass f = 2 then tileOf (fmtLayout f) else 1

namespace ImgIn

/-- Lines of slice `n` of a region. -/
def sliceLines (o : OutSet) (r : Roi) (n : Nat) : Nat := min 64 (outH o r - 64 * n)

/-- The code of a slice (R231, R232). -/
def sliceCode (i : ImgIn) (o : OutSet) (r : Roi) (n : Nat) : List Byte :=
  let b := codeBits (fmtCode o.format)
  let s := stepOf o.format
  packMsb ((List.range (sliceLines o r n)).flatMap fun y => (List.range (fmtComps o.format)).flatMap fun c =>
    let at_ := fun x y => i.comp o r c x (64 * n + y)
    let us := (List.range (outW o r)).map fun x => residual b (at_ x y) (predict b s at_ x y)
    riceLine b (us.length + 1) us)

/-- A slice with its header and padding (R233, R234). -/
def slice (i : ImgIn) (o : OutSet) (r : Roi) (n : Nat) : List Byte :=
  let code := i.sliceCode o r n
  let raw := (List.range (sliceLines o r n)).flatMap fun y => i.row o r (64 * n + y)
  let plain := decide (raw.length ≤ code.length)
  let body := if plain then raw else code
  let l := le 8 (body.length + n * 2 ^ 32 + b2n plain * 2 ^ 48) ++ body
  l ++ List.replicate ((8 - l.length % 8) % 8) 0

/-- The header of a Press-L container (R234). -/
def pressHeader (o : OutSet) (r : Roi) : List Byte :=
  let h := le 4 0x4C504B46 ++ le 2 1 ++ le 2 o.format ++ le 2 (outW o r) ++ le 2 (outH o r) ++
    le 1 (fmtComps o.format) ++ le 1 (codeBits (fmtCode o.format)) ++ le 1 (stepOf o.format) ++ le 1 64 ++
    le 2 (slicesOf o r) ++ List.replicate 42 0
  h ++ le 4 (crc32c h)

/-- The slice directory and the end record (R234). -/
def pressEnd (i : ImgIn) (o : OutSet) (r : Roi) : List Byte :=
  let n := slicesOf o r
  let sizes := (List.range n).map fun k => (i.slice o r k).length
  let offs := (List.range n).map fun k => 64 + (sizes.take k).foldl (· + ·) 0
  let dir := (offs.map (le 4)).flatten
  let image := (List.range (outH o r)).flatMap fun y => i.row o r y
  let e := le 4 0x45504B46 ++ le 4 (64 + sizes.foldl (· + ·) 0) ++ le 4 (crc32c image)
  dir ++ e ++ le 4 (crc32c (dir ++ e))

/-- What a Press-V code stream depends on beside the image. -/
def pvSet (o : OutSet) (r : Roi) : List Nat := [o.format, o.tier, o.nly, o.bpp, outW o r, outH o r]

/-- The head of a Press-V codestream (R235): SOC, the capabilities marker with profile and level, picture header,
component table and weights, in the layout of ISO/IEC 21122-1 (log 11). -/
def pvHead (i : ImgIn) (o : OutSet) (r : Roi) : List Byte :=
  let be := fun n v => (le n v).reverse
  let comps := fmtComps o.format
  let free := fun a n => (List.range n).map fun k => Config.pressVByte (pvSet o r) [] (a + k)
  let profile := (if o.tier = 0 then 0x3040 else 0x4040) + (if comps = 4 then 0x0E00 else 0x0A00)
  let level := be 2 profile ++ be 2 ((Config.pressVLevel [outW o r, outH o r, i.rate, o.bpp]).getD 0)
  let bands := comps * (6 + 2 * o.nly)
  be 2 0xFF10 ++ (be 2 0xFF50 ++ be 2 6 ++ level) ++
    (be 2 0xFF12 ++ be 2 26 ++ free 0 4 ++ level ++ be 2 (outW o r) ++ be 2 (outH o r) ++ be 2 0 ++ be 2 (64 / 2 ^ o.nly) ++
      le 1 comps ++ le 1 4 ++ le 1 8 ++ le 1 20 ++ le 1 0x84 ++ le 1 (b2n (decide (3 ≤ comps))) ++ le 1 (0x50 + o.nly) ++ free 4 1) ++
    (be 2 0xFF13 ++ be 2 (2 + 2 * comps) ++ (List.replicate comps (le 1 (codeBits (fmtCode o.format)) ++ le 1 0x11)).flatten) ++
    (be 2 0xFF14 ++ be 2 (2 + 2 * bands) ++ free 5 (2 * bands))

/-- Lines of a region's output that the first `n + 1` Press-V slices wait for (R235, R240): with two vertical levels a
slice waits on lines below it (log 11). -/
def pvLines (o : OutSet) (r : Roi) (n : Nat) : Nat := min (outH o r) (64 * (n + 1) + if o.nly = 2 then 64 else 0)

/-- The budget of a Press-V slice (R236): ⌊PV_BPP × W_out × 64 / 8⌋, the proportional share for a shorter last one. -/
def pvBudget (o : OutSet) (r : Roi) (n : Nat) : Nat := o.bpp * outW o r * sliceLines o r n / 128

/-- A slice of a Press-V codestream (R235, R236): its header and coded bytes that the spec leaves open (log 11), within
its budget. -/
def pvSlice (i : ImgIn) (o : OutSet) (r : Roi) (n : Nat) : List Byte :=
  let img := (List.range (pvLines o r n)).flatMap fun y => (List.range (outW o r)).flatMap fun x =>
    (List.range (fmtComps o.format)).map fun k => i.comp o r k x y
  let code := (List.range (Config.pressVLength (n :: pvSet o r) img)).map fun k => Config.pressVByte (n :: pvSet o r) img k
  ((le 2 0xFF20).reverse ++ (le 2 4).reverse ++ (le 2 n).reverse ++ code).take (pvBudget o r n)

end ImgIn

/-- A part of a frame's output: the image lines that must have been processed, and its bytes. -/
structure Piece where
  /-- image lines (of stages 4 to 9) needed -/
  need : Nat
  /-- the bytes, computed when they are asked for -/
  bytes : Unit → List Byte

/-- The parts of one region, in order (R228, R231, R234, R236); what stands before the first slice leaves with it (R240, R338). -/
def roiPieces (i : ImgIn) (o : OutSet) (r : Roi) : List Piece :=
  let at_ := fun y => r.y + (y + i.ways - 1) / i.ways * i.ways * o.by_ * o.dy
  if o.press = 0 then
    (List.range (outH o r)).map fun y => { need := at_ (y + 1), bytes := fun _ => i.row o r y }
  else if o.press = 1 then
    { need := at_ (min (outH o r) 64), bytes := fun _ => ImgIn.pressHeader o r } ::
      ((List.range (slicesOf o r)).map fun n =>
        { need := at_ (min (outH o r) (64 * (n + 1))), bytes := fun _ => i.slice o r n }) ++
      [{ need := at_ (outH o r), bytes := fun _ => i.pressEnd o r }]
  else
    { need := at_ (ImgIn.pvLines o r 0), bytes := fun _ => i.pvHead o r } ::
      ((List.range (slicesOf o r)).map fun n => { need := at_ (ImgIn.pvLines o r n), bytes := fun _ => i.pvSlice o r n }) ++
      [{ need := at_ (outH o r), bytes := fun _ => (le 2 0xFF11).reverse }]

/-- The whole payload of one region. -/
def roiBytes (i : ImgIn) (o : OutSet) (r : Roi) : List Byte := (roiPieces i o r).flatMap fun p => p.bytes ()

/-- Bytes of 0 up to a multiple of 64. -/
def pad64 (n : Nat) : List Byte := List.replicate ((64 - n % 64) % 64) 0

/-- The region directory (R228). -/
def roiDir (i : ImgIn) (o : OutSet) : List Byte :=
  let sizes := (roisOf o i.w i.h i.ways).map fun r => (roiBytes i o r).length
  let up := fun n => (n + 63) / 64 * 64
  let entries := (List.range o.rois.length).flatMap fun n =>
    let r := o.rois.getD n { x := 0, y := 0, w := 0, h := 0 }
    le 2 r.x ++ le 2 r.y ++ le 2 (outW o r) ++ le 2 (outH o r) ++ le 4 (((sizes.take n).map up).foldl (· + ·) 0) ++
      le 4 (sizes.getD n 0)
  (entries ++ List.replicate 256 0).take 256

/-- The parts of a PASS_BY frame: its packed lines, exposure by exposure (R181). -/
def rawPieces (i : ImgIn) : List Piece :=
  let n := lineBytes i.w i.b i.mosaic
  if i.count ≤ 1 then
    (List.range i.h).map fun y =>
      { need := y + 1, bytes := fun _ => (((i.exps.head?.map (·.lines)).getD []).getD y []).take n }
  else
    (List.range i.count).flatMap fun k => (List.range i.h).map fun y =>
      { need := i.h, bytes := fun _ =>
          (((i.exps.find? fun e => e.index == k && e.done == 1).map (·.lines)).getD []).getD y (List.replicate n 0) |>.take n }

/-- The parts of a frame's output, in order (R228). -/
def outPieces (i : ImgIn) (o : OutSet) (passBy : Bool) : List Piece :=
  if passBy then rawPieces i
  else if o.rois.length ≤ 1 then (roisOf o i.w i.h i.ways).flatMap (roiPieces i o)
  else
    ((roisOf o i.w i.h i.ways).flatMap fun r =>
      roiPieces i o r ++ [{ need := r.y + r.h, bytes := fun _ => pad64 (roiBytes i o r).length }]) ++
      [{ need := i.rows, bytes := fun _ => roiDir i o }]

/-- The output that `used` processed camera lines make ready: a line needs the lines below it that it draws on, the last none. -/
def readyBytes (i : ImgIn) (o : OutSet) (passBy : Bool) (used : Nat) : List Byte :=
  let avail :=
    if i.h ≤ used then (if passBy then i.h else i.rows)
    else if passBy then used
    else (used - i.reach (fmtClass o.format == 3)) * i.ways
  ((outPieces i o passBy).takeWhile fun p => decide (p.need ≤ avail)).flatMap fun p => p.bytes ()

/-- The `n`-th stored sample of line `y` of an image in format `f` and width `w` (R229). -/
def storedAt (f w : Nat) (img : List Byte) (y n : Nat) : Nat :=
  let b := storeBits (fmtCode f) / 8
  fieldAt img (y * lineSize f w + n * b) b

/-- The parts of a folded image (R277). -/
def foldParts (fold : Nat × Nat) (f w h e : Nat) (img : List Byte) : List (List Byte) :=
  let at_ := storedAt f w img
  let b := storeBits (fmtCode f) / 8
  let rows := List.range h
  if fold.1 = 1 then
    let k := fmtComps f
    (List.range k).map fun c => rows.flatMap fun y => (List.range w).flatMap fun x => le b (at_ y (x * k + c))
  else if fold.1 = 2 then
    [(List.range (h / 2)).flatMap fun y => (List.range (w / 2)).flatMap fun x =>
      le b (at_ (2 * y) (2 * x)) ++ le b (at_ (2 * y) (2 * x + 1)) ++ le b (at_ (2 * y + 1) (2 * x)) ++
        le b (at_ (2 * y + 1) (2 * x + 1))]
  else if fold.1 = 3 then
    ((List.range 16).filter (bit fold.2)).map fun j => rows.flatMap fun y => (List.range ((w + 7) / 8)).map fun n =>
      BitVec.ofNat 8 (((List.range 8).map fun k =>
        if 8 * n + k < w ∧ bit (at_ y (8 * n + k)) j = true then 2 ^ k else 0).foldl (· + ·) 0)
  else if fold.1 = 4 ∧ 1 < e then
    (List.range e).map fun k => ((List.range (h / e)).flatMap fun y =>
      (img.drop ((y * e + k) * lineSize f w)).take (lineSize f w))
  else [img]

/-- The folded payload: every part but the last padded to 64 bytes (R277). -/
def joinParts : List (List Byte) → List Byte
  | [] => []
  | [p] => p
  | p :: l => p ++ pad64 p.length ++ joinParts l

/-- The pixel format code of a peg (R229). -/
def pegFormat (o : OutSet) (passBy : Bool) (packing mosaic : Nat) : Nat :=
  if passBy then 0x1000 + rawCode packing * 256 + mosaic
  else if o.press = 1 then 0x4001 else if o.press = 2 then 0x4002 else o.format

end Sys2Proof.Machine
end

