-- ==== Sys2Proof/Machine/AdmitOps.lean ====
section
/-! DEFINITION. Guaranteed capacities, demands and admission (R20 to R28, R182, R185, R238, R245, R249, R295). Capacities
and demands are counted in 10⁻⁹ of the resource's unit, so that the declared figures of a stream stay exact (log 23). -/

namespace Sys2Proof.Machine

/-- One unit of R20 in the units of the model. -/
def scale : Nat := 10 ^ 9

/-- Capacity per lane of a PCIe rate, MB/s (R21). -/
def gtLane (rate : Nat) : Nat := [14375, 220, 440, 875, 1750, 3500, 7187, 14375].getD rate 0

/-- Payload of a lane at a rate code, in 10⁻⁹ MB/s (R106). -/
def lanePayload (rate : Nat) : Nat := 13125 * scale / 2 ^ rate

/-- Slots of the Basket reservation of a stream (R240). -/
def basketSlots (mode : Nat) (o : OutSet) (w h : Nat) : Nat :=
  if mode = 0 then 16
  else if mode = 2 then 32
  else
    let r := (roisOf o w h 1).headD { x := 0, y := 0, w := w, h := h }
    max 16 (2 * ((64 * lineSize o.format (outW o r) + 4095) / 4096))

/-- Output bytes per frame of a stream (R238, R278): of a PASS_BY stream its packed lines where it declares a raw format (R181),
else those of the format at reset (R241). Of EXPOSURE_SPLIT one part for each exposure, as without MERGE. -/
def streamOut (s : StreamSt) (passBy : Bool) : Nat :=
  if passBy then
    if fmtClass s.out.format = 1 then s.e * s.h * lineBytes s.w (rawBits (fmtCode s.out.format)) (fmtLayout s.out.format)
    else s.e * fOut s.out s.w s.h 1
  else fOutFold s.fold s.out s.w s.h (if s.fold.1 = 4 then max 1 s.e else 1)

/-- R_avg in 10⁻⁹ MB/s (R238). -/
def rAvg (s : StreamSt) (passBy : Bool) : Nat := (streamOut s passBy * s.f + s.out.keep - 1) / max 1 s.out.keep

/-- PIPE demand of a stream's declared figures (R23). -/
def pipeDemand (s : StreamSt) : Nat := s.f * s.e * (s.h * ((s.w + 63) / 64 + 1) + 16) * 1000

/-- FS_SPACE demand without the guard space, whole MiB (R23): two frames of input are 2 × R_in / f. -/
def spaceMib (s : StreamSt) (pl : Placement) : Nat :=
  let avg := rAvg s (pl = .passBy)
  let past := s.rPk * 1000000 - avg
  let bytes := past * s.tB / scale
  let exact := decide (past * s.tB % scale = 0)
  let input := if pl = .throughMemory then 2 * s.rIn * 1000000 / max 1 s.f else 0
  let whole := decide (pl ≠ .throughMemory ∨ 2 * s.rIn * 1000000 % max 1 s.f = 0)
  (bytes + input + (if exact && whole then 0 else 1) + 2 ^ 20 - 1) / 2 ^ 20

/-- Chunks of 4 KiB that `n` bytes fill or begin. -/
def chunksOf (n : Nat) : Nat := (n + 4095) / 4096

/-- Chunks below chunk `k` of a frame's output that landed in the frame store (R251). -/
def Frame.fsBelow (f : Frame) (k : Nat) : Nat := (f.fsRuns.map fun r => min r.2 (k - r.1)).foldl (· + ·) 0

/-- All of a frame's output has been made: its size is known. -/
def Frame.made (f : Frame) : Bool := f.phase == .finished || f.phase == .pegged

/-- Slots of the Basket that a frame holds (R246): those taken for it less those whose last TLP or flit has been issued; of a
frame whose output is made, those that it fills; of a LOST one, those that TLPs still to be issued read. -/
def Frame.slotsHeld (f : Frame) : Nat :=
  let n := chunksOf f.bytes.length
  if f.phase = .lost then
    if f.issued ≤ f.left then 0
    else (chunksOf f.issued - f.fsBelow (chunksOf f.issued)) - (f.left / 4096 - f.fsBelow (f.left / 4096))
  else if f.made && decide (f.bytes.length ≤ f.left) then 0
  else (if f.made then min f.slots (n - f.fsBelow n) else f.slots) - (f.left / 4096 - f.fsBelow (f.left / 4096))

/-- Slots of the Basket that hold bytes of a frame still to leave. -/
def Frame.slotsFull (f : Frame) : Nat :=
  let n := chunksOf f.bytes.length
  if f.bytes.length ≤ f.left then 0 else (n - f.fsBelow n) - (f.left / 4096 - f.fsBelow (f.left / 4096))

/-- Frame-store bytes that a frame's output holds (R251): what is reserved beyond its slots, or of output that is made what
landed there, less what has left. `kept`: it is kept until its peg is issued (R289). -/
def Frame.fsOut (f : Frame) (kept : Bool) : Nat :=
  match f.stored with
  | none => if f.left < f.issued then 4096 * (f.fsBelow (chunksOf f.issued) - f.fsBelow (f.left / 4096)) else 0
  | some n =>
    let all := if f.made then 4096 * f.fsBelow (chunksOf f.bytes.length) else n - f.slots * 4096
    if kept then all else if f.made && decide (f.bytes.length ≤ f.left) then 0 else all - 4096 * f.fsBelow (f.left / 4096)

/-- Frame-store bytes that a frame's input holds until a pipe has processed it (R19, R181). -/
def Frame.fsInput (f : Frame) : Nat :=
  let input := (f.exps.map fun e => ((e.lines.drop f.used).map List.length).foldl (· + ·) 0).foldl (· + ·) 0
  if f.made || f.phase = .lost || f.place.placement = .passBy then 0
  else if f.place.placement = .inLine && !f.spilled then input - 2 ^ 20 else input

namespace Chip

/-- The demands of a stream under a placement, in ascending resource code and instance (R23, R249, R323). -/
def demands (c : Chip) (s : StreamSt) (pl : Place) : List Resv :=
  let passBy := decide (pl.placement = .passBy)
  let avg := rAvg s passBy
  let onPipe := pl.placement = .inLine || pl.placement = .throughMemory
  let bw := (if pl.placement = .throughMemory then 2 * s.rIn * 1000000 else 0) +
    (if avg < s.rPk * 1000000 then s.rPk * 1000000 + avg else 0)
  let m := spaceMib s pl.placement
  let tx := avg + 64 * s.f
  let ports := if pl.seam then [] else if s.prot then [0, 1] else [pl.fn / 128]
  let route := c.seam.routes.getD RouteSt.none pl.seamId
  let links := if !pl.seam || !route.valid then []
    else if s.prot && route.alt != 0xFF then
      (if route.alt < route.primary then [route.alt, route.primary] else [route.primary, route.alt])
    else [if route.usingAlt then route.alt else route.primary]
  let all : List Resv :=
    (if onPipe then [{ res := 1, inst := pl.pipe, demand := pipeDemand s }] else []) ++
    [{ res := 2, inst := 0, demand := bw },
     { res := 3, inst := 0, demand := (m + if s.prot then (m + 2) / 3 else 0) * scale }] ++
    (ports.map fun p => { res := 4, inst := p, demand := tx }) ++
    (links.map fun l => { res := 6, inst := l, demand := tx }) ++
    [{ res := 7, inst := s.cls, demand := basketSlots s.mode s.out s.w s.h * scale }] ++
    (ports.map fun p => { res := 8, inst := p, demand := scale })
  all.filter fun r => r.demand != 0

/-- What a list of reservations holds of an instance. -/
def sumOf (l : List Resv) (res inst : Nat) : Nat :=
  ((l.filter fun r => r.res == res && r.inst == inst).map (·.demand)).foldl (· + ·) 0

/-- Reservations of the streams but one, with those of placements that still drain (R27). -/
def streamResv (c : Chip) (but : Option Nat) : List Resv :=
  c.store.streams.flatMap fun e =>
    (if but = some e.1 then [] else e.2.resv) ++ (match e.2.old with | some o => o.resv | none => [])

/-- Reservations that belong to no stream: read channels (R280), Seam hops of peers (R403), BUFFER windows (R308), tiles
(R23). -/
def otherResv (c : Chip) : List Resv :=
  (c.hosts.rch.filterMap fun e =>
    if e.2.fn.isSome then some { res := 5, inst := e.1 / 64, demand := e.2.rate * scale } else none) ++
  (c.seam.hopResv.map fun r => { res := 6, inst := r.link, demand := r.demand * scale }) ++
  (c.hosts.fns.flatMap fun e => e.2.windows.map fun w => { res := 3, inst := 0, demand := w.2.space * scale }) ++
  ((c.panel.tiles.filter fun e => e.2.want.1).flatMap fun _ =>
    [{ res := 9, inst := 0, demand := scale }, { res := 7, inst := 1, demand := 16 * scale }])

/-- What is admitted on an instance (R29), one stream left out. -/
def admittedBut (c : Chip) (but : Option Nat) (res inst : Nat) : Nat :=
  sumOf (c.streamResv but) res inst + sumOf c.otherResv res inst

def admitted (c : Chip) (res inst : Nat) : Nat := c.admittedBut none res inst

/-- MiB of the frame store that leases hold (R253). -/
def leasedMib (c : Chip) : Nat :=
  ((c.store.leases.filter fun e => e.2.state == .active || e.2.state == .taken).map fun e => (e.2.size + 2 ^ 20 - 1) / 2 ^ 20).foldl (· + ·) 0

/-- MiB that the firmware holds: 576, and the trace ring (R247). -/
def heldMib (c : Chip) : Nat :=
  576 + (if c.ev.trace.sink = 1 then (2 ^ c.ev.trace.sizeLog2 + 2 ^ 20 - 1) / 2 ^ 20 else 0)

/-- Retired pseudo-channels outside retired stacks (R250). -/
def loosePcs (c : Chip) : Nat := (c.store.pcs.filter fun p => !(c.store.fsStacks.contains (p / 32))).length

/-- Capacity per instance in force (R20, R21, R25, R28, R182, R245, R247, R250, R295, R461, R479), in 10⁻⁹ units. -/
def capacity (c : Chip) (res inst : Nat) : Nat :=
  let full := decide (4 ≤ c.stageNo)
  if res = 1 then
    if (c.pipe inst).state = .faulted || c.stageNo < 3 then 0 else (if full then 848000 else 424000) * scale
  else if res = 2 then
    let n := 1050000 * (4 - c.store.fsStacks.length) - 32813 * c.loosePcs
    let n := if full then n else n / 2
    (if c.power.fsHot then min n 3780000 else n) * scale
  else if res = 3 then (98304 - 24576 * c.store.fsStacks.length - 768 * c.loosePcs - c.leasedMib - c.heldMib) * scale
  else if res = 4 || res = 5 then
    let h := c.host inst
    let n := gtLane h.rate * (if h.rate = 0 then 16 else h.width)
    (if h.mps = 0 then n * 89 / 100 else if h.mps = 1 then n * 95 / 100 else n) * scale
  else if res = 6 then
    match c.seam.links.find? inst with
    | some l => if l.state = .up || l.state = .degraded then
        lanePayload (c.quad l.quad).rate * ((List.range 4).filter (bit l.active)).length else 0
    | none => 0
  else if res = 7 then
    (if inst = 0 then 512 else if inst = 1 then 1024 else if inst = 2 then 23040 - c.store.mQuota else c.store.mQuota) * scale
  else if res = 8 then 256 * scale
  else 16 * scale

/-- The 16 bytes of a refusal (R26): the capacity left rounded down, the demand up (log 23). -/
def detail (res inst demand remaining : Nat) : List Byte :=
  le 1 res ++ le 1 0 ++ le 2 inst ++ le 4 ((demand + scale - 1) / scale) ++ le 4 (remaining / scale) ++ le 4 0

/-- Pipes with what is admitted on them, by stream: (stream, pipe, demand, protected). -/
def pipeUse (c : Chip) (but : Option Nat) : List (Nat × Nat × Nat × Bool) :=
  c.store.streams.flatMap fun e =>
    (if but = some e.1 then [] else (e.2.resv.filter (·.res == 1)).map fun r => (e.1, r.inst, r.demand, e.2.prot)) ++
    (match e.2.old with
     | some o => (o.resv.filter (·.res == 1)).map fun r => (e.1, r.inst, r.demand, false)
     | none => [])

/-- Inserts by descending demand, ties by ascending stream (R185 step 2). -/
def byDemand (l : List (Nat × Nat × Nat × Bool)) : List (Nat × Nat × Nat × Bool) :=
  l.mergeSort fun a b => decide (b.2.2.1 < a.2.2.1) || (a.2.2.1 == b.2.2.1 && decide (a.1 ≤ b.1))

/-- Places the protected streams of pipe `p` on the other pipes (R185): the plan, or the largest free capacity and the
demand of the first stream that finds no place. -/
def planPipe (c : Chip) (use : List (Nat × Nat × Nat × Bool)) (p : Nat) : List (Nat × Nat) × Option (Nat × Nat) :=
  let free0 := fun q => c.capacity 1 q - ((use.filter fun u => u.2.1 == q).map (·.2.2.1)).foldl (· + ·) 0
  let go := fun (st : (List (Nat × Nat × Nat)) × Option (Nat × Nat)) (u : Nat × Nat × Nat × Bool) =>
    if st.2.isSome then st
    else
      let free := fun q => free0 q - ((st.1.filter fun t => t.2.1 == q).map (·.2.2)).foldl (· + ·) 0
      let others := (List.range 16).filter (· != p)
      match others.find? fun q => decide (u.2.2.1 ≤ free q) with
      | some q => (st.1 ++ [(u.1, q, u.2.2.1)], none)
      | none => (st.1, some ((others.map free).foldl max 0, u.2.2.1))
  let r := (byDemand (use.filter fun u => u.2.1 == p && u.2.2.2)).foldl go ([], none)
  (r.1.map fun t => (t.1, t.2.1), r.2)

/-- The recovery plans of every pipe, recomputed (R185). -/
def replan (c : Chip) : Chip :=
  let use := c.pipeUse none
  c.foldC (List.range 16) fun c p =>
    let plan := (c.planPipe use p).1
    if (c.pipe p).plan = plan then c else c.setPipe p { c.pipe p with plan := plan }

/-- The fault reserve for a stream marked protected (R185 step 3): the refusal of the first pipe without a plan. -/
def faultReserve (c : Chip) (sid : Nat) (new : List Resv) : Option (List Byte) :=
  let use := c.pipeUse (some sid) ++ (new.filter (·.res == 1)).map fun r => (sid, r.inst, r.demand, true)
  (List.range 16).findSome? fun p =>
    if (c.pipe p).state = .faulted then none
    else match (c.planPipe use p).2 with
      | some (free, dem) => some (detail 1 (0x8000 + p) dem free)
      | none => none

/-- One demand against what remains of its instance; a demand that is not raised always passes (R24, R28). -/
def shortOf (c : Chip) (sid : Option Nat) (old : List Resv) (r : Resv) : Option (List Byte) :=
  if r.demand ≤ sumOf old r.res r.inst then none
  else
    let left := c.capacity r.res r.inst - c.admittedBut sid r.res r.inst
    if r.demand ≤ left then none else some (detail r.res r.inst r.demand left)

/-- The request adds demand on some instance. -/
def addsDemand (old new : List Resv) : Bool := new.any fun r => decide (sumOf old r.res r.inst < r.demand)

/-- Step 2 of R24 for a stream: the refusal detail, or none where everything fits. -/
def admitStream (c : Chip) (sid : Nat) (prot : Bool) (old new : List Resv) : Option (List Byte) :=
  let first := (new.filter (·.res == 1)).findSome? fun r =>
    if sumOf old 1 r.inst = 0 && decide (64 ≤ (c.pipeUse (some sid)).length) &&
        decide (64 ≤ ((c.pipeUse (some sid)).filter fun u => u.2.1 == r.inst).length) then
      some (detail 1 r.inst r.demand (c.capacity 1 r.inst - c.admittedBut (some sid) 1 r.inst))
    else c.shortOf (some sid) old r
  match first with
  | some d => some d
  | none =>
    match (if prot && addsDemand old (new.filter (·.res == 1)) then c.faultReserve sid new else none) with
    | some d => some d
    | none => (new.filter (·.res != 1)).findSome? (c.shortOf (some sid) old)

/-- Admissions that add demand end BAD_STATE: during ADMIT_HOLD (R476), and while the last window of some instance shows
BELOW_GUARANTEE (R31). -/
def admitStopped (c : Chip) : Bool := decide (1 ≤ c.power.step) || c.power.meters.any fun e => bit e.2.flags 3

/-- HOST_TX reserved for a function and class (R336), one stream left out. -/
def fnReserved (c : Chip) (but : Option Nat) (fn cls : Nat) : Nat :=
  ((c.store.streams.filter fun e =>
      but != some e.1 && e.2.cls == cls && !e.2.place.seam && (e.2.place.fn == fn || (e.2.prot && e.2.place.altFn == fn))).map
    fun e => sumOf e.2.resv 4 (fn / 128)).foldl (· + ·) 0

/-- The function's cap would be passed (R24 step 1, R336, R357). `mb`: the mailbox of the command. -/
def overCap (c : Chip) (mb sid : Nat) (s : StreamSt) (pl : Place) (new : List Resv) : Bool :=
  !pl.seam && (pl.fn :: (if s.prot then [pl.altFn] else [])).any fun f =>
    let cap := (c.limitFor mb 2 (f * 4 + s.cls) [((c.host (f / 128)).qos.getD Qos.reset (f * 4 + s.cls)).cap]).headD 0
    cap != 0 && decide (cap * scale < c.fnReserved (some sid) f s.cls + sumOf new 4 (f / 128))

/-- A capacity has fallen: CAPACITY_SHORT where the reservations exceed it (R28). -/
def capacityFell (c : Chip) (res inst : Nat) : Chip :=
  let a := c.admitted res inst
  let k := c.capacity res inst
  if k < a then c.emit 0x17 1 inst res ((a + scale - 1) / scale % 2 ^ 32 * 2 ^ 32 + k / scale) else c

/-- Bytes of the frame store that a stream's frames hold (R251): output beyond the Basket, of a protected stream until its
peg is issued (R289), and input that waits for a pipe (R19, R181). -/
def fsUsed (s : StreamSt) : Nat :=
  let kept := s.prot && !s.place.seam
  (s.frames.map fun f => f.fsOut kept + f.fsInput).foldl (· + ·) 0

/-- Bytes of the frame store that the copies of a protected stream's frames hold until their pegs are issued (R289). -/
def copyHeld (s : StreamSt) : Nat :=
  if s.prot && !s.place.seam then (s.frames.map fun f => f.stored.getD 0).foldl (· + ·) 0 else 0

/-- Slots of the Basket that a stream's frames hold (R246, R251). -/
def slotsUsed (s : StreamSt) : Nat := (s.frames.map Frame.slotsHeld).foldl (· + ·) 0

/-- No bandwidth of the frame store is left that no reservation holds, for a spill to find (R19, R251). -/
def spillStarved (c : Chip) : Bool := decide (c.capacity 2 0 ≤ c.admitted 2 0)

/-- Bytes of the frame store that streams hold beyond their reservations, and the copies of R289. -/
def pastSpace (c : Chip) : Nat :=
  (c.store.streams.map fun e => fsUsed e.2 - spaceMib e.2 e.2.place.placement * 2 ^ 20 + copyHeld e.2).foldl (· + ·) 0

/-- Frame-store bytes that no reservation, lease or firmware holding uses, and no frame beyond its reservation (R251). -/
def fsFree (c : Chip) : Nat :=
  (c.capacity 3 0 - c.admitted 3 0) / scale * 2 ^ 20 - c.pastSpace

/-- Slots that a class's quota holds beyond all reservations and that are free (R246). -/
def sharedSlots (c : Chip) (cls : Nat) : Nat :=
  let free := (c.capacity 7 cls - c.admitted 7 cls) / scale
  free - ((c.store.streams.filter fun e => e.2.cls == cls).map fun e =>
    slotsUsed e.2 - sumOf e.2.resv 7 cls / scale).foldl (· + ·) 0

end Chip

/-- What the devices along a route to a Seam ID answer to a reservation (R403): the device, its link and what it has left, or
none where all take it. They are other devices, and what they have left is free (log 29). -/
def routeRefusal (c : Chip) (pl : Place) (old new : List Resv) : Option (Nat × Nat × Nat) :=
  let r := c.seam.routes.getD RouteSt.none pl.seamId
  let v := fun i => c.fresh 29 [pl.seamId, i]
  if !pl.seam || r.hops < 2 || !Chip.addsDemand old (new.filter (·.res == 6)) || v 0 % 2 == 0 then none
  else some (v 1 % 1024, v 2 % 16, v 3 % 52500)

/-- A request for a Seam destination has been carried to the devices of its route (R403), and the next one finds them anew. -/
def Chip.asked (c : Chip) (pl : Place) : Chip := if pl.seam then c.drawn else c

/-- A refusal of SEAM demand (R26, R403): NO_CAPACITY with the detail, and SEAM_ADMIT names the device. -/
def seamRefuse (dev link : Nat) (b : List Byte) : Res := .refuseC stNOCAP b fun c => (c.emit 0x1E 3 dev link 0).drawn

/-- Admission is stopped (R31, R476) for what a request adds: step 4 of R345. -/
def stopped (c : Chip) (old new : List Resv) : Bool := c.admitStopped && Chip.addsDemand old new

/-- Steps 4 to 6 of R345 for a stream's demands (R24, R31, R336, R403, R476): none where everything fits. -/
def admitRes (c : Chip) (mb sid : Nat) (s : StreamSt) (pl : Place) (old new : List Resv) : Option Res :=
  if stopped c old new then some (.no stBADSTATE)
  else if c.overCap mb sid s pl new then some (.no stLIMIT)
  else
    match c.admitStream sid s.prot old new with
    | some b => some (if u8 b 0 = 6 then seamRefuse (c.seam.id.getD 0xFFFF) (u16 b 2) b else .refuse stNOCAP b)
    | none =>
      match routeRefusal c pl old new with
      | some (dev, link, left) =>
        let ask := (new.find? (·.res == 6)).map (·.demand)
        some (seamRefuse dev link (Chip.detail 6 link (ask.getD 0) (left * scale)))
      | none => none

end Sys2Proof.Machine
end

