-- ==== Sys2Proof/Machine/PipeOps.lean ====
section
/-! DEFINITION. Work of the image pipes and what follows from it: the output of a frame as it becomes ready, its storage
(R251, R289), its end at the pipe (R191, R195, R211, R239), panel tiles (R422, R423), swatches, pipe faults and moves
(R181 to R185, R203 to R210). -/

namespace Sys2Proof.Machine

/-- Handshakes of one line (R183). -/
def lineCost (w : Nat) : Nat := (w + 63) / 64 + 1

/-- Every exposure of a frame has ended (R189, R191). -/
def Frame.complete (f : Frame) : Bool := f.exps.length == f.count && f.exps.all (·.done != 0)

/-- The pipe's stages work on the frame: not PASS_BY. -/
def Frame.piped (f : Frame) : Bool := f.place.placement != .passBy

/-- A pixel's three components at output place (x, y), `b` bits each (R422). -/
def rgbAt (i : ImgIn) (o : OutSet) (r : Roi) (x y : Nat) : List Nat :=
  if fmtClass o.format = 3 then
    let ix := fun c => ((ImgIn.order o.format).findIdx? (· == c)).getD 0
    [i.comp o r (ix 0) x y, i.comp o r (ix 1) x y, i.comp o r (ix 2) x y]
  else let v := i.comp o r 0 x y; [v, v, v]

/-- The scaled image of a tile (R422), pixels as R + 2¹⁶ G + 2³² B. -/
def tilePixels (i : ImgIn) (o : OutSet) (w h bpc : Nat) : List Nat :=
  let r := (roisOf o i.w i.h i.ways).headD { x := 0, y := 0, w := i.w, h := i.rows }
  let ow := outW o r
  let oh := outH o r
  let b := codeBits (fmtCode o.format)
  let depth := fun v => if bpc ≤ b then v / 2 ^ (b - bpc) else v * 2 ^ (bpc - b)
  let span := fun k n src => (k * src / n, max 1 ((k + 1) * src / n - k * src / n))
  (List.range h).flatMap fun j => (List.range w).map fun k =>
    let cx := span k w ow
    let cy := span j h oh
    let px := (List.range cy.2).flatMap fun dy => (List.range cx.2).map fun dx => rgbAt i o r (cx.1 + dx) (cy.1 + dy)
    let n := cx.2 * cy.2
    let mean := fun c => (((px.map fun p => depth (p.getD c 0)).foldl (· + ·) 0) + n / 2) / n
    mean 0 + mean 1 * 2 ^ 16 + mean 2 * 2 ^ 32

namespace Chip

/-- The record of a parameter set of a port by its number (R198, R202); 0 names none. -/
def setOf (c : Chip) (p number : Nat) : List Byte :=
  let t := c.port p
  if number = 0 then []
  else match (t.activeSets.map (·.2) ++ t.boundSets.map (·.2) ++ t.pendSets).find? (·.number == number) with
    | some s => s.bytes
    | none => []

/-- A frame as the stages see it. -/
def imgOf (c : Chip) (mem : Mem) (s : StreamSt) (f : Frame) : ImgIn :=
  let set := c.setOf s.port f.set
  let defects := match c.store.tables.find? (u32 set 28) with | some t => t.size / 8 | none => 0
  { w := f.width, h := f.height, b := f.packing, mosaic := f.mosaic, count := f.count, exps := f.exps, set := set,
    defects := defects, mem := mem, rate := s.f }

/-- Storage that a frame's largest output needs (R251, R278). -/
def storeNeed (i : ImgIn) (f : Frame) : Nat :=
  if !f.piped then i.count * i.h * lineBytes i.w i.b i.mosaic
  else if f.fold.1 = 0 then fMax f.out i.w i.h i.ways
  else foldTotal (foldSizes f.fold f.out i.w i.h i.ways)

/-- The output that is ready, after Fold (R228, R277). -/
def outReady (i : ImgIn) (f : Frame) : List Byte :=
  let raw := readyBytes i f.out (!f.piped) f.used
  if f.fold.1 = 0 || !f.piped then raw
  else if f.complete && decide (i.h ≤ f.used) then
    let r := (roisOf f.out i.w i.h i.ways).headD { x := 0, y := 0, w := i.w, h := i.rows }
    joinParts (foldParts f.fold f.out.format (outW f.out r) (outH f.out r) i.ways raw)
  else []

/-- Slots of the Basket a frame of the stream can have now (R246). -/
def slotsFor (c : Chip) (s : StreamSt) : Nat :=
  (sumOf s.resv 7 s.cls / scale - slotsUsed s) + c.sharedSlots s.cls

/-- Storage for a frame at its first output byte (R251, R289): its size and its slots, none where it is dropped. -/
def reserve (c : Chip) (s : StreamSt) (n : Nat) : Option (Nat × Nat) :=
  let slots := min ((n + 4095) / 4096) (c.slotsFor s)
  let own := spaceMib s s.place.placement * 2 ^ 20 - fsUsed s
  let rest := n - slots * 4096
  let copy := if s.prot && !s.place.seam then n else 0
  if 64 ≤ (s.frames.filter (·.stored.isSome)).length then none
  else if rest ≤ own then (if copy ≤ c.fsFree then some (n, slots) else none)
  else if rest - own + copy ≤ c.fsFree then some (n, slots)
  else none

/-- New output of a frame lands (R251): in slots taken for it, then in free slots of its class, and in the frame store only
where the Basket has none. `first`: its own slots have just been taken. -/
def landed (c : Chip) (s : StreamSt) (first : Bool) (f : Frame) (bytes : List Byte) : Frame :=
  let a := chunksOf f.bytes.length
  let n := chunksOf bytes.length - a
  let own := min n (f.slots - (a - f.fsBelow a))
  let more := min (n - own) (c.slotsFor s - if first then f.slots else 0)
  let here := own + more
  { f with bytes := bytes, slots := f.slots + more,
           fsRuns := if here < n then f.fsRuns ++ [(a + here, n - here)] else f.fsRuns }

/-- Bytes that the frame store takes as a frame's output grows (R29): what lands there, of a protected stream with its copy and
guard granules (R249, R289). -/
def landedBytes (c : Chip) (s : StreamSt) (old new : Frame) : Nat :=
  let n := 4096 * (new.fsBelow (chunksOf new.bytes.length) - old.fsBelow (chunksOf old.bytes.length))
  c.writeBytes s (n + if s.prot && !s.place.seam then new.bytes.length - old.bytes.length else 0)

/-- A frame finds no storage (R251, R253): LOST, and for a LEASE stream counted. -/
def noRoom (c : Chip) (sid : Nat) (me : Frame → Bool) : Chip :=
  let c := c.loseFrames sid me 0
  match c.stream? sid with
  | some s => if s.lease then c.setStream sid { s with cLease := sat 32 (s.cLease + 1) } else c
  | none => c

/-- The finished frame's images for the tiles that show its stream (R422, R423). -/
def toTiles (c : Chip) (i : ImgIn) (sid : Nat) (f : Frame) : Chip :=
  match c.panel.mode with
  | none => c
  | some m =>
    if !f.piped then c
    else c.foldC (c.panel.tiles.filter fun e => e.2.enabled && e.2.stream == sid) fun c e =>
      let img : TileImg := { seq := f.seq, eofT := f.eofT, pixels := tilePixels i f.out e.2.w e.2.h m.bpc }
      c.setTile e.1 { c.tile e.1 with newest := some img }

/-- What the end of a frame at its pipe counts and flags (R191, R211, R239). -/
def endOfPipe (c : Chip) (i : ImgIn) (sid : Nat) (f : Frame) : Chip × Nat :=
  if !f.piped then (c, if decide (1 < f.count) && f.exps.any (·.done == 2) then fDEGRADED else 0)
  else
    let p := f.place.pipe
    let q := c.pipe p
    let partly := decide (1 < f.count) && f.exps.any (·.done == 2)
    let clamped := if decide (1 < f.count) && i.merge then i.intact.filter fun e => (i.gain e.dur).2 else []
    let range := !clamped.isEmpty
    let q := { q with frames := sat 64 (q.frames + 1),
                      hdrPartial := sat 16 (q.hdrPartial + b2n partly), hdrRange := sat 16 (q.hdrRange + clamped.length),
                      flags := if range then setBit q.flags 4 else q.flags }
    let c := (c.setPipe p q).count (0x600 + 16 * p + 1) 1
    let c := (c.count (0x600 + 16 * p + 5) (b2n partly)).count (0x600 + 16 * p + 6) clamped.length
    let c := c.foldC clamped fun c _ => c.emit 0x13 1 sid 0 f.frameNo
    (c, if partly || range then fDEGRADED else 0)

/-- With two Basket banks retired no slot can be recovered, since each lies in all 17, and a frame with data in one is LOST
(R244). -/
def slotsDead (c : Chip) (f : Frame) : Bool := decide (2 ≤ c.store.banks.length) && decide (0 < f.slotsFull)

/-- Brings a frame's output up to the lines processed: storage at its first byte, its end at its last (R244, R251). -/
def outStep (c : Chip) (mem : Mem) (sid seq : Nat) : Chip :=
  match c.stream? sid with
  | none => c
  | some s =>
    match s.frames.find? fun f => f.seq == seq && (f.phase == .input || f.phase == .processing) with
    | none => c
    | some f =>
      let me := fun (x : Frame) => x.seq == seq && (x.phase == .input || x.phase == .processing)
      let i := c.imgOf mem s f
      let bytes := outReady i f
      let full := f.complete && decide (i.h ≤ f.used)
      let got := match f.stored with
        | some n => some (n, f.slots)
        | none => if bytes.isEmpty then some (0, 0) else c.reserve s (storeNeed i f)
      match got with
      | none => (c.noRoom sid me).waits 3 0
      | some (n, slots) =>
        let c := if slots * 4096 < n && f.stored.isNone then c.waits 7 s.cls else c
        let e := if full then c.endOfPipe i sid f else (c, 0)
        let c := e.1
        let past := full && f.piped && f.out.press == 1 && decide (fOut f.out i.w i.h i.ways < bytes.length)
        let g := c.landed s f.stored.isNone { f with slots := slots } bytes
        let new : Frame := { g with
          stored := if bytes.isEmpty then none else some n,
          flags := f.flags ||| e.2,
          phase := if full then .finished else if f.used = 0 then .input else .processing }
        if c.slotsDead new then c.loseFrames sid me 0
        else
        let c := (c.carry 2 0 (c.landedBytes s f new)).mapFrames sid me fun _ => new
        let c := match c.stream? sid with
          | some s => if past then c.setStream sid { s with cPress := sat 32 (s.cPress + 1) } else c
          | none => c
        if full then c.toTiles i sid new else c

/-- A PASS_BY frame takes every line that has arrived (R181). -/
def passLines (c : Chip) (mem : Mem) (sid seq : Nat) : Chip :=
  let sel := fun (x : Frame) => x.seq == seq && !x.piped && (x.phase == .input || x.phase == .processing)
  let c := c.mapFrames sid sel fun f =>
    { f with used := if f.count ≤ 1 then (f.exps.head?.map (·.lines.length)).getD 0 else if f.complete then f.height else 0 }
  c.outStep mem sid seq

/-- A frame whose exposures have changed (R153, R191): LOST where all have ended and none is intact, else its output goes on. -/
def settleFrame (c : Chip) (mem : Mem) (sid seq : Nat) : Chip :=
  let me := fun (x : Frame) => x.seq == seq && (x.phase == .input || x.phase == .processing)
  match c.stream? sid with
  | none => c
  | some s =>
    match s.frames.find? me with
    | none => c
    | some f => if f.complete && f.exps.all (·.done == 2) then c.loseFrames sid me 0 else c.passLines mem sid seq

/-- The streams placed on a pipe (R181). -/
def onPipe (c : Chip) (p : Nat) : List Nat :=
  (c.store.streams.filter fun e => e.2.place.pipe == p &&
    (e.2.place.placement == .inLine || e.2.place.placement == .throughMemory)).map (·.1)

/-- The pipe may work on a frame: it is in service, or SWATCH has faulted it and the frame was in progress (R206). -/
def pipeServes (c : Chip) (p : Nat) (f : Frame) : Bool :=
  let q := c.pipe p
  decide (3 ≤ c.stageNo) && !c.power.coreHold && (q.state != .faulted || (q.cause == 1 && f.phase == .processing))

/-- The oldest frame of a stream that still needs pipe `p` under a placement (R183, R209): frames of another epoch on
another pipe do not hold it back. -/
def frontOn (c : Chip) (p : Nat) (pl : Placement) (s : StreamSt) : Option Frame :=
  match s.frames.find? fun f => f.place.pipe == p && f.place.placement == pl &&
      (f.phase == .judging || f.phase == .input || f.phase == .processing) with
  | some f => if f.phase != .judging && c.pipeServes p f then some f else none
  | none => none

/-- The in-line stream whose next line is complete in the elastic buffer or, after a spill, in the frame store (R183). -/
def inLineNext (c : Chip) (p : Nat) : Option (Nat × Frame) :=
  c.store.streams.findSome? fun e =>
    match c.frontOn p .inLine e.2 with
    | some f => if f.used < ((f.exps.head?.map (·.lines.length)).getD 0) then some (e.1, f) else none
    | none => none

/-- Handshakes that a pipe completes. -/
def shake (c : Chip) (p n : Nat) : Chip :=
  ((c.setPipe p { c.pipe p with hs := sat 64 ((c.pipe p).hs + n) }).count (0x600 + 16 * p) n).carry 1 p n

/-- Pixels that stage 6 left at 0 (R195). -/
def deadPixels (c : Chip) (p n : Nat) : Chip :=
  if n = 0 then c
  else (c.setPipe p { c.pipe p with dpUnrep := sat 32 ((c.pipe p).dpUnrep + n), flags := setBit (c.pipe p).flags 3 }).count
    (0x600 + 16 * p + 7) n

/-- The pipe has processed `n` more camera lines of a frame (R183, R195, R211). -/
def work (c : Chip) (mem : Mem) (p sid : Nat) (f : Frame) (n : Nat) : Chip :=
  let c := c.shake p (f.count * (n * lineCost f.width + if f.used = 0 then 16 else 0))
  let c := if inStore f then c.carry 2 0 (f.count * (n * lineBytes f.width f.packing f.mosaic)) else c
  let c := match c.stream? sid with
    | none => c
    | some s =>
      let i := c.imgOf mem s f
      let ks := if i.interleaved then List.range f.count else [0]
      c.deadPixels p (((List.range n).flatMap fun y => ks.map fun k => i.unrepaired k (f.used + y)).foldl (· + ·) 0)
  let c := c.mapFrames sid (fun x => x.seq == f.seq && (x.phase == .input || x.phase == .processing)) fun x =>
    { x with used := x.used + n, phase := .processing }
  let c := c.outStep mem sid f.seq
  let busy : Bool := match c.stream? sid with
    | some s => s.frames.any fun x => x.seq == f.seq && x.phase == .processing
    | none => false
  let q := c.pipe p
  if q.state = .faulted then c
  else c.setPipe p { q with state := if busy then .run else .idle, current := if busy then some (sid, f.epoch) else none }

/-- Camera lines of the next slice of a frame (R183). -/
def sliceLen (f : Frame) : Nat := min 64 (f.height - f.used)

/-- The next slice of a through-memory frame may start: its lines and the context below are in the frame store; with
more than one exposure the whole trigger is present (R183, R181). -/
def sliceReady (c : Chip) (mem : Mem) (s : StreamSt) (f : Frame) : Bool :=
  if 1 < f.count then f.complete && decide (f.used < f.height)
  else
    let i := c.imgOf mem s f
    let have_ := (f.exps.head?.map (·.lines.length)).getD 0
    decide (f.used < f.height) &&
      decide (min f.height (f.used + sliceLen f + i.context (fmtClass f.out.format == 3)) ≤ have_)

/-- A through-memory stream with a startable slice. -/
structure Startable where
  /-- stream -/
  sid : Nat
  /-- its frame -/
  frame : Frame
  /-- handshakes of the slice -/
  cost : Nat
  /-- handshakes of a round -/
  quantum : Nat

/-- Those of a pipe, in ascending stream number. -/
def startable (c : Chip) (mem : Mem) (p : Nat) : List Startable :=
  c.store.streams.filterMap fun e =>
    match c.frontOn p .throughMemory e.2 with
    | none => none
    | some f =>
      if c.sliceReady mem e.2 f then
        some { sid := e.1, frame := f,
               cost := f.count * (sliceLen f * lineCost f.width + if f.used = 0 then 16 else 0),
               quantum := max 1 (max (sumOf e.2.resv 1 p) (sumOf ((e.2.old.map (·.resv)).getD []) 1 p) / scale) }
      else none

/-- Data waits at a pipe (R30): a line or a slice that it could start. -/
def pipeWaits (c : Chip) (mem : Mem) (p : Nat) : Chip :=
  if (c.inLineNext p).isSome || !(c.startable mem p).isEmpty then c.waits 1 p else c

/-- Quanta that a stream needs, one a round, before its slice fits its deficit. -/
def roundsOf (q : PipeSt) (st : Startable) : Nat := max 1 ((st.cost - q.deficit.getD 0 st.sid + st.quantum - 1) / st.quantum)

/-- The deficit round robin's choice (R183): the stream at its turn while its deficit lasts, then those after it in ascending
number, each with one quantum more a round, and it again last. One that has no startable slice keeps no deficit. -/
def pickSlice (q : PipeSt) (l : List Startable) : Option (Startable × PipeSt) :=
  let keep : Tab Nat := q.deficit.filter fun e => l.any (·.sid == e.1)
  match l.find? fun st => st.sid == q.rrNext && decide (st.cost ≤ keep.getD 0 st.sid) with
  | some st => some (st, { q with deficit := keep.put st.sid (keep.getD 0 st.sid - st.cost) })
  | none =>
    let ring := l.filter (fun st => decide (q.rrNext < st.sid)) ++ l.filter fun st => decide (st.sid ≤ q.rrNext)
    match (ring.map (roundsOf q)).min? with
    | none => none
    | some best =>
      let before := ring.takeWhile fun st => roundsOf q st != best
      match ring.drop before.length with
      | [] => none
      | st :: after =>
        let add := fun (n : Nat) (d : Tab Nat) (x : Startable) => d.put x.sid (d.getD 0 x.sid + n * x.quantum)
        let d := after.foldl (add (best - 1)) ((before ++ [st]).foldl (add best) keep)
        some (st, { q with rrNext := st.sid, deficit := d.put st.sid (d.getD 0 st.sid - st.cost) })

/-- An old placement is finished once no frame runs under it (R209): its reservations are returned. At the instant of the
move a SOF may still come under it (R208, R533). -/
def settleOld (c : Chip) (sid : Nat) : Chip :=
  match c.stream? sid with
  | none => c
  | some s =>
    match s.old with
    | none => c
    | some o =>
      let late := s.was.any fun w => w.at_ == c.time.tb && w.epoch == o.epoch
      if late || s.frames.any fun f => f.epoch != s.epoch then c else (c.setStream sid { s with old := none }).replan

/-- Frames of an old epoch that are not finished and that `sel` chooses are discarded (R209): LOST pegs, counted; one still
under judgement that is already LOST is not counted again. -/
def discardOld (c : Chip) (sid : Nat) (sel : Frame → Bool) : Chip :=
  match c.stream? sid with
  | none => c
  | some s =>
    let hit := fun (f : Frame) => f.epoch != s.epoch && sel f &&
      ((f.phase == .judging && f.flags % 2 == 0) || f.phase == .input || f.phase == .processing)
    let n := (s.frames.filter hit).length
    let c := c.loseFrames sid hit 0
    match c.stream? sid with
    | some s => if n = 0 then c else c.setStream sid { s with cEpoch := sat 32 (s.cEpoch + n) }
    | none => c

/-- What a placement held that the next one takes over nowhere: a fault moves a stream without admission, and what stays where
it was is not reserved twice (R27, R206). -/
def heldBack (old new : List Resv) : List Resv :=
  ((old.map fun r => (r.res, r.inst)).eraseDups).filterMap fun k =>
    let d := sumOf old k.1 k.2 - sumOf new k.1 k.2
    if d = 0 then none else some { res := k.1, inst := k.2, demand := d }

/-- Brings a stream under a new placement and epoch; the frames that `sel` chooses go with it, the others stay on the old
placement, whose reservations are held until they have ended (R27, R206 to R210). -/
def migrate (c : Chip) (sid : Nat) (pl : Place) (resv : List Resv) (sel : Frame → Bool) : Chip :=
  match c.stream? sid with
  | none => c
  | some s =>
    let e := (s.epoch + 1) % 256
    let waits := s.frames.filter fun f => sel f && f.phase != .lost
    let stay := s.frames.any fun f => !(sel f && f.phase != .lost) && f.epoch == s.epoch
    let old := if stay then some { epoch := s.epoch, place := s.place, resv := heldBack s.resv resv ++ (match s.old with | some o => o.resv | none => []) } else s.old
    let c := c.setStream sid
      { s with place := pl, epoch := e, moving := some s.place, old := old, resv := resv,
               frames := s.frames.map fun f => if sel f && f.phase != .lost then { f with epoch := e, place := pl } else f }
    let c := match waits.find? (·.phase != .judging) with
      | some f => c.movedRecord sid f.seq
      | none => c
    c.replan

/-- A pipe leaves service (R206, R28, R445), and its streams move. -/
def faultPipe (c : Chip) (p cause : Nat) : Chip :=
  let q := c.pipe p
  if q.state = .faulted then c
  else
    let plan := q.plan
    let q := { q with state := .faulted, cause := cause, current := none, inline := none,
                      flags := setBit (setBit q.flags 0) (if cause = 1 then 1 else 2),
                      stalls := if cause = 2 then sat 16 (q.stalls + 1) else q.stalls }
    let c := (c.setPipe p q).emit 0x14 1 p cause q.swTime
    let c := (c.addFault 7 p).count (0x600 + 16 * p + 4) (b2n (cause == 2))
    let movers := c.onPipe p
    let c := c.capacityFell 1 p
    let here := fun (f : Frame) => f.place.pipe == p && f.piped
    -- after SWATCH the frame in progress carries DEGRADED, be its stream placed here or draining from here
    let c := if cause = 1 then c.foldC (c.store.streams.map (·.1)) fun c sid =>
        c.mapFrames sid (fun f => here f && f.phase == .processing) fun f => { f with flags := f.flags ||| fDEGRADED } else c
    -- frames of an older epoch on the pipe are not resumed (R209); after SWATCH the one in progress finishes (R206)
    let c := c.foldC (c.store.streams.map (·.1)) fun c sid => c.discardOld sid fun f =>
      here f && (f.phase != .processing || cause == 2)
    let one := fun (c : Chip) (sid : Nat) (dst : Option Nat) =>
      match c.stream? sid with
      | none => c
      | some s =>
        let pl : Place := match dst with
          | some t => { s.place with placement := .throughMemory, pipe := t }
          | none => { s.place with placement := .none }
        let dem := sumOf s.resv 1 p
        let resv := (match dst with | some t => [{ res := 1, inst := t, demand := dem : Resv }] | none => []) ++
          s.resv.filter (·.res != 1)
        let sel := fun (f : Frame) => here f && (f.phase == .judging || f.phase == .input ||
          (f.phase == .processing && cause == 2))
        c.migrate sid pl resv sel
    let prot := movers.filter fun sid => match c.stream? sid with
      | some s => s.prot && plan.any (·.1 == sid) | none => false
    let c := c.foldC prot fun c sid => one c sid ((plan.find? (·.1 == sid)).map (·.2))
    let others := (c.pipeUse none).filter fun u => u.2.1 == p && movers.contains u.1 && !prot.contains u.1
    c.foldC (byDemand others) fun c u =>
      one c u.1 ((List.range 16).find? fun t =>
        t != p && decide (u.2.2.1 ≤ c.capacity 1 t - c.admitted 1 t) && decide (c.capacity 1 t ≠ 0))

end Chip

end Sys2Proof.Machine
end

