-- ==== Sys2Proof/Machine/PowerBase.lean ====
section
/-! DEFINITION. The start pacer (R466). -/

namespace Sys2Proof.Machine

/-- Slope of a start event, A/µs, and its ramp, ns (R466). -/
def startSlope : StartKind → Nat × Nat
  | .domain => (4, 1000) | .pipeHalf => (3, 1000) | .pipeFull => (3, 1000) | .quad => (1, 500) | .stack => (2, 1000)
  | .host => (1, 1000)

namespace Chip

/-- What a granted event changes at once: a pipe's rate (R182, R466). -/
def started_ (c : Chip) (e : StartEvent) : Chip :=
  match e.kind with
  | .pipeHalf => { c with power.pipes := c.power.pipes.put e.inst 1 }
  | .pipeFull => { c with power.pipes := c.power.pipes.put e.inst 2 }
  | _ => c

/-- Grants waiting start events in their order while the slopes of the ramps in progress leave room (R466): at most `n`. -/
def pacerRun (c : Chip) : Nat → Chip
  | 0 => c
  | n + 1 =>
    match c.power.pacer with
    | [] => c
    | e :: rest =>
      let on := c.power.ramps.filter fun r => decide (c.up < r.2)
      let s := startSlope e.kind
      if 20 < (on.map (·.1)).foldl (· + ·) 0 + s.1 then { c with power.ramps := on }
      else
        let c := { c with power.pacer := rest, power.ramps := on ++ [(s.1, c.up + s.2 * nsU)] }
        ((c.started_ e).count 0x4F 1).pacerRun n

/-- Start events are requested together, in the order of R466. -/
def requestStarts (c : Chip) (l : List StartEvent) : Chip :=
  let c := { c with power.pacer := c.power.pacer ++ l }
  c.pacerRun c.power.pacer.length

/-- A start event still waits for its grant. -/
def startWaits (c : Chip) (k : StartKind) (i : Nat) : Bool := c.power.pacer.any fun e => e.kind == k && e.inst == i

end Chip

end Sys2Proof.Machine
end

