-- ==== Sys2Proof/Machine/State.lean ====
section
/-! DEFINITION. The state of the model: the chip, its addressed memory and the commands that wait; its reset value; the
reasons for which a command can stop. -/

namespace Sys2Proof.Machine

/-- The state. -/
structure State where
  /-- every register, buffer, queue, counter, mode and pin of the spec -/
  chip : Chip
  /-- bytes of buffer windows (R308), tables (R196), overlays (R424) and staged images (R378) -/
  mem : Mem
  /-- MODEL: the commands that wait, first in, first out -/
  pending : List Instr
deriving DecidableEq, Repr

/-- Why a command stops with a fault. -/
inductive Fault
  /-- An operand names a mailbox, function, port, channel or link number that the spec gives the device no object for.
  Raised by the rows whose operands are numbers (log 17). Safe: the model stops where no such command can be given. -/
  | noSuchObject
deriving DecidableEq, Repr

/-- Why a command is refused. -/
inductive Refusal
  /-- The command has no meaning in this model. Raised by exec's arm of that command. Safe: the model stops. -/
  | notModelled (mnemonic : String)
deriving DecidableEq, Repr

/-- The outcome of a command. -/
abbrev Out := Host.Outcome State Fault Refusal

namespace State

/-- The machine right after reset: no memory listed, no command waiting. -/
def reset : State := { chip := Chip.reset, mem := [], pending := [] }

/-- A change of the chip alone. -/
def onChip (s : State) (f : Chip → Chip) : State := { s with chip := f s.chip }

/-- A change of the chip and its memory. -/
def onDev (s : State) (f : Dev → Dev) : State :=
  { s with chip := (f { chip := s.chip, mem := s.mem }).chip, mem := (f { chip := s.chip, mem := s.mem }).mem }

/-- An event of the running device: while it is held in reset, only the VAON domain acts (R457). -/
def run (s : State) (f : Chip → Chip) : Out := .next (if s.chip.power.held then s else s.onChip f)

/-- An event of the running device that changes its memory too. -/
def runDev (s : State) (f : Dev → Dev) : Out := .next (if s.chip.power.held then s else s.onDev f)

/-- An event of the running device whose operand has to name an object of it. -/
def onChipIf (s : State) (ok : Bool) (f : Chip → Chip) : Out :=
  if ok then s.run f else .fault .noSuchObject

/-- As `onChipIf`, with the memory. -/
def onDevIf (s : State) (ok : Bool) (f : Dev → Dev) : Out :=
  if ok then s.runDev f else .fault .noSuchObject

/-- A read by a function or MT of a register, which one completion answers. -/
def onRead (s : State) (ok : Bool) (view : Nat) (f : Chip → Chip) : Out :=
  s.onChipIf ok fun c => c.readBy view 0 f

/-- A write by a function or MT: where it does not reach its BARs, it is discarded. -/
def onWrite (s : State) (ok : Bool) (view : Nat) (f : Chip → Chip) : Out :=
  s.onChipIf ok fun c => if c.reaches view then f c else c

end State

end Sys2Proof.Machine
end

