-- ==== Sys2Proof/Machine/Pipe.lean ====
section
/-! DEFINITION. The pipe family of the command set (R180, R196 to R202, R207, R212, R368) and what the pipes do on their
own (R183, R203 to R206). -/

namespace Sys2Proof.Machine

/-- Sequence values (R145): `a` is before `b`. -/
def before32 (a b : Nat) : Bool :=
  let d := (b + 2 ^ 32 - a % 2 ^ 32) % 2 ^ 32
  decide (0 < d) && decide (d < 2 ^ 31)

/-- PIPE.ALLOC_TABLE (R196, R368): the port's quota is 1 MiB per lane, in pages of 4 KiB. -/
def cmdAllocTable : Cmd :=
  { opcode := 0x0301, roles := [2], size := fun r => r.length == 8, stage := 3,
    body := fun _ r d =>
      let p := u8 r 0
      let n := u32 r 4
      let page := fun n => (n + 4095) / 4096 * 4096
      let used := ((d.chip.store.tables.filter fun e => e.2.port == p).map fun e => page e.2.size).foldl (· + ·) 0
      if 63 < p || u8 r 1 = 0 || 5 < u8 r 1 || n = 0 then .no stBADARG
      else if !(d.chip.port p).configured || (d.chip.port p).width * 2 ^ 20 < used + page n then .no stBADSTATE
      else .doR fun c =>
        let h := c.store.nextTable
        ({ c with store.tables := c.store.tables.put h { port := p, kind := u8 r 1, size := n, sealed := false },
                  store.nextTable := if h + 1 = 2 ^ 32 then 1 else h + 1 }, le 4 h) }

def execPipeAllocTable (mb : Nat) (req : List Byte) (s : State) : Out :=
  s.onDevIf (validMb mb) (tilpo cmdAllocTable mb req)

/-- PIPE.WRITE_TABLE (R196, R368): 1 to 4,064 bytes into an unsealed table. -/
def cmdWriteTable : Cmd :=
  { opcode := 0x0302, roles := [2], size := fun r => decide (33 ≤ r.length) && decide (r.length ≤ 4096), stage := 3,
    body := fun _ r d =>
      match d.chip.store.tables.find? (u32 r 0) with
      | none => .no stBADARG
      | some t =>
        if t.size < u32 r 4 + (r.length - 32) then .no stBADARG
        else if t.sealed then .no stBADSTATE
        else .commit fun d => ({ d with mem := d.mem.writeBytes (tableBase (u32 r 0) + u32 r 4) (r.drop 32) }, []) }

def execPipeWriteTable (mb : Nat) (req : List Byte) (s : State) : Out :=
  s.onDevIf (validMb mb) (tilpo cmdWriteTable mb req)

/-- Entries in ascending Y, then X (R197). -/
def defectsRise : List Nat → Bool
  | a :: b :: l => decide (bits a 0 32 ≤ bits b 0 32) && defectsRise (b :: l)
  | _ => true

/-- A defect entry is well formed (R197). -/
def defectOk (e : Nat) : Bool :=
  e / 2 ^ 62 != 3 && (e / 2 ^ 62 != 0 || bits e 32 16 == 0)

/-- A COLOUR table is accepted (R215). -/
def colourOk (b : List Byte) : Bool :=
  let m := u8 b 0
  b.length == 64 && fieldAt b 50 14 == 0 && u8 b 3 == 0 && u8 b 7 == 0 && decide (u8 b 1 < 4) && mosaicOk m && m != 0 &&
    ([32, 36, 40].all fun o => decide (-(2 ^ 24) ≤ i32 b o) && decide (i32 b o < 2 ^ 24)) && (!bit (u8 b 1) 0 || m == 0x10)

/-- The format check of a table at its seal (R197, R215); `frames` are the declared sizes of the port's streams. -/
def tableOk (kind : Nat) (b : List Byte) (frames : List (Nat × Nat)) : Bool :=
  if kind = 1 then b.length == 16384 && (List.range 4096).all fun k => u32 b (4 * k) / 2 ^ 20 == 0
  else if kind = 2 then b.length % 2 == 0
  else if kind = 3 then
    let s := u8 b 4
    decide (8 ≤ b.length) && decide (3 ≤ s) && decide (s ≤ 6) && b.length == 8 + 2 * u16 b 0 * u16 b 2
  else if kind = 4 then
    let n := b.length / 8
    let es := (List.range n).map fun k => u64 b (8 * k)
    b.length % 8 == 0 && decide (1 ≤ n) && decide (n ≤ 65536) && es.all defectOk && defectsRise es &&
      frames.all fun f => es.all fun e => decide (bits e 0 16 < f.1) && decide (bits e 16 16 < f.2)
  else colourOk b

/-- Declared frame sizes of the streams of a port, of one substream or of all (R197). -/
def declared (c : Chip) (p : Nat) (sub : Option Nat) : List (Nat × Nat) :=
  (c.store.streams.filter fun e => e.2.port == p && (sub.isNone || sub == some e.2.sub)).map fun e => (e.2.w, e.2.h)

/-- PIPE.SEAL_TABLE (R196, R197, R368). -/
def cmdSealTable : Cmd :=
  { opcode := 0x0303, roles := [2], size := fun r => r.length == 8, stage := 3,
    body := fun _ r d =>
      match d.chip.store.tables.find? (u32 r 0) with
      | none => .no stBADARG
      | some t =>
        let b := d.mem.readBytes (tableBase (u32 r 0)) t.size
        if t.sealed then .no stBADSTATE
        else if crc32c b != u32 r 4 || !tableOk t.kind b (declared d.chip t.port none) then .no stBADARG
        else .doC fun c => { c with store.tables := c.store.tables.put (u32 r 0) { t with sealed := true } } }

def execPipeSealTable (mb : Nat) (req : List Byte) (s : State) : Out :=
  s.onDevIf (validMb mb) (tilpo cmdSealTable mb req)

/-- The handles of a parameter set, with the kind each must have (R198). -/
def setHandles (b : List Byte) : List (Nat × Nat) :=
  [(8, 1), (12, 2), (16, 3), (20, 2), (24, 3), (28, 4), (32, 5)].map fun p => (u32 b p.1, p.2)

/-- The numbers of sets bound to frames of a port that no pipe has finished (R196, R202). -/
def setsInUse (c : Chip) (p : Nat) : List Nat :=
  (c.port p).frames.map (·.set) ++
  (c.store.streams.filter fun e => e.2.port == p).flatMap fun e =>
    (e.2.frames.filter fun f => f.phase == .judging || f.phase == .input || f.phase == .processing).map (·.set)

/-- A table is referenced by a set that is active, pending or bound to a frame in flight (R196). -/
def tableInUse (c : Chip) (h : Nat) : Bool :=
  match c.store.tables.find? h with
  | none => false
  | some t =>
    let q := c.port t.port
    let bound := q.boundSets.filter fun e => (setsInUse c t.port).contains e.1
    (q.activeSets.map (·.2) ++ q.pendSets ++ bound.map (·.2)).any fun s => (setHandles s.bytes).any (·.1 == h)

/-- PIPE.FREE_TABLE (R196, R368). -/
def cmdFreeTable : Cmd :=
  { opcode := 0x0304, roles := [2], size := fun r => r.length == 4, stage := 3,
    body := fun _ r d =>
      match d.chip.store.tables.find? (u32 r 0) with
      | none => .no stBADARG
      | some t =>
        if tableInUse d.chip (u32 r 0) then .no stBADSTATE
        else .commit fun d =>
          ({ d with chip := { d.chip with store.tables := d.chip.store.tables.drop (u32 r 0) },
                    mem := d.mem.erase (tableBase (u32 r 0)) t.size }, []) }

def execPipeFreeTable (mb : Nat) (req : List Byte) (s : State) : Out :=
  s.onDevIf (validMb mb) (tilpo cmdFreeTable mb req)

/-- The MOSAIC that a stream declares by its output format (R197, R215, R229): of class 0x3 a colour mosaic, which the
port's camera must deliver (log 54). -/
def mosaicFits (format mosaic : Nat) : Bool :=
  if fmtClass format = 3 then mosaic != 0 else fmtLayout format == mosaic

/-- A parameter set's fields and tables are right for its port and substream (R189, R192 to R199, R215). -/
def setOk (d : Dev) (p : Nat) (b : List Byte) : Bool :=
  let c := d.chip
  let sub := u8 b 4 % 4
  let bytes := fun h => match c.store.tables.find? h with | some t => d.mem.readBytes (tableBase h) t.size | none => []
  let size := fun h => match c.store.tables.find? h with | some t => t.size | none => 0
  let dims := declared c p (some sub)
  let handles := (setHandles b).all fun e =>
    e.1 == 0 || (match c.store.tables.find? e.1 with | some t => t.sealed && t.port == p && t.kind == e.2 | none => false)
  let column := fun h => h == 0 || dims.all fun f => size h == 2 * f.1
  let grid := fun h shift => h == 0 ||
    (let g := bytes h
     u8 g 4 == shift && dims.all fun f =>
       u16 g 0 == (f.1 + 2 ^ shift - 1) / 2 ^ shift + 1 && u16 g 2 == (f.2 + 2 ^ shift - 1) / 2 ^ shift + 1)
  let shift := u8 b 45
  let defect := u32 b 28 == 0 || tableOk 4 (bytes (u32 b 28)) dims
  let mine := c.store.streams.filter fun e => e.2.port == p && e.2.sub == sub
  let col := u32 b 32
  let caps := (c.port p).caps
  let colour := if col = 0 then mine.all fun e => fmtClass e.2.out.format != 3
    else (mine.all fun e => mosaicFits e.2.out.format (u8 (bytes col) 0)) &&
      (mine.isEmpty || caps.isEmpty || bit (u16 caps 0x26) (mosaicIndex (u8 (bytes col) 0)))
  decide (u32 b 40 % 2 ^ 20 < u32 b 36 % 2 ^ 20) && decide (u8 b 44 % 16 ≤ 8) && handles && column (u32 b 12) &&
    column (u32 b 20) && grid (u32 b 16) (shift % 16) && grid (u32 b 24) (shift / 16) && defect && colour

/-- A set acts as IMMEDIATE (R198, R201). -/
def ParamSet.now (s : ParamSet) : Bool := bit s.flags 0 || s.late

/-- A tag is late for a substream (R201). -/
def tagLate (c : Chip) (p sub tag : Nat) : Bool :=
  match (c.port p).lastSof.find? sub with | some n => !before32 n tag | none => false

/-- PIPE.QUEUE_PARAMS (R198 to R201, R368). -/
def cmdQueueParams : Cmd :=
  { opcode := 0x0305, roles := [2, 3], size := fun r => r.length == 148, stage := 3,
    cfg := fun r _ => some (u8 r 0 * 4 + u8 r 8 % 4),
    body := fun x r d =>
      let p := u8 r 0
      let b := (r.drop 4).take 144
      let sub := u8 b 4 % 4
      let tag := u32 b 0
      let fl := u8 b 5
      let t := d.chip.port p
      let rises := bit fl 0 || (t.pendSets.filter fun s => s.sub == sub && !s.now).all fun s => before32 s.tag tag
      let late := !bit fl 0 && tagLate d.chip p sub tag
      if 63 < p || !setOk d p b || !rises then .no stBADARG
      else if !t.configured then .no stBADSTATE
      else if 8 ≤ t.pendSets.length then .no stBUSY
      else if late && !bit fl 2 then .no stBADSTATE
      else .doR fun c =>
        let t := c.port p
        let n := t.nextSet
        let s : ParamSet := { number := n, sub := sub, tag := tag, flags := fl, late := late, mailbox := x.mb, queuedAt := c.time.tb, bytes := b }
        (c.setPort p { t with pendSets := t.pendSets ++ [s], nextSet := if n + 1 = 2 ^ 32 then 1 else n + 1 },
          le 4 n ++ le 1 (b2n late) ++ le 3 0) }

def execPipeQueueParams (mb : Nat) (req : List Byte) (s : State) : Out :=
  s.onDevIf (validMb mb) (tilpo cmdQueueParams mb req)

/-- PIPE.CANCEL_PARAMS (R202, R368). -/
def cmdCancelParams : Cmd :=
  { opcode := 0x0306, roles := [2, 3], size := fun r => r.length == 8, stage := 3,
    body := fun _ r _ =>
      let p := u8 r 0
      if 63 < p || 3 < u8 r 1 then .no stBADARG
      else .doR fun c =>
        let t := c.port p
        let gone := fun (s : ParamSet) => s.sub == u8 r 1 && !before32 s.tag (u32 r 4)
        (c.setPort p { t with pendSets := t.pendSets.filter (!gone ·) },
          le 1 (t.pendSets.filter gone).length ++ le 3 0) }

def execPipeCancelParams (mb : Nat) (req : List Byte) (s : State) : Out :=
  s.onDevIf (validMb mb) (tilpo cmdCancelParams mb req)

/-- PIPE.READ_PARAMS (R368): set 0 where none is active. -/
def cmdReadParams : Cmd :=
  { opcode := 0x0307, roles := [], size := fun r => r.length == 2, stage := 3,
    body := fun _ r d =>
      if 63 < u8 r 0 || 3 < u8 r 1 then .no stBADARG
      else
        let t := d.chip.port (u8 r 0)
        let l := t.pendSets.filter fun s => s.sub == u8 r 1
        let a := t.activeSets.find? (u8 r 1)
        .say (le 4 ((a.map (·.number)).getD 0) ++ le 4 ((a.map (·.tag)).getD 0) ++ le 1 l.length ++ le 3 0 ++
          (l.flatMap fun s => le 4 s.number ++ le 4 s.tag ++ le 1 s.flags ++ le 3 0)) }

def execPipeReadParams (mb : Nat) (req : List Byte) (s : State) : Out :=
  s.onDevIf (validMb mb) (tilpo cmdReadParams mb req)

/-- Handshakes of a swatch: its E is in the device's read-only memory (R203, log 24). -/
def swatchShakes (n : Nat) : Nat := 336 * (1 + Config.openValue 24 0 [n] % 2)

/-- The sixteen swatches back to back, of which `fails` fail (R204, R207). -/
def Chip.swatchCycle (c : Chip) (p fails : Nat) : Chip :=
  let c := c.shake p (((List.range 16).map swatchShakes).foldl (· + ·) 0)
  let q := c.pipe p
  let c := c.setPipe p { q with swPass := sat 32 (q.swPass + (16 - fails)), swTime := if fails < 16 then c.t64 else q.swTime,
                                swFail := sat 16 (q.swFail + fails), flags := if fails = 0 then q.flags else setBit q.flags 1 }
  (c.count (0x600 + 16 * p + 2) (16 - fails)).count (0x600 + 16 * p + 3) fails

/-- PIPE.RESTORE (R207, R368): how many of the sixteen swatches fail is the pipe's own state, left open (log 24). -/
def cmdRestore : Cmd :=
  { opcode := 0x0308, roles := [2], size := fun r => r.length == 1, stage := 3,
    body := fun _ r d =>
      let p := u8 r 0
      let fails := d.chip.fresh 24 [p] % 17
      if 15 < p then .no stBADARG
      else if (d.chip.pipe p).state != .faulted then .no stBADSTATE
      else if fails != 0 then .refuseC stINTERNAL [] fun c => c.drawn.swatchCycle p fails
      else .doC fun c =>
        let c := c.drawn.swatchCycle p 0
        let c := c.setPipe p { c.pipe p with state := .idle, cause := 0 }
        let c := (c.dropFault 7 p).emit 0x14 2 p 0 0
        (c.requestStarts [{ kind := if c.stageNo < 4 then .pipeHalf else .pipeFull, inst := p }]).replan }

def execPipeRestore (mb : Nat) (req : List Byte) (s : State) : Out :=
  s.onDevIf (validMb mb) (tilpo cmdRestore mb req)

/-- The 16 words of a pipe's block (R211). -/
def pipeBlock (c : Chip) (p : Nat) : List Nat :=
  let q := c.pipe p
  let st := if q.state = .faulted then 2 else if c.stageNo = 3 then 3 else if q.state = .run then 1 else 0
  let port := (q.inline.bind c.stream?).map (·.port)
  let cur := match q.current with | some (s, e) => 2 ^ 24 + e % 256 * 2 ^ 16 + s % 512 | none => 0
  [st * 2 ^ 28 + q.cause * 2 ^ 24 + b2n port.isSome * 2 ^ 23 + port.getD 0 * 2 ^ 17 + min 64 (c.onPipe p).length,
   q.hs % 2 ^ 32, q.hs / 2 ^ 32, q.frames % 2 ^ 32, q.frames / 2 ^ 32, q.swPass, q.swTime % 2 ^ 32, q.swTime / 2 ^ 32,
   q.swFail * 2 ^ 16 + q.stalls, q.hdrRange * 2 ^ 16 + q.hdrPartial, q.dpUnrep, cur, q.flags, 0, 0, 0]

/-- PIPE.READ_STATUS (R363, R368). -/
def cmdReadPipe : Cmd :=
  { opcode := 0x0309, roles := [], size := fun r => r.length == 1, stage := 3,
    body := fun _ r d => if 15 < u8 r 0 then .no stBADARG else .say (wordBytes (pipeBlock d.chip (u8 r 0))) }

def execPipeReadStatus (mb : Nat) (req : List Byte) (s : State) : Out :=
  s.onDevIf (validMb mb) (tilpo cmdReadPipe mb req)

/-- PIPE.CLEAR_COUNTS (R211, R368). -/
def cmdClearPipe : Cmd :=
  { opcode := 0x030A, roles := [2, 3], size := fun r => r.length == 1, stage := 3,
    body := fun _ r _ =>
      if 15 < u8 r 0 && u8 r 0 != 0xFF then .no stBADARG
      else .doC fun c => c.foldC (if u8 r 0 = 0xFF then List.range 16 else [u8 r 0]) fun c p =>
        c.setPipe p { c.pipe p with hs := 0, frames := 0, swPass := 0, swFail := 0, stalls := 0, hdrRange := 0,
                                    hdrPartial := 0, dpUnrep := 0, flags := 0 } }

def execPipeClearCounts (mb : Nat) (req : List Byte) (s : State) : Out :=
  s.onDevIf (validMb mb) (tilpo cmdClearPipe mb req)

/-- PP_STATE is read (R212): the reader's latch takes the block. -/
def Chip.readPipe (c : Chip) (view p : Nat) : Chip :=
  let b := pipeBlock c p
  { c with rd := le 4 (b.getD 0 0), store.latches := c.store.latches.put (view * 16 + p) b }

def execPpStateRead (view : Nat) (pipe : Fin 16) (s : State) : Out :=
  s.onRead (validView view) view fun c => c.readPipe view pipe.val

/-- The in-line stream's next complete line (R183). -/
def Chip.inlineLine (c : Chip) (mem : Mem) (p : Nat) : Chip :=
  match c.inLineNext p with
  | none => c
  | some (sid, f) => (c.work mem p sid f 1).pipeWaits mem p

def execPipeInlineLine (pipe : Fin 16) (s : State) : Out :=
  s.runDev fun d => { d with chip := d.chip.inlineLine d.mem pipe.val }

/-- A slice of the stream that the round robin chooses (R183); a complete in-line line goes first. -/
def Chip.sliceStart (c : Chip) (mem : Mem) (p : Nat) : Chip :=
  if (c.inLineNext p).isSome then c
  else
    match pickSlice (c.pipe p) (c.startable mem p) with
    | none => c
    | some (st, q) =>
      let c := (c.setPipe p q).count (0x600 + 16 * p + 8) 1
      (c.work mem p st.sid st.frame (sliceLen st.frame)).pipeWaits mem p

def execPipeSliceStart (pipe : Fin 16) (s : State) : Out :=
  s.runDev fun d => { d with chip := d.chip.sliceStart d.mem pipe.val }

/-- Streams of a pipe that function 0 covers, by their destination or by a tile that shows them (R433, R436). -/
def Chip.coveredOn (c : Chip) (p : Nat) : List Nat :=
  ((c.onPipe p).filter fun sid =>
    (match c.stream? sid with | some s => c.coversStream 0 s | none => false) ||
      (List.range 16).any fun t => c.covers 0 t && (c.tile t).enabled && (c.tile t).stream == sid)

/-- A swatch (R203, R204). -/
def Chip.swatchRun (c : Chip) (p : Nat) (ok : Bool) : Chip :=
  let q := c.pipe p
  if q.state = .faulted || c.stageNo < 3 then c
  else
    let n := q.swNext
    let c := c.shake p (swatchShakes n)
    let q := { c.pipe p with swNext := (n + 1) % 16 }
    if ok then
      (c.setPipe p { q with swPass := sat 32 (q.swPass + 1), swTime := c.t64 }).count (0x600 + 16 * p + 2) 1
    else
      let hit := c.coveredOn p
      let c := ((c.setPipe p { q with swFail := sat 16 (q.swFail + 1) }).count (0x600 + 16 * p + 3) 1).faultPipe p 1
      c.foldC hit fun c sid => c.detect 0 0x0107 sid

def execPipeSwatchRun (pipe : Fin 16) (ok : Bool) (s : State) : Out := s.run fun c => c.swatchRun pipe.val ok

/-- A stage has not acknowledged for 100 µs (R205). -/
def Chip.pipeStall (c : Chip) (p : Nat) : Chip := if c.stageNo < 3 then c else c.faultPipe p 2

def execPipeStallTimeout (pipe : Fin 16) (s : State) : Out := s.run fun c => c.pipeStall pipe.val

/-- The commands of the family. -/
def pipeCmds : List Cmd :=
  [cmdAllocTable, cmdWriteTable, cmdSealTable, cmdFreeTable, cmdQueueParams, cmdCancelParams, cmdReadParams, cmdRestore,
   cmdReadPipe, cmdClearPipe]

end Sys2Proof.Machine
end

