-- ==== Sys2Proof/Machine/TimeOps.lean ====
section
/-! DEFINITION. The timebase's shared operations: the TB96 layout, the passage of time, discipline states, steps
(R5, R39 to R48). -/

namespace Sys2Proof.Machine

/-- TB96 (R5) of a count of 2⁻¹⁶ ns. -/
def tb96 (tb : Nat) : Nat := tb / secU * 2 ^ 48 + tb % secU / 65536 * 65536 + tb % 65536

/-- The count of 2⁻¹⁶ ns that a TB96 value gives, if its nanoseconds field is valid (R5). -/
def ofTb96 (v : Nat) : Option Nat :=
  if bits v 16 32 < 1000000000 then some (v / 2 ^ 48 * secU + bits v 16 32 * 65536 + v % 65536) else none

/-- The code of TB_STATUS.STATE (R42). -/
def discCode : DiscState → Nat | .freeRun => 0 | .acquire => 1 | .locked => 2 | .holdover => 3

/-- The code of TB_STATUS.SOURCE (R42). -/
def sourceCode : TimeSource → Nat | .free => 0 | .ext => 1 | .seam => 2

/-- Picoseconds in units of 2⁻¹⁶ ns; the rounding is not stated (log 10). -/
def psU (ps : Int) : Int := quot (ps * 65536) 1000

namespace Chip

/-- Time passes by `d` units of 2⁻¹⁶ ns. -/
def pass (c : Chip) (d : Nat) : Chip := { c with time.tb := c.time.tb + d, time.up := c.time.up + d }

/-- Sets TB_EVT bits in every view at once (R42). -/
def setTbEvt (c : Chip) (m : Nat) : Chip :=
  { c with time.evt := c.time.evt ||| m, time.evtCleared := c.time.evtCleared.mapVals fun _ v => clearBits v m }

/-- The TB_EVT copy of a view (R42). -/
def tbEvt (c : Chip) (v : Nat) : Nat := clearBits c.time.evt (c.time.evtCleared.getD 0 v)

/-- A change of the discipline state with its TB_EVT bits and its TB_STATE record (R47). -/
def setDisc (c : Chip) (st : DiscState) : Chip :=
  let old := c.time.disc
  if st = old then c
  else
    let m := (if st = .locked then 1 else 0) + (if old = .locked then 2 else 0) + (if st = .holdover then 4 else 0)
    let c := ({ c with time.disc := st, time.good := 0, time.missed := 0 } : Chip).setTbEvt m
    c.emit 0 2 0 (discCode st * 16 + sourceCode c.time.source) (unsigned 64 c.time.phaseErr)

/-- The device is the fabric root (R396). -/
def isRoot (c : Chip) : Bool := c.seam.root == some Config.serial.toNat

/-- A unit, pulse schedule or window is armed (cause 0x4 of R46). Instants of a disarmed unit that have been sent and lie ahead
count too: the cause protects them (log 76). -/
def anyArmed (c : Chip) : Bool :=
  (c.trig.units.any fun p => p.2.state == 1 || !p.2.fires.isEmpty) || (c.trig.pins.any fun p => p.2.pulses.any (·.scheduled)) ||
    c.trig.windows.any fun p => p.2.phase == .waiting || p.2.phase == .opened

/-- The head of a SNAP_DATA (R415): the number and MISSED, whose places are not stated (log 29). -/
def snapHead (number : Nat) (missed : Bool) : List Byte := le 4 number ++ le 4 (b2n missed) ++ List.replicate 24 0

/-- A snapshot whose instant cannot be met (R381, R415): it is held with MISSED, its ticket ends TIMEOUT; to the device that
asked for it MISSED is returned. -/
def missSnap (endT : Chip → Nat → Chip) (c : Chip) (s : Snapshot) : Chip :=
  match s.origin with
  | some o =>
    let c := { c with ev.snaps := c.ev.snaps.filter fun (t : Snapshot) => t.number != s.number }
    (c.emit 0x2A 2 0 1 (s.number * 2 ^ 32)).originate 3 0x41 o 0 (snapHead s.originNumber true)
  | none =>
    let v := { s with done := true, missed := true }
    let c := { c with ev.snaps := c.ev.snaps.map fun (t : Snapshot) => if t.number = s.number then v else t }
    let c := c.emit 0x2A 2 0 1 (s.number * 2 ^ 32)
    match s.ticket with | some t => endT c t | none => c

/-- The timebase has stopped (R381): every snapshot and step that is scheduled is missed, and their tickets end TIMEOUT; a
missed step leaves TB_SET_STATUS at IDLE (log 76). -/
def timeStops (endT : Chip → Nat → Chip) (c : Chip) : Chip :=
  let c := c.foldC (c.ev.snaps.filter fun s => !s.done) (missSnap endT)
  match c.time.pendingStep with
  | none => c
  | some p =>
    let c := { c with time.pendingStep := none, time.setState := 0 }
    match p.ticket with | some t => endT c t | none => c

/-- A step takes effect (R45, R48): STEPPED, the TB_STEP record with both T64 values, and the snapshots that it jumps
past (R381). `old` is what the old timebase would have read. -/
def stepTo (endT : Chip → Nat → Chip) (c : Chip) (old new mode : Nat) : Chip :=
  let c := { c with time.tb := new, safety.lastT := none }
  let c := (c.setTbEvt 8).emit 0 1 0 mode (old / 65536)
  c.foldC (c.ev.snaps.filter fun s => !s.done && decide (s.instant ≤ c.t64)) (missSnap endT)

/-- The count at the next nanoseconds roll-over (R45). -/
def nextSecond (c : Chip) : Nat := (c.time.tb / secU + 1) * secU

/-- A timebase that may be set (R6): its whole second lies before the wrap of T64, so the greatest seconds value that is set
is 18,446,744,072 (log 76: the spec leaves open whether the second in which T64 wraps may be set). -/
def settable (tb : Int) : Bool := decide (0 ≤ tb) && decide ((tb / secU + 1) * 1000000000 ≤ 2 ^ 64)

/-- The result of a staged step lies in the range of the seconds and of T64 (R6, R46). -/
def stepInRange (c : Chip) (mode sec : Nat) (ofs : Int) : Bool :=
  settable (if mode = 1 then (sec * secU : Nat) else (c.time.tb : Int) + ofs * 65536)

/-- An acquisition step is due at the next roll-over (R48): nothing is armed, no other step is pending, and its result may be
set (R6). A positive phase error is a timebase ahead of its source (log 76). -/
def acquiring (c : Chip) : Option Nat :=
  match c.time.acqStep with
  | none => none
  | some e =>
    let new : Int := (c.nextSecond : Int) - psU e
    if c.time.disc = .acquire && !c.anyArmed && c.time.pendingStep.isNone && settable new then some new.toNat else none

/-- The refusal cause of a step, of 0x3, 0x1 and 0x4 in that order, 0 for none (R46); source SEAM refuses it on the fabric root,
too (log 76). -/
def stepCause (c : Chip) (mode sec : Nat) (ofs : Int) : Nat :=
  if (mode != 1 && mode != 2) || !c.stepInRange mode sec ofs then 3
  else if c.time.source != .free then 1
  else if c.anyArmed then 4
  else 0

/-- A step is REFUSED with its cause (R46). -/
def stepRefused (c : Chip) (cause : Nat) : Chip := { c with time.setState := 3, time.setCause := cause }

/-- An accepted step (R45): OFFSET at once, STEP_AT_SECOND at the next roll-over. -/
def stepAccepted (endT : Chip → Nat → Chip) (c : Chip) (mode sec : Nat) (ofs : Int) (ticket : Option Nat) : Chip :=
  if mode = 1 then
    { c with time.setState := 1, time.setCause := 0, time.pendingStep := some { sec := sec, ticket := ticket } }
  else
    let c := { c with time.setState := 2, time.setCause := 0 }
    c.stepTo endT c.time.tb ((c.time.tb : Int) + ofs * 65536).toNat 2

end Chip

end Sys2Proof.Machine
end

