-- ==== Sys2Proof/Machine/PosOps.lean ====
section
/-! DEFINITION. Encoder channels: counting, reversal hysteresis, speed, faults, dividers, the position page (R70 to
R101). -/

namespace Sys2Proof.Machine

/-- A 48-bit two's complement position (R89). -/
def wrap48 (x : Int) : Int := signed 48 (unsigned 48 x)

/-- The signed difference of two positions modulo 2⁴⁸ (R89). -/
def posDiff (a b : Int) : Int := wrap48 (a - b)

/-- A position field in its 48-bit range (R362). -/
def posOk (x : Int) : Bool := decide (-(2 ^ 47) ≤ x) && decide (x < 2 ^ 47)

/-- An incremental mode (R72): quadrature, pulse and direction, or up and down. -/
def incremental (m : EncMode) : Bool :=
  m == .quadX1 || m == .quadX2 || m == .quadX4 || m == .pulseDir || m == .upDown

/-- A serial mode (R85). -/
def serial (m : EncMode) : Bool := m == .bissC || m == .ssi

/-- The pairs under wire-break monitoring: none in OFF, B and Z never in the serial modes (R71, R85). -/
def wbPairs (e : EncChan) : Nat := if e.mode = .off then 0 else if serial e.mode then e.wbMask % 2 else e.wbMask

namespace Chip

/-- A unit, a window or a peer's unit whose source is the channel is armed (R72, R411). -/
def chanArmed (c : Chip) (ch : Nat) : Bool :=
  (c.trig.units.any fun p => p.2.state == 1 && p.2.head.source == ch) ||
    (c.trig.windows.any fun p => (p.2.phase == .waiting || p.2.phase == .opened) &&
      ([p.2.start, p.2.stop].any fun e => match e with | .position k _ _ => k == ch | _ => false)) ||
    c.seam.mirrors.any fun m => m.chan == ch

/-- The base of a channel's counters (R509). -/
def encCtr (ch : Nat) : Nat := 0xE80 + 16 * ch

/-- The timestamp of an accepted edge: the first of its N samples of 2.5 ns (R77). -/
def edgeTime (c : Chip) (ch : Nat) : Nat := c.time.tb - (c.enc ch).filterN * 163840

/-- ENC_FAULT with its cause, reading failure and pairs (R498). -/
def encFaultRec (c : Chip) (ch cause fail pairs : Nat) (warn : Bool) : Chip :=
  c.emit 8 1 ch (b2n warn * 2 ^ 15 + cause * 2 ^ 12 + fail * 2 ^ 8 + pairs) (unsigned 64 (c.enc ch).raw)

/-- The channel enters FAULT (R75, R76, R87, R445): its speed is INVALID, function 3 takes the cause (R436). -/
def encFault (c : Chip) (ch cause fail pairs : Nat) (warn : Bool) : Chip :=
  let e := c.enc ch
  let c := if e.fault then c else ((c.setEnc ch { e with fault := true, speed := .invalid }).count (encCtr ch + 4) 1).addFault 0x09 ch
  let c := c.encFaultRec ch cause fail pairs warn
  if c.covers 3 ch then c.detect 3 (if cause = 1 then 0x0401 else if cause = 2 then 0x0402 else 0x0403) ch else c

/-- A decoder error (R80, R84): counted, flagged, reported, and FAULT past QERR_LIMIT (R76). `flag` is the sticky bit. -/
def decodeError (c : Chip) (ch flag prev new : Nat) : Chip :=
  let e := c.enc ch
  let c := c.setEnc ch { e with qerrCount := sat 16 (e.qerrCount + 1), sticky := setBit e.sticky flag }
  let c := (c.count (encCtr ch + 2) 1).emit 9 1 ch (prev * 16 + new) (unsigned 64 e.raw)
  if e.qerrLimit < sat 16 (e.qerrCount + 1) ∧ e.qerrLimit ≠ 255 ∧ ¬ e.fault then c.encFault ch 2 0 0 false else c

/-- The sequence of the speed measurement at a change of x_c at edge time `t` (R94, R96). -/
def speedStep (e : EncChan) (t : Nat) : EncChan :=
  let old := if e.reverse != e.prevReverse then [] else e.ring
  let ring := (t :: old).take 1024
  let k := min (2 ^ e.kLog2) (ring.length - 1)
  let e := { e with ring := ring, prevReverse := e.reverse, edge := t }
  if k = 0 then e
  else
    let span := t - ring.getD k 0
    let target := e.targetNs * nsU
    let kl := if !e.auto then e.kLog2
      else if 2 * span < target ∧ e.kLog2 < e.kmaxLog2 then e.kLog2 + 1
      else if 2 * target < span ∧ e.kminLog2 < e.kLog2 then e.kLog2 - 1
      else e.kLog2
    { e with measured := .valid (if e.reverse then -(k : Int) else k) span, kLog2 := kl }

/-- The reversal hysteresis after a change of the raw count (R92). -/
def hysteresis (e : EncChan) (t : Nat) : EncChan :=
  let d := posDiff e.raw e.xc
  if 0 < d then speedStep { e with xc := e.raw, reverse := false } t
  else if d < -1 then speedStep { e with xc := wrap48 (e.raw + 1), reverse := true } t
  else e

/-- A compare position passes a value in an armed direction, 0 FORWARD, 1 REVERSE, 2 BOTH (R53, R66). -/
def crosses (old new v : Int) (dir : Nat) : Bool :=
  let step := posDiff new old
  let at_ := posDiff v old
  (dir != 1 && decide (0 < at_) && decide (at_ ≤ step)) || (dir != 0 && decide (at_ < 0) && decide (step ≤ at_))

/-- Position events of capture windows: the edge after hysteresis (R66). -/
def windowCrossings (c : Chip) (ch : Nat) (old new : Int) (t : Nat) : Chip :=
  c.foldC (List.range 16) fun c w =>
    let ws := c.window w
    if ws.phase = .unarmed then c
    else
      let hit := fun (e : WinEvent) => match e with | .position k dir v => k == ch && crosses old new v dir | _ => false
      let c := if hit ws.start then c.winPush w t false else c
      if hit ws.stop then c.winPush w t true else c

/-- The raw count of a channel into its history of 1 ms (R412), from which late triggers take their position, too (R58). -/
def pushHistory (c : Chip) (ch : Nat) : Chip :=
  let l := c.seam.history.getD [] ch
  let n := (l.takeWhile fun p => decide (c.t64 < p.1 + 1000000)).length
  { c with seam.history := c.seam.history.put ch ((c.t64, (c.enc ch).raw) :: l.take (n + 1)) }

/-- The raw count of a channel at an instant of the last 1 ms (R58, R412). -/
def countAt (c : Chip) (ch t : Nat) : Option Int :=
  if c.t64 < t || t + 1000000 < c.t64 then none
  else match (c.seam.history.getD [] ch).find? fun p => decide (p.1 ≤ t) with
    | some p => some p.2
    | none => if (c.seam.history.getD [] ch).isEmpty then some (c.enc ch).raw else none

/-- `d` counts of one sign into every divider of the channel (R98, R99). -/
def dividerInput (c : Chip) (ch : Nat) (d : Int) : Chip :=
  c.foldC (List.range 4) fun c p =>
    let v := c.divider p
    if v.source != some ch || v.n = 0 then c
    else
      let total : Int := v.acc + d * v.m
      let back := v.backlog + total / v.n
      let kept : Int := if 65535 < back then 65535 else if back < -65535 then -65535 else back
      let c := c.setDivider p { v with acc := (total % v.n).toNat, backlog := kept }
      if kept = back then c
      else
        let lost := (back - kept).natAbs
        let e := c.enc ch
        let c := c.setEnc ch { e with sticky := setBit e.sticky 4 }
        (c.count (encCtr ch + 7) lost).emit 0xA 3 p ch lost

/-- The decoder produces `d` counts with edge time `t` (R76, R89, R92); in FAULT it applies none (R75). -/
def countBy (c : Chip) (ch : Nat) (d : Int) (t : Nat) : Chip :=
  let e := c.enc ch
  if e.fault || d == 0 then c
  else
    let sum := e.raw + d
    let raw := wrap48 sum
    let e' := hysteresis { e with raw := raw, sticky := if raw = sum then e.sticky else setBit e.sticky 5 } t
    let c := (c.setEnc ch e').count (encCtr ch + (if 0 < d then 0 else 1)) d.natAbs
    let c := if raw = sum then c else c.emit 0xA 1 ch (if 0 < d then 0 else 1) 0
    let c := (c.pushHistory ch).windowCrossings ch e.xc e'.xc t
    c.dividerInput ch d

/-- The direction that INVERT gives a count (R71). -/
def oriented (e : EncChan) (d : Int) : Int := if e.invert then -d else d

/-- The raw counter and the compare position take a value (R90, R91). -/
def loadPos (e : EncChan) (v : Int) : EncChan := { e with raw := v, xc := v }

/-- What a channel publishes (R94). -/
def publishedSpeed (e : EncChan) (now : Nat) : Speed :=
  let last := e.ring.getD 0 0
  let age := now - last
  if e.fault then .invalid
  else if e.ring.length < 2 then .stopped
  else if e.stopUs * usU < age then .stopped
  else
    match e.measured with
    | .valid n span =>
      if span < age * n.natAbs then .valid (if e.reverse then -1 else 1) age else .valid n span
    | s => s

/-- A speed in units of 2⁻¹⁶ counts/s (R100); the rounding is not stated (log 10), nor the value while it is INVALID: 0 (log 82). -/
def speedUnits : Speed → Int
  | .valid n span => quot (n * ((secU : Nat) : Int) * 65536) span
  | _ => 0

/-- The 16 words of a channel's block (R100). -/
def posBlock (c : Chip) (ch : Nat) : List Nat :=
  let e := c.enc ch
  let raw := unsigned 48 e.raw
  let cmp := unsigned 48 e.xc
  let t := e.edge / 65536
  let v := unsigned 48 (speedUnits e.speed)
  let st := match e.speed with | .valid _ _ => 0 | .stopped => 1 | .invalid => 2
  let z := unsigned 48 e.zCnt
  let d := ((List.range 4).map c.divider).find? (·.source == some ch)
  let acc := (d.map (·.acc)).getD 0
  let pend := unsigned 17 ((d.map (·.backlog)).getD 0)
  [raw % 2 ^ 32, raw / 2 ^ 32, cmp % 2 ^ 32, cmp / 2 ^ 32, t % 2 ^ 32, t / 2 ^ 32, v % 2 ^ 32,
   e.kLog2 * 2 ^ 28 + st * 2 ^ 26 + v / 2 ^ 32,
   e.wbNow * 2 ^ 9 + b2n e.fault * 2 ^ 8 + b2n e.reverse * 2 ^ 7 + e.sticky % 64,
   e.serrCount * 2 ^ 16 + e.qerrCount, z % 2 ^ 32, z / 2 ^ 32, e.zTime % 2 ^ 32, e.zTime / 2 ^ 32, acc, pend]

/-- A sample of a mirrored channel to its peer (R411). -/
def sendSample (c : Chip) (m : MirrorSt) : Chip :=
  let e := c.enc m.chan
  let st := match e.speed with | .valid _ _ => 0 | .stopped => 1 | .invalid => 2
  c.originate 0 0x21 m.peer 0
    (le 1 m.chan ++ le 1 st ++ le 1 (b2n e.reverse) ++ List.replicate 5 0 ++ le 8 (unsigned 64 e.xc) ++
      le 8 (e.edge / 65536) ++ le 8 (unsigned 64 (speedUnits e.speed)))

end Chip

/-- The words of a register block as bytes (R9). -/
def blockBytes (ws : List Nat) : List Byte := (ws.map (le 4)).flatten

end Sys2Proof.Machine
end

