-- ==== Sys2Proof/Machine/Safe.lean ====
section
/-! DEFINITION. The safety family of the command set but for the exit of the safe state, the monitor's checks, and the
management pairs (R432 to R451). -/

namespace Sys2Proof.Machine

namespace Chip

/-- Scope bits that exist for each function (R433). -/
def scopeMask (i : Nat) : Nat :=
  if i = 0 then 0x3FFFF else if i = 1 then 0x30000 else if i = 2 then 0xFFFFFFFF else 0xFF


/-- A camera port on which function 2 may not rest (R435). -/
def portUnsafe (c : Chip) (p : Nat) : Bool := (c.port p).longLink || decide (5 < (c.port p).expTimeout)

/-- A unit that function 2 may not cover (R435): a fabric source, a channel that an enabled function 3 does not cover,
or a camera port of R435. -/
def unitUnsafe (c : Chip) (h : TrigHead) : Bool :=
  decide (0x40 ≤ h.source) || (decide (h.source < 8) && !c.covers 3 h.source) ||
    (match h.port with | some p => c.portUnsafe p | none => false)

/-- A channel that function 3 may not cover (R435). -/
def encUnsafe (e : EncChan) : Bool :=
  e.mode == .off || e.qerrLimit == 255 || (incremental e.mode && e.wbMask % 4 != 3)

/-- Units that are armed and in a scope. -/
def armedIn (c : Chip) (scope : Nat) : List Nat :=
  (List.range 32).filter fun u => bit scope u && (c.unit u).state == 1

end Chip

/-- SAFETY.SET_FUNCTION (R432, R433, R435, R374). -/
def cmdSetFunction : Cmd :=
  { opcode := 0x0801, roles := [2], size := fun r => r.length == 16, stage := 4,
    cfg := fun r _ => some (u8 r 0),
    body := fun _ r d =>
      let c := d.chip
      let i := u8 r 0
      let on := u8 r 1
      let scope := u64 r 8
      if 3 < i || 1 < on || clearBits scope (Chip.scopeMask i) != 0 then .no stBADARG
      else
        let bad :=
          if on = 1 then
            (i == 0 && bits scope 0 16 != 0 && c.panel.state == .off) ||
            (i == 2 && (c.armedIn scope).any fun u => c.unitUnsafe (c.unit u).head) ||
            (i == 3 && (List.range 8).any fun e => bit scope e && Chip.encUnsafe (c.enc e))
          else
            i == 3 && (c.safeFn 2).enabled && (c.armedIn (c.safeFn 2).scope).any fun u =>
              decide ((c.unit u).head.source < 8) && c.covers 3 (c.unit u).head.source
        if bad then .no stBADSTATE
        else .doC fun c =>
          let f := c.safeFn i
          if on = 1 then
            let c := c.setSafeFn i { f with enabled := true, scope := scope,
                                            state := if f.state = .disabled then .active else f.state }
            if f.state = .disabled then c.foldC c.safety.all fun c p => (c.demand i p.1).enterSafe i p.1 else c
          else c.setSafeFn i { SafeFn.reset with scope := scope } }

def execSafetySetFunction (mb : Nat) (req : List Byte) (s : State) : Out :=
  s.onDevIf (validMb mb) (tilpo cmdSetFunction mb req)

/-- The code of a function's state (R434). -/
def fnCode : FnState → Nat | .disabled => 0 | .active => 1 | .demand => 2 | .latched => 3

/-- SAFETY.READ_STATUS (R374, R434). -/
def cmdReadSafety : Cmd :=
  { opcode := 0x0802, roles := [], size := fun r => r.length == 0,
    body := fun _ _ d =>
      let c := d.chip
      let one := fun i => let f := c.safeFn i
        le 1 (b2n f.enabled) ++ le 1 (fnCode f.state) ++ le 2 f.cause ++ le 8 f.scope ++ le 8 f.detect
      .say (le 1 (b2n c.safety.safe) ++ le 1 (b2n c.safety.pinA + 2 * b2n c.safety.pinB) ++ le 2 0 ++
        one 0 ++ one 1 ++ one 2 ++ one 3) }

def execSafetyReadStatus (mb : Nat) (req : List Byte) (s : State) : Out :=
  s.onDevIf (validMb mb) (tilpo cmdReadSafety mb req)

/-- SAFETY.READ_FAULTS (R374, R445). -/
def cmdReadFaults : Cmd :=
  { opcode := 0x0804, roles := [], size := fun r => r.length == 0,
    body := fun _ _ d =>
      let c := d.chip
      let l := c.mgmt.faults
      .say (le 1 l.length ++ List.replicate 7 0 ++ (l.map fun f =>
        le 1 f.kind ++ le 1 f.inst ++ le 2 0 ++ le 4 (min ((c.up - f.since) / msU) 0xFFFFFFFF) ++ le 8 f.t64).flatten) }

def execSafetyReadFaults (mb : Nat) (req : List Byte) (s : State) : Out :=
  s.onDevIf (validMb mb) (tilpo cmdReadFaults mb req)

/-- Each channel's check of its registers, of the timebase and of the sampling clock (R432, R436): T64 must not have
fallen since the last check but by a step. A timebase that fails the check meets no scheduled instant (R381). What the hardware computes wrongly from here on comes with it (log 79). -/
def Chip.registerCheck (c : Chip) (chan : Nat) (crcOk timeOk : Bool) (m : MonitorRead) : Chip :=
  let back := match c.safety.lastT with | some t => decide (c.t64 < t) | none => false
  let c := if timeOk then c else c.timeStops Chip.ticketMissed
  let c := if crcOk then c else c.addFault 0x0A chan
  let c := c.judgeAll (!crcOk) 0x0F04 (2 + chan)
  let c := c.judge (!timeOk || back) 1 0x0202 chan
  let c := c.judge (!m.sampleOk) 3 0x0405 chan
  let c := c.foldC ((List.range 8).filter fun e => bit m.wrong.enc e && c.covers 3 e) fun c e => c.detect 3 0x0404 e
  let c : Chip := { c with safety.wrong := m.wrong }
  { c with safety.lastT := some c.t64 }

def execSafetyRegisterCheck (chan : Fin 2) (crcOk timeOk : Bool) (sampleOk : MonitorRead) (s : State) : Out :=
  s.run fun c => c.registerCheck chan.val crcOk timeOk sampleOk

/-- One period of the pins (R436, R437, R439, R440, R442): each channel's readback of the other's pin, the causes that
were events, the end of a safe state that MODE alone caused (R431), and the pins' edges at the period start. -/
def Chip.heartbeat (c : Chip) (aOk bOk : Bool) : Chip :=
  let c := if aOk then c else c.addFault 0x0A 0
  let c := if bOk then c else c.addFault 0x0A 1
  let c := (c.judgeAll (!aOk) 0x0F04 0).judgeAll (!bOk) 0x0F04 1
  let c := if c.safety.modeOnly && c.healthy then c.leaveSafe 0x0104 else c
  let c :=
    if c.safety.resume && c.healthy && !c.safety.safe then { c with safety.resume := false, safety.beat := true } else c
  let c := if c.safety.beat then { c with safety.pinA := true, safety.pinB := false }
    else { c with safety.pinA := false, safety.pinB := true }
  c.foldC (List.range 4) fun c i =>
    c.foldC ((c.safeFn i).causes.filter fun p => momentary p.1) fun c p => c.clearCause i p.1 p.2

def execHeartbeatPeriod (aOk bOk : Bool) (s : State) : Out := s.run fun c => c.heartbeat aOk bOk

/-- The supply comparators (R436): the SUPPLY cause of VDD_CORE (object 0) or VDDIO_33 (object 1). -/
def execSupplyOutOfRange (core out : Bool) (s : State) : Out :=
  s.run fun c => c.judgeAll out 0x0F02 (if core then 0 else 1)

namespace Chip

def pairState (c : Chip) (p : Nat) : PairState := if p = 0 then c.mgmt.pairA else c.mgmt.pairB

def setPair (c : Chip) (p : Nat) (v : PairState) : Chip :=
  if p = 0 then { c with mgmt.pairA := v } else { c with mgmt.pairB := v }

def imageOf (c : Chip) (p : Nat) : Nat := if p = 0 then c.mgmt.imageA else c.mgmt.imageB

def setImage (c : Chip) (p i : Nat) : Chip :=
  if p = 0 then { c with mgmt.imageA := i } else { c with mgmt.imageB := i }

/-- Version of a firmware image. -/
def versionOf (c : Chip) (i : Nat) : Nat := if i = 0 then c.board.imageA.version else c.board.imageB.version

/-- Pair `p` becomes active (R448 to R451), with MGMT_HANDOVER and its cause. -/
def takeOver (c : Chip) (p cause : Nat) : Chip :=
  let c := (c.setPair p .active)
  let c := { c with mgmt.active := p, board.running := c.imageOf p }
  c.emit 0x24 1 p cause (c.versionOf (c.imageOf p))

/-- The active pair faults (R450): it is held in reset, its controllers are reset (R496), the standby takes over; an
activation whose image the standby was loading ends INTERNAL (R451). -/
def lockstep (c : Chip) : Chip :=
  let a := c.mgmt.active
  if c.pairState a != .active then c
  else
    let b := 1 - a
    let c := (c.setPair a .faulted).addFault 0x06 a
    let c := c.foldC (List.range 4) fun c i => c.setMc i { c.mc i with abandoned := true }
    let c := c.foldC c.mbx.tickets fun c t =>
      match t.kind with | .fwActivate _ => c.endTicket t.id stINTERNAL | _ => c
    if c.pairState b = .standby then c.takeOver b 1 else c

/-- A faulted pair ends its self-test (R450): passed, it returns as standby, or becomes active where no pair is. -/
def selfTest (c : Chip) (p : Nat) (ok : Bool) : Chip :=
  if c.pairState p != .faulted || !ok then c
  else
    let c := c.dropFault 0x06 p
    if c.pairActive then
      let c := c.setPair p .standby
      ({ c with mgmt.mirrored := 0 } : Chip).emit 0x24 1 c.mgmt.active 3 (c.versionOf (c.imageOf p))
    else c.takeOver p 3

/-- A pair has booted, verified its image and caught up (R448, R451): it is the standby. -/
def standbyReady (c : Chip) (p : Nat) : Chip :=
  if c.pairState p = .booting ∧ c.pairActive then { c.setPair p .standby with mgmt.mirrored := 0 } else c

end Chip

def safeCmds : List Cmd := [cmdSetFunction, cmdReadSafety, cmdReadFaults]

def execLockstepMismatch (s : State) : Out := s.run Chip.lockstep

def execPairSelfTestDone (pair : Fin 2) (ok : Bool) (s : State) : Out := s.run fun c => c.selfTest pair.val ok

def execStandbyPairReady (pair : Fin 2) (s : State) : Out := s.run fun c => c.standbyReady pair.val

end Sys2Proof.Machine
end

