-- ==== Sys2Proof/Machine/PortBase.lean ====
section
/-! DEFINITION. What triggers need of a camera port: its state, its leads, the FIREs it sends and how they end (R55,
R59, R141, R159 to R163). -/

namespace Sys2Proof.Machine

/-- The code of CP_STATE.STATE (R178). -/
def portCode : PortState → Nat
  | .off => 0 | .linking => 1 | .discover => 2 | .sync => 3 | .ready => 4 | .held => 5 | .refused => 6

/-- The minimum lead of a rate code (R55), 2⁻¹⁶ ns. -/
def leadOf (rate : Nat) : Nat := if rate < 2 then 2 * usU else if rate = 2 then 3 * usU else 5 * usU

namespace Chip

/-- The running rate of a port (R106). -/
def portRate (c : Chip) (p : Nat) : Nat := (c.quad (p / 4)).rate

/-- L_min of a unit's target, 0 without a camera port (R55, R58). -/
def lMin (c : Chip) (port : Option Nat) : Nat := match port with | some p => leadOf (c.portRate p) | none => 0

/-- The camera's minimum trigger interval (R59, R157), 2⁻¹⁶ ns. -/
def minTrig (c : Chip) (p : Nat) : Nat := u32 (c.port p).caps 0x10 * nsU

/-- The lanes of a port's bond. -/
def bondLanes (c : Chip) (p : Nat) : List Nat := (List.range (c.port p).width).map (p + ·)

/-- A change of a port's state with its CAM_STATE record (R141). -/
def setPortState (c : Chip) (p : Nat) (st : PortState) : Chip :=
  let t := c.port p
  if t.state = st then c
  else
    let c := c.setPort p { t with state := st, activeMask := if st = .off || st = .linking || st = .refused then 0
                                                              else t.activeMask }
    c.emit 0xD 1 p (portCode t.state * 4096 + portCode st * 256 + t.cause) t.camTag

/-- The next PSN of a port's packets (R145). -/
def nextPsn (c : Chip) (p : Nat) : Chip :=
  c.setPort p { c.port p with txPsn := ((c.port p).txPsn + 1) % 2 ^ 32 }

/-- A packet leaves downstream (R145). -/
def sendDown (c : Chip) (p : Nat) (o : CamOut) : Chip := ({ c with cam.out := c.cam.out ++ [o] } : Chip).nextPsn p

/-- FIRE_ID counts from 0 to 0xFFFE (R159). -/
def nextFireId (n : Nat) : Nat := if 0xFFFE ≤ n then 0 else n + 1

/-- Sends a FIRE to a port (R159, R160). -/
def sendFire (c : Chip) (p unit instant : Nat) (delayed : Bool) (enc : Nat) : Chip :=
  let t := c.port p
  let o : FireOut :=
    { fireId := t.nextFire, unit := unit, instant := instant, delayed := delayed, pos := none, enc := enc, noLatch := false,
      answered := false, sofs := [], ended := false }
  let c := c.setPort p { t with fires := t.fires ++ [o], nextFire := nextFireId t.nextFire, lastSent := some instant,
                                lastFire := t.nextFire }
  c.sendDown p (.fire p unit t.nextFire instant delayed t.txPsn)

/-- What the peg of a FIRE says of its trigger (R57, R257). -/
def fireTrigger (o : FireOut) : Trigger :=
  { time := o.instant / 65536, frac := o.instant % 65536, unit := o.unit, enc := o.enc, pos := o.pos.getD 0,
    flags := (if o.delayed then fDELAYED else 0) ||| (if o.noLatch then fDEGRADED else 0) }

/-- An outstanding FIRE ends LOST (R163): the frames of its SOF, or a peg of its own where no SOF has come. -/
def endFire (c : Chip) (p : Nat) (o : FireOut) : Chip :=
  let t := c.port p
  let c := c.setPort p { t with fires := t.fires.filter (·.fireId != o.fireId),
                                cNoStatus := if o.answered then t.cNoStatus else sat 16 (t.cNoStatus + 1) }
  if !o.sofs.isEmpty then c.foldC (c.store.streams.map (·.1)) fun c sid =>
    match c.stream? sid with
    | some s => if s.port = p then c.loseFrames sid (fun f => f.fireId == o.fireId && f.phase != .finished) 0 else c
    | none => c
  else c.lostTrigger p (fireTrigger o)

/-- Every outstanding FIRE of a port ends LOST (R163). -/
def endFires (c : Chip) (p : Nat) : Chip :=
  let c := c.foldC ((c.port p).fires.filter (!·.ended)) fun c o => c.endFire p o
  c.setPort p { c.port p with fires := [] }

/-- FIRE_REFUSED (R163, R498). -/
def fireRefused (c : Chip) (p detail instant : Nat) : Chip :=
  let t := c.port p
  (c.setPort p { t with cFireRefused := sat 16 (t.cFireRefused + 1) }).emit 0x11 1 p detail (instant / 65536)

end Chip

end Sys2Proof.Machine
end

