-- ==== Sys2Proof/Machine/TrigOps.lean ====
section
/-! DEFINITION. Trigger compare units: their sequences of triggers, what they send, holds and late triggers (R51 to
R60, R63, R64). -/

namespace Sys2Proof.Machine

/-- A quotient rounded down (floor). -/
def floorDiv (a : Int) (b : Nat) : Int := a.fdiv b

/-- An instant or a duration rounded to 100 ps: the fraction value nearest to the 100 ps step (R61, R62). -/
def round100 (t : Nat) : Nat := (roundDiv (roundDiv (t * 10) 65536 * 65536) 10).toNat

namespace Chip

/-- The k-th trigger of a sequence, `s` its sign in the armed direction (R51, R52). -/
def seqPos (c : Chip) (m : TrigMode) (s k : Int) : Option Int :=
  match m with
  | .oneShot x => if k = 0 then some x else none
  | .periodic x step _ => some (x + s * k * step)
  | .table first len loop delta =>
    if k < 0 || len = 0 || (!loop && decide ((len : Int) ≤ k)) then none
    else some (c.trig.table.getD 0 (first + (k % len).toNat) + delta * (k / len))

/-- The count of a PERIODIC sequence is used up (R51). -/
def countUsed (m : TrigMode) (used : Nat) : Bool :=
  match m with | .periodic _ _ n => n != 0 && decide (n ≤ used) | _ => false

/-- The first index of a table sequence whose entry lies beyond `y` in direction `s`, searched upward from `k`. -/
def tableUp (c : Chip) (m : TrigMode) (s y : Int) : Nat → Int → Option Int
  | 0, _ => none
  | n + 1, k =>
    match c.seqPos m s k with
    | none => none
    | some x => if 0 < s * posDiff x y then some k else tableUp c m s y n (k + 1)

/-- The nearest trigger position strictly beyond `y` in the direction of motion `s` (R53): of a PERIODIC unit from x0
on in its armed direction, in both directions where it is armed BOTH. -/
def triggerAfter (c : Chip) (u : TrigUnit) (s y : Int) : Option Int :=
  match u.mode with
  | .oneShot x => if 0 < s * posDiff x y then some x else none
  | .periodic x step _ =>
    let k := floorDiv (s * posDiff y x) step + 1
    let k := if u.head.direction = 2 then k else max 0 k
    some (x + s * k * step)
  | .table first len loop delta =>
    (c.tableUp u.mode s y (if loop then 4 * len + 4 else len + 1)
        (if loop && delta != 0 then max 0 (len * (floorDiv (posDiff y (c.trig.table.getD 0 first) * delta.sign)
          delta.natAbs - 1)) else 0)).bind fun k => c.seqPos (.table first len loop delta) s k

/-- The sign of the armed direction. -/
def dirSign (d : Nat) : Int := if d = 1 then -1 else 1

/-- The encoder channel that a peg names for a unit's source (R257, R412). -/
def encOf (source : Nat) : Nat := if source < 8 then source else if 0x40 ≤ source ∧ source < 0x48 then source - 0x40 else 0xFF

/-- Asks the encoder's device for the count at a fire instant (R412); `lost`: the port whose LOST peg waits for it. -/
def askLatch (c : Chip) (u peer source instant : Nat) (lost : Option Nat) : Chip :=
  let t := instant / 65536
  let w : LatchWait := { unit := u, instant := t, peer := peer, chan := source - 0x40, lost := lost }
  ({ c with seam.waits := c.seam.waits ++ [w] } : Chip).originate 0 0x22 peer 0
    (le 1 0 ++ le 1 (source - 0x40) ++ le 1 u ++ List.replicate 5 0 ++ le 8 t)

/-- The raw count that a fire instant latches now: of the unit's own channel (R57). -/
def latchNow (c : Chip) (source : Nat) : Int := if source < 8 then (c.enc source).raw else 0

/-- The two latches of a covered unit's position differ (R436). -/
def latchWrong (c : Chip) (u : Nat) : Bool := c.covers 2 u && bit c.safety.wrong.latch u

/-- The position that a peg of unit `u` takes now, and whether it failed POS_LATCH, which makes it 0 (R57, R438). -/
def latchPos (c : Chip) (u source : Nat) : Int × Bool :=
  if c.latchWrong u then (0, true) else (c.latchNow source, false)

/-- The position of unit `u` at an instant `t` not ahead (R58): the count that the channel's history holds; one before all
history is open (log 76). -/
def latchPast (c : Chip) (u source t : Nat) : Int × Bool :=
  if c.latchWrong u then (0, true)
  else if 0x40 ≤ source then (0, true)
  else if 8 ≤ source then (0, false)
  else ((c.countAt source (t / 65536)).getD (signed 48 (c.fresh 58 [u, t])), false)

/-- The detection of a failed latch (R436). -/
def latchSeen (c : Chip) (u : Nat) : Chip := if c.latchWrong u then c.detect 2 0x0302 u else c

/-- A port keeps its units back (R60, R161, R163). -/
def portHeld (c : Chip) (p : Nat) : Bool :=
  let t := c.port p
  t.state == .sync || t.state == .held || (t.longLink && t.state == .ready)

/-- A unit is held: by its port, or by the safe state (R60, R437). -/
def unitHeld (c : Chip) (u : Nat) : Bool :=
  c.safeHeld u || (match (c.unit u).head.port with | some p => c.portHeld p | none => false)

/-- TRIG_LATE (R58, R60, R498): TIME is t_p. -/
def lateRec (c : Chip) (u tp sent : Nat) (skipped : Bool) : Chip :=
  c.emitAt 1 1 u (b2n skipped * 2 ^ 15 + ((c.unit u).head.port.getD 0xFF)) sent (tp / 65536)

/-- A late trigger is counted (R58). -/
def countLate (c : Chip) (u : Nat) (skipped : Bool) : Chip :=
  let t := c.unit u
  let c := c.setUnit u { t with late := (t.late + 1) % 2 ^ 32, skipped := (t.skipped + b2n skipped) % 2 ^ 32 }
  (c.count (0xF00 + 4 * u + 1) 1).count (0xF00 + 4 * u + 2) (b2n skipped)

/-- A trigger that is not sent ends with a LOST peg (R58, R59): at once where its instant is past, else when it comes, and with
a peer's channel once the position has come (R412). -/
def lostAt (c : Chip) (u instant : Nat) (pos : Option (Int × Bool)) : Chip :=
  let t := c.unit u
  match t.head.port with
  | none => c
  | some p =>
    if 0x40 ≤ t.head.source && pos.isNone && decide (instant ≤ c.time.tb) then
      c.askLatch u t.head.peer t.head.source instant (some p)
    else if instant ≤ c.time.tb || pos.isSome then
      let l := pos.getD (c.latchPast u t.head.source instant)
      (if pos.isSome then c else (c.latchSeen u).drawn).lostTrigger p
        { time := instant / 65536, frac := instant % 65536, unit := u, enc := encOf t.head.source, pos := l.1,
          flags := if l.2 then fDEGRADED else 0 }
    else
      c.setUnit u { t with fires := t.fires ++
        [{ instant := instant, tp := instant, delayed := false, lost := true, fireId := none, port := some p,
           event := false, window := none, source := t.head.source }] }

/-- The unit is DONE once its sequence is used up and nothing of it is held or lies ahead (R46, R51, R60; log 76). -/
def settleUnit (c : Chip) (u : Nat) : Chip :=
  let t := c.unit u
  if t.state = 1 && t.spent && t.held.isEmpty && t.fires.isEmpty then c.setUnit u { t with state := 3 } else c

/-- One pulse of a bound pin for a fire instant (R63, R64), its edges on the 100 ps step (R65); `now` is the instant of
sending. -/
def strobe (c : Chip) (pin instant now : Nat) : Chip :=
  let p := c.pin pin
  let start : Int := round100 ((instant : Int) + psU p.offset).toNat
  let late := (instant : Int) + psU p.offset < now || (p.offset < 0 && decide ((instant : Int) - now < -(psU p.offset) + usU))
  if late then
    (c.setPin pin { p with lateCount := p.lateCount + 1 }).emit 6 2 pin 0 ((max 0 start).toNat / 65536)
  else
    c.setPin pin { p with pulses := p.pulses ++
      [{ start := start.toNat, high := round100 (psU p.high).toNat, period := 0, count := 1, scheduled := false }] }

/-- The pins bound to a unit (R63). -/
def boundPins (c : Chip) (u : Nat) : List Nat :=
  (List.range 24).filter fun i => (c.pin i).output && (c.pin i).unit == some u

/-- The shadow of a covered unit computes another fire-at instant (R436). -/
def shadowWrong (c : Chip) (u : Nat) : Bool := c.covers 2 u && bit c.safety.wrong.fire u

/-- A unit makes a fire instant and delivers it to its targets (R51, R57, R59, R63, R66, R163). For a port outside SYNC, READY
and HELD the trigger ends at once, with the position of this instant. -/
def makeFire (c : Chip) (u instant tp now : Nat) (delayed : Bool) : Chip :=
  let t := c.unit u
  let made := fun (c : Chip) =>
    let t := c.unit u
    let f : FireInst :=
      { instant := instant, tp := tp, delayed := delayed, lost := false,
        fireId := t.head.port.map fun p => (c.port p).lastFire, port := t.head.port, event := t.head.event,
        window := t.head.window, source := t.head.source }
    let c := (c.setUnit u { t with fires := t.fires ++ [f], fired := (t.fired + 1) % 2 ^ 32,
                                   lastInstant := instant / 65536 }).count (0xF00 + 4 * u) 1
    let c := c.foldC (c.boundPins u) fun c i => c.strobe i instant now
    match t.head.window with | some w => c.winCommand w instant | none => c
  match t.head.port with
  | none => made c
  | some p =>
    let q := c.port p
    if q.state = .off || q.state = .linking || q.state = .discover || q.state = .refused then
      ((c.latchSeen u).lostAt u instant (some (c.latchPast u t.head.source c.time.tb))).fireRefused p 5 instant
    else
      let close := match q.lastSent with
        | some l => decide (((instant : Int) - l).natAbs < c.minTrig p)
        | none => false
      if close then
        let c := c.setUnit u { t with overrun := true }
        let c := { c with ev.evfUnit := setBit c.ev.evfUnit u }
        let c := (c.count (0xF00 + 4 * u + 3) 1).emit 2 1 u p (instant / 65536)
        c.lostAt u instant none
      else made (c.sendFire p u instant delayed (encOf t.head.source))

/-- A fire instant passes the check of the unit's shadow (R436) or, with a camera port, is withheld and ends LOST as under
SKIP (R438). -/
def fireAt (c : Chip) (u instant tp now : Nat) (delayed : Bool) : Chip :=
  if !c.shadowWrong u then c.makeFire u instant tp now delayed
  else
    let d := c.detect 2 0x0301 u
    if (c.unit u).head.port.isSome then d.lostAt u tp none else d.makeFire u instant tp now delayed

/-- A trigger is due to be sent (R58, R60). The TRIG_LATE record of a late trigger under FIRE has SKIPPED clear and carries
t_now + L_min also where R59 then sends nothing (log 76). -/
def trigger (c : Chip) (u tp now : Nat) : Chip :=
  let t := c.unit u
  let l := c.lMin t.head.port
  if c.unitHeld u then
    let past := decide (tp ≤ c.time.tb)
    (if past then (c.latchSeen u).drawn else c).setUnit u { t with held := t.held ++
      [{ tp := tp, pos := if past then some (c.latchPast u t.head.source tp) else none }] }
  else if tp < now + l then
    if t.head.skip then
      (((c.countLate u true).lateRec u tp 0 true).lostAt u tp none).settleUnit u
    else (((c.countLate u false).lateRec u tp ((now + l) / 65536) false).fireAt u (now + l) tp now true).settleUnit u
  else (c.fireAt u tp tp now false).settleUnit u

/-- A held trigger for which nothing is sent (R60). -/
def dropHeld (c : Chip) (u : Nat) (h : HeldTrig) : Chip :=
  ((c.countLate u true).lateRec u h.tp 0 true).lostAt u h.tp (if 0x40 ≤ (c.unit u).head.source then none else h.pos)

/-- The end of a unit's hold at the present instant (R60): those still in time are sent unchanged; of the late ones
under FIRE only the latest, which is the one computed last (log 76). -/
def releaseUnit (c : Chip) (u : Nat) : Chip :=
  let t := c.unit u
  if c.unitHeld u || t.held.isEmpty then c
  else
    let now := c.time.tb
    let l := c.lMin t.head.port
    let late := t.held.filter fun h => decide (h.tp < now + l)
    let onTime := t.held.filter fun h => decide (now + l ≤ h.tp)
    let c := c.setUnit u { t with held := [] }
    let c :=
      if t.head.skip then c.foldC late fun c h => c.dropHeld u h
      else
        let c := c.foldC late.dropLast fun c h => c.dropHeld u h
        match late.getLast? with
        | none => c
        | some h => ((c.countLate u false).lateRec u h.tp ((now + l) / 65536) false).fireAt u (now + l) h.tp now true
    (c.foldC onTime fun c h => c.fireAt u h.tp h.tp now false).settleUnit u

/-- The end of a port's hold (R60). -/
def releasePort (c : Chip) (p : Nat) : Chip :=
  c.foldC ((List.range 32).filter fun u => (c.unit u).head.port == some p) fun c u => c.releaseUnit u

/-- The predicted crossing t_p = t_v + (x_t − x_v) / v (R56), never before the epoch; its rounding is not stated
(log 10). -/
def crossing (tv : Nat) (dx n : Int) (span : Nat) : Nat :=
  (max 0 ((tv : Int) + quot (dx * span * n.sign) n.natAbs)).toNat

/-- A trigger at position `x` is used: index, count, marks, and the end of the sequence (R51 to R53). -/
def usePos (t : TrigUnit) (x : Int) (more : Bool) : TrigUnit :=
  let used := t.used + 1
  let one := match t.mode with | .oneShot _ => true | _ => false
  let done := (one && !t.head.refire) || countUsed t.mode used || !more
  { t with index := t.index + 1, used := used, sent := some x,
           hi := some (match t.hi with | some h => if 0 < posDiff x h then x else h | none => x),
           lo := some (match t.lo with | some l => if posDiff x l < 0 then x else l | none => x),
           spent := done }

/-- The next trigger position of a unit for the present motion `s` with the axis at `x` (R53). -/
def nextPos (c : Chip) (t : TrigUnit) (s x : Int) : Option Int :=
  if !t.head.refire && t.head.direction != 2 then c.seqPos t.mode s t.index
  else
    let from_ := if 0 ≤ s * posDiff x t.seen then t.seen else x
    let from_ := match t.sent with | some z => if 0 < s * posDiff z from_ then z else from_ | none => from_
    let from_ := if t.head.refire then from_
      else match (if s = 1 then t.hi else t.lo) with
        | some m => if 0 < s * posDiff m from_ then m else from_
        | none => from_
    c.triggerAfter t s from_

/-- Sends the triggers of a position unit that this publication brings within the lead (R56). -/
def sendDue (c : Chip) (u : Nat) (x : Int) (tv : Nat) (n : Int) (span : Nat) : Nat → Chip
  | 0 => c
  | fuel + 1 =>
    let t := c.unit u
    let s := n.sign
    if t.state != 1 || t.spent then c
    else
      match c.nextPos t s x with
      | none => c
      | some p =>
        let tp := crossing tv (posDiff p x) n span
        if c.time.tb + t.head.lead * nsU < tp then c
        else
          let more := !(!t.head.refire && t.head.direction != 2) || (c.seqPos t.mode s (t.index + 1)).isSome
          let c := c.setUnit u (usePos t (wrap48 p) more)
          sendDue (c.trigger u tp c.time.tb) u x tv n span fuel

/-- What a publication gives a unit of its source (R56, R411): compare position, edge time, speed. -/
def published (c : Chip) (source : Nat) : Option (Int × Nat × Speed) :=
  if source < 8 then let e := c.enc source; some (e.xc, e.edge, e.speed)
  else none

/-- The extremes of x_c since the last publication that the unit acted on take in `x` (R53). -/
def ranged (t : TrigUnit) (x : Int) : TrigUnit :=
  { t with low := if posDiff x t.low < 0 then x else t.low, high := if 0 < posDiff x t.high then x else t.high }

/-- Where crossings not yet acted on begin for a motion (R53): behind a reversal at the point where the axis turned, so that
what it crossed before its speed was VALID again counts; there a position already sent counts again. -/
def turned (t : TrigUnit) (rev : Bool) : TrigUnit :=
  let back := if rev then t.high else t.low
  if rev != t.motion || back != t.seen then { t with motion := rev, sent := none, seen := back } else t

/-- A position unit acts on a publication (R53, R56). -/
def unitPublish (c : Chip) (u : Nat) (x : Int) (tv : Nat) (v : Speed) : Chip :=
  let t := c.unit u
  if t.state != 1 || t.spent then c
  else
    let t := ranged t x
    let c := c.setUnit u t
    match v with
    | .valid n span =>
      let rev := decide (n < 0)
      if n = 0 || (t.head.direction = 0 && rev) || (t.head.direction = 1 && !rev) then c
      else
        let c := (c.setUnit u (turned t rev)).sendDue u x tv n span 65536
        c.setUnit u { c.unit u with seen := x, low := x, high := x }
    | _ => c

end Chip

end Sys2Proof.Machine
end

