-- ==== Sys2Proof/Machine/Trig.lean ====
section
/-! DEFINITION. The trigger family of the command set, the trigger compare units' instants, the pulses of timing pins
and the events of capture windows (R51 to R69, R371). -/

namespace Sys2Proof.Machine

/-- The head of a TRIG.ARM_ command (R371); the peer is the device that relays the command (R411). -/
def trigHead (x : Ctx) (r : List Byte) : TrigHead :=
  { source := u8 r 1, peer := if 0x8000 ≤ x.mb then x.mb - 0x8000 else 0, direction := u8 r 2, skip := u8 r 3 == 1,
    refire := u8 r 4 == 1, port := if u8 r 5 = 0xFF then none else some (u8 r 5), event := u8 r 6 == 1,
    window := if u8 r 7 = 0xFF then none else some (u8 r 7), lead := u32 r 8 }

/-- The source is a position: E0 to E7, or a channel of a peer (R52, R411). -/
def posSource (src : Nat) : Bool := decide (src < 8) || (decide (0x40 ≤ src) && decide (src < 0x48))

/-- The source is a timing pin. -/
def pinSource (src : Nat) : Bool := decide (0x10 ≤ src) && decide (src < 0x28)

namespace Chip

/-- A negative binding offset is not met by a lead (R63, R371). -/
def offsetTooEarly (offset : Int) (lead : Nat) : Bool := decide (offset < 0) && decide ((lead : Int) * 1000 - 1000000 < -offset)

/-- The arguments of the head are wrong: BAD_ARG (R51, R55, R371, R411). -/
def headBad (c : Chip) (x : Ctx) (u : Nat) (r : List Byte) (h : TrigHead) : Bool :=
  let fabric := decide (0x40 ≤ h.source)
  decide (31 < u) || !(posSource h.source || h.source == 8 || pinSource h.source) || decide (2 < h.direction) ||
    decide (1 < u8 r 3) || decide (1 < u8 r 4) || decide (1 < u8 r 6) ||
    (match h.port with | some p => decide (63 < p) | none => false) ||
    (match h.window with | some w => decide (15 < w) | none => false) ||
    decide (h.lead < 2000) || decide (1000000 < h.lead) || h.lead % 10 != 0 || (fabric && decide (x.mb < 0x8000)) ||
    decide (h.lead * nsU < c.lMin h.port + (if fabric then 5 * usU else 0)) ||
    (c.boundPins u).any fun i => offsetTooEarly (c.pin i).offset h.lead

/-- The state does not allow the arming: BAD_STATE (R46, R54, R161, R371, R435); a camera port that is not configured and a
source pin that is an output count to it (log 76). -/
def headBusy (c : Chip) (u : Nat) (h : TrigHead) : Bool :=
  (c.unit u).state == 1 || c.time.pendingStep.isSome ||
    (match h.port with | some p => !(c.port p).configured || (c.port p).longLink | none => false) ||
    (pinSource h.source && (c.pin (h.source - 0x10)).output) || (c.covers 2 u && c.unitUnsafe h)

/-- The present compare position of a position source (R53, R411). -/
def comparePos (c : Chip) (h : TrigHead) : Int :=
  if h.source < 8 then (c.enc h.source).xc
  else match c.seam.samples.find? (h.peer * 8 + (h.source - 0x40)) with | some s => s.x | none => 0

/-- The first trigger position already lies at or behind the axis (R54). -/
def behind (x first : Int) (dir : Nat) : Bool :=
  if dir = 2 then first == x else decide (dirSign dir * posDiff first x ≤ 0)

/-- The unit as an accepted arming leaves it (R51 to R53). -/
def armed (t : TrigUnit) (h : TrigHead) (m : TrigMode) (x : Int) : TrigUnit :=
  { t with state := 1, spent := false, head := h, mode := m, index := 0, used := 0, hi := none, lo := none, seen := x,
           low := x, high := x, sent := none,
           motion := false, held := [], overrun := false }

/-- Ends the checks of an arming: BAD_STATE where the first trigger is reached already (R54), else the unit is armed. -/
def arm (c : Chip) (u : Nat) (h : TrigHead) (m : TrigMode) (first : Int) : Res :=
  let x := c.comparePos h
  let late :=
    if posSource h.source then behind x first h.direction
    else if h.source = 8 then decide (first * 65536 < c.time.tb + h.lead * nsU)
    else false
  if c.headBusy u h || late then .no stBADSTATE
  else .doC fun c => c.setUnit u (armed (c.unit u) h m x)

end Chip

/-- TRIG.ARM_ONESHOT (R51, R54, R371). -/
def cmdArmOneshot : Cmd :=
  { opcode := 0x0520, roles := [2, 3], size := fun r => r.length == 20,
    body := fun x r d =>
      let h := trigHead x r
      let v : Int := if posSource h.source then i64 r 12 else u64 r 12
      if d.chip.headBad x (u8 r 0) r h || (posSource h.source && !posOk v) then .no stBADARG
      else d.chip.arm (u8 r 0) h (.oneShot v) v }

def execTrigArmOneshot (mb : Nat) (req : List Byte) (s : State) : Out :=
  s.onDevIf (validMb mb) (tilpo cmdArmOneshot mb req)

/-- The first trigger of a PERIODIC arming with FROM_HERE (R54). -/
def Chip.fromHere (c : Chip) (h : TrigHead) (start : Int) (step : Nat) : Int :=
  let x := c.comparePos h
  if posSource h.source then
    if h.direction = 2 then (if start = x then wrap48 (start + step) else start)
    else
      let s := Chip.dirSign h.direction
      wrap48 (start + s * (floorDiv (s * posDiff x start) step + 1) * step)
  else if h.source = 8 then
    let need : Int := c.time.tb + h.lead * nsU
    let k := max 0 (-floorDiv (start * 65536 - need) (step * 65536))
    start + k * step
  else start

/-- TRIG.ARM_PERIODIC (R51, R54, R371). -/
def cmdArmPeriodic : Cmd :=
  { opcode := 0x0521, roles := [2, 3], size := fun r => r.length == 32,
    body := fun x r d =>
      let h := trigHead x r
      let v : Int := if posSource h.source then i64 r 12 else u64 r 12
      let step := u32 r 20
      if d.chip.headBad x (u8 r 0) r h || (posSource h.source && !posOk v) || step == 0 ||
          (h.source == 8 && decide (step < 1000)) || decide (1 < u8 r 28) then .no stBADARG
      else
        let first := if u8 r 28 = 1 then d.chip.fromHere h v step else v
        d.chip.arm (u8 r 0) h (.periodic first step (u32 r 24)) first }

def execTrigArmPeriodic (mb : Nat) (req : List Byte) (s : State) : Out :=
  s.onDevIf (validMb mb) (tilpo cmdArmPeriodic mb req)

/-- Entries from `first`, `n` of them, strictly monotone in a direction (R52), compared as positions (R89). -/
def Chip.monotone (c : Chip) (first n dir : Nat) : Bool :=
  (List.range (n - 1)).all fun i =>
    decide (0 < Chip.dirSign dir * posDiff (c.trig.table.getD 0 (first + i + 1)) (c.trig.table.getD 0 (first + i)))

/-- TRIG.ARM_TABLE (R52, R54, R371). -/
def cmdArmTable : Cmd :=
  { opcode := 0x0522, roles := [2, 3], size := fun r => r.length == 32,
    body := fun x r d =>
      let c := d.chip
      let h := trigHead x r
      let first := u32 r 12
      let n := u32 r 16
      let loop := u8 r 20 == 1
      let delta := i64 r 24
      let e0 := c.trig.table.getD 0 first
      let wrapOk := decide (0 < Chip.dirSign h.direction * posDiff (e0 + delta) (c.trig.table.getD 0 (first + n - 1)))
      if c.headBad x (u8 r 0) r h || !posSource h.source || h.direction == 2 || n == 0 || decide (65536 < first + n) ||
          decide (1 < u8 r 20) || !posOk delta || !c.monotone first n h.direction ||
          (loop && !wrapOk) then .no stBADARG
      else c.arm (u8 r 0) h (.table first n loop delta) e0 }

def execTrigArmTable (mb : Nat) (req : List Byte) (s : State) : Out :=
  s.onDevIf (validMb mb) (tilpo cmdArmTable mb req)

/-- Disarms a unit: its held triggers end LOST (R60); instants already sent stand. -/
def Chip.disarm (c : Chip) (u : Nat) : Chip :=
  let t := c.unit u
  let c := c.setUnit u { t with state := 0, held := [] }
  c.foldC t.held fun c h => c.dropHeld u h

/-- TRIG.DISARM (R60, R371). -/
def cmdDisarm : Cmd :=
  { opcode := 0x0523, roles := [2, 3], size := fun r => r.length == 1,
    body := fun _ r d =>
      let u := u8 r 0
      if u = 0xFF then
        .doC fun c => c.foldC ((List.range 32).filter fun i => (c.unit i).state == 1) fun c i => c.disarm i
      else if 31 < u then .no stBADARG
      else if (d.chip.unit u).state != 1 then .no stBADSTATE
      else .doC fun c => c.disarm u }

def execTrigDisarm (mb : Nat) (req : List Byte) (s : State) : Out := s.onDevIf (validMb mb) (tilpo cmdDisarm mb req)

/-- An armed unit uses an entry of a range of the table memory (R371). -/
def Chip.tableUsed (c : Chip) (first n : Nat) : Bool :=
  c.trig.units.any fun p => p.2.state == 1 &&
    (match p.2.mode with | .table a len _ _ => decide (a < first + n) && decide (first < a + len) | _ => false)

/-- TRIG.LOAD_TABLE (R52, R371). -/
def cmdLoadTable : Cmd :=
  { opcode := 0x0524, roles := [2], size := fun r => decide (8 ≤ r.length) && r.length == 8 + 8 * u16 r 4,
    body := fun _ r d =>
      let first := u32 r 0
      let n := u16 r 4
      let vals := (List.range n).map fun i => i64 r (8 + 8 * i)
      if n = 0 || 511 < n || 65536 < first + n || !vals.all posOk then .no stBADARG
      else if d.chip.tableUsed first n then .no stBADSTATE
      else .doC fun c =>
        c.foldC (List.range n) fun c i => { c with trig.table := c.trig.table.put (first + i) (vals.getD i 0) } }

def execTrigLoadTable (mb : Nat) (req : List Byte) (s : State) : Out :=
  s.onDevIf (validMb mb) (tilpo cmdLoadTable mb req)

/-- A schedule, an armed unit or an armed window uses the pin (R371). -/
def Chip.pinUsed (c : Chip) (p : Nat) : Bool :=
  let t := c.pin p
  t.pulses.any (·.scheduled) ||
    (match t.unit with | some u => t.output && (c.unit u).state == 1 | none => false) ||
    c.trig.units.any fun e => e.2.state == 1 && e.2.head.source == 0x10 + p

/-- TRIG.SET_PIN (R61, R63, R371). -/
def cmdSetPin : Cmd :=
  { opcode := 0x0525, roles := [2], size := fun r => r.length == 20, cfg := fun r _ => some (u8 r 0),
    body := fun _ r d =>
      let c := d.chip
      let p := u8 r 0
      let out := u8 r 1 == 1
      let u := u8 r 3
      let offset := i64 r 4
      let high := u64 r 12
      let bound := u != 0xFF
      let early := bound && (c.unit u).state == 1 && Chip.offsetTooEarly offset (c.unit u).head.lead
      if 23 < p || 1 < u8 r 1 || 2 < u8 r 2 || (bound && decide (31 < u)) || (!out && bound) ||
          offset < -1000000000 || 1000000000000 < offset || offset % 100 != 0 || high % 100 != 0 ||
          (bound && (decide (high < 2000) || decide (4000000000000 < high))) || early then .no stBADARG
      else if c.pinUsed p then .no stBADSTATE
      else .doC fun c =>
        c.setPin p { c.pin p with output := out, edge := u8 r 2, unit := if bound then some u else none,
                                  offset := offset, high := high } }

def execTrigSetPin (mb : Nat) (req : List Byte) (s : State) : Out := s.onDevIf (validMb mb) (tilpo cmdSetPin mb req)

/-- A pulse entry of TRIG.SCHEDULE_PULSES at byte `o` (R62, R371): its arguments are right; high time and period fall on the 100 ps
step, to which R62 rounds the start (log 76). -/
def pulseOk (r : List Byte) (o : Nat) : Bool :=
  let high := u64 r (o + 12)
  let period := u64 r (o + 20)
  (ofTb96 (fieldAt r o 12)).isSome && high % 100 == 0 && period % 100 == 0 && decide (2000 ≤ high) && decide (high ≤ 4000000000000) &&
    (period == 0 || (decide (10000 ≤ period) && decide (period ≤ 4000000000000))) && u16 r (o + 28) != 0

/-- A number of 100 ps steps in 2⁻¹⁶ ns, to the nearest (R62). -/
def steps100 (n : Nat) : Nat := (roundDiv (n * 65536) 10).toNat

/-- Puts an entry into a pin's schedule (R62, R64): pulses whose start has passed are skipped, counted and reported. -/
def Chip.schedule (c : Chip) (p : Nat) (r : List Byte) (o : Nat) : Chip :=
  let start := (roundDiv ((ofTb96 (fieldAt r o 12)).getD 0 * 10) 65536).toNat
  let period := u64 r (o + 20) / 100
  let count := if period = 0 then 1 else u16 r (o + 28)
  let at_ := fun k => steps100 (start + k * period)
  let gone := ((List.range count).takeWhile fun k => decide (at_ k < c.time.tb)).length
  let c := c.setPin p { c.pin p with lateCount := (c.pin p).lateCount + gone }
  let c := c.foldC (List.range gone) fun c k => c.emit 6 2 p 0 (at_ k / 65536)
  if gone = count then c
  else
    c.setPin p { c.pin p with pulses := (c.pin p).pulses ++
      [{ start := at_ gone, high := steps100 (u64 r (o + 12) / 100), period := steps100 period, count := count - gone,
         scheduled := true }] }

/-- TRIG.SCHEDULE_PULSES (R46, R62, R64, R371): its entries join those that the pin holds, 16 in all (log 76). -/
def cmdSchedule : Cmd :=
  { opcode := 0x0526, roles := [2, 3], size := fun r => decide (4 ≤ r.length) && r.length == 4 + 32 * u8 r 1,
    body := fun _ r d =>
      let c := d.chip
      let p := u8 r 0
      let n := u8 r 1
      if 23 < p || n = 0 || 16 < n || !(List.range n).all fun i => pulseOk r (4 + 32 * i) then .no stBADARG
      else if !(c.pin p).output || c.time.pendingStep.isSome ||
          decide (16 < ((c.pin p).pulses.filter (·.scheduled)).length + n) then .no stBADSTATE
      else .doC fun c => c.foldC (List.range n) fun c i => c.schedule p r (4 + 32 * i) }

def execTrigSchedulePulses (mb : Nat) (req : List Byte) (s : State) : Out :=
  s.onDevIf (validMb mb) (tilpo cmdSchedule mb req)

/-- A window event of TRIG.ARM_WINDOW (R371): kind, source, direction, value; none where they are wrong. -/
def winEvent (kind src dir v : Nat) : Option WinEvent :=
  if kind = 0 then (if src < 8 ∧ dir ≤ 2 ∧ posOk (signed 64 v) then some (.position src dir (signed 64 v)) else none)
  else if kind = 1 then (if src = 0 then some (.time v) else none)
  else if kind = 2 then (if src < 24 ∧ dir ≤ 2 then some (.pin src dir) else none)
  else if kind = 3 then (if src = 0 then some .command else none)
  else none

/-- Start and stop contradict one another (R67). -/
def winClash : WinEvent → WinEvent → Bool
  | .position a da va, .position b db vb =>
    a == b && da == db && da != 2 && decide (Chip.dirSign da * posDiff vb va ≤ 0)
  | .time a, .time b => decide (b ≤ a)
  | _, _ => false

/-- A window armed with its events (R66, R67, R69): time events are resolved at once. -/
def Chip.armWindow (c : Chip) (w : Nat) (a b : WinEvent) (rearm : Bool) : Chip :=
  let ws := c.window w
  let c := c.setWindow w { ws with phase := .waiting, rearm := rearm, start := a, stop := b, events := [], ended := 0 }
  let c := match a with | .time t => c.winPush w (t * 65536) false | _ => c
  match b with | .time t => c.winPush w (t * 65536) true | _ => c

/-- TRIG.ARM_WINDOW (R46, R66, R67, R371). -/
def cmdArmWindow : Cmd :=
  { opcode := 0x0527, roles := [2, 3], size := fun r => r.length == 24,
    body := fun _ r d =>
      let c := d.chip
      let w := u8 r 0
      match winEvent (u8 r 2) (u8 r 4) (u8 r 6) (u64 r 8), winEvent (u8 r 3) (u8 r 5) (u8 r 7) (u64 r 16) with
      | some a, some b =>
        let past := match a with | .time t => decide (t * 65536 < c.time.tb) | _ => false
        if 15 < w || 1 < u8 r 1 || winClash a b then .no stBADARG
        else if c.time.pendingStep.isSome || (c.window w).phase == .opened || past then .no stBADSTATE
        else .doC fun c => c.armWindow w a b (u8 r 1 == 1)
      | _, _ => .no stBADARG }

def execTrigArmWindow (mb : Nat) (req : List Byte) (s : State) : Out :=
  s.onDevIf (validMb mb) (tilpo cmdArmWindow mb req)

/-- TRIG.WINDOW_EVENT (R66, R371): the event resolves to the effect instant. -/
def cmdWindowEvent : Cmd :=
  { opcode := 0x0528, roles := [2, 3], size := fun r => r.length == 2,
    body := fun _ r d =>
      let w := u8 r 0
      let ws := d.chip.window w
      let ev := if u8 r 1 = 1 then ws.stop else ws.start
      if 15 < w || 1 < u8 r 1 then .no stBADARG
      else if ws.phase == .unarmed || !decide (ev = .command) then .no stBADSTATE
      else .doC fun c => c.winPush w c.time.tb (u8 r 1 == 1) }

def execTrigWindowEvent (mb : Nat) (req : List Byte) (s : State) : Out :=
  s.onDevIf (validMb mb) (tilpo cmdWindowEvent mb req)

/-- TRIG.READ_STATUS (R371): `next` is the next trigger of the sequence, 0 where there is none. -/
def cmdReadTrig : Cmd :=
  { opcode := 0x0529, roles := [], size := fun r => r.length == 1,
    body := fun _ r d =>
      let u := u8 r 0
      let t := d.chip.unit u
      let st := if t.state = 1 && d.chip.unitHeld u then 2 else t.state
      let s : Int := if posSource t.head.source then Chip.dirSign t.head.direction else 1
      let next := if t.state = 1 && !t.spent then (d.chip.seqPos t.mode s t.index).getD 0 else 0
      if 31 < u then .no stBADARG
      else .say (le 1 st ++ le 1 (b2n t.overrun) ++ le 2 0 ++ le 4 t.fired ++ le 4 t.late ++ le 4 t.skipped ++
        le 8 (unsigned 64 next) ++ le 8 t.lastInstant) }

def execTrigReadStatus (mb : Nat) (req : List Byte) (s : State) : Out :=
  s.onDevIf (validMb mb) (tilpo cmdReadTrig mb req)

namespace Chip

/-- The speed that a sample of a peer's channel carries (R411): v in 2⁻¹⁶ counts/s. -/
def sampleSpeed (s : SampleSt) : Speed :=
  if s.stale || s.speedState = 2 then .invalid
  else if s.speedState = 1 || s.v = 0 then .stopped
  else .valid s.v (65536 * secU)

/-- Publication to one position unit (R56, R411). -/
def publishTo (c : Chip) (u : Nat) : Chip :=
  let h := (c.unit u).head
  if (c.unit u).state != 1 then c
  else if h.source < 8 then
    let e := c.enc h.source
    c.unitPublish u e.xc e.edge e.speed
  else if 0x40 ≤ h.source then
    match c.seam.samples.find? (h.peer * 8 + (h.source - 0x40)) with
    | some s => c.unitPublish u s.x (s.t * 65536) (sampleSpeed s)
    | none => c
  else c

/-- Samples of mirrored channels at a change of x_c (R411). -/
def mirrorChanges (c : Chip) : Chip :=
  let due := fun (m : MirrorSt) => m.sentX != some (c.enc m.chan).xc
  let hit := c.seam.mirrors.filter due
  let c := { c with seam.mirrors := c.seam.mirrors.map fun m => if due m then { m with sentX := some (c.enc m.chan).xc } else m }
  c.foldC hit fun c m => c.sendSample m

/-- The publication of every 100 ns (R56, R94). -/
def publish (c : Chip) : Chip :=
  let c := c.foldC (List.range 8) fun c ch => c.setEnc ch { c.enc ch with speed := publishedSpeed (c.enc ch) c.time.tb }
  (c.foldC (List.range 32) fun c u => c.publishTo u).mirrorChanges

end Chip

def execPositionPublication (s : State) : Out := s.run Chip.publish

/-- The k-th instant of a unit of source TIME or of a pin is used (R51). -/
def useNext (t : TrigUnit) : TrigUnit :=
  let one := match t.mode with | .oneShot _ => true | _ => false
  { t with index := t.index + 1, used := t.used + 1,
           spent := one || Chip.countUsed t.mode (t.used + 1) }

/-- A TIME unit sends at t − L (R56). -/
def Chip.timeSend (c : Chip) (u : Nat) : Chip :=
  let t := c.unit u
  if t.state != 1 || t.spent || t.head.source != 8 then c
  else
    match c.seqPos t.mode 1 t.index with
    | none => c
    | some x => (c.setUnit u (useNext t)).trigger u (x.toNat * 65536) c.time.tb

def execTimeUnitSend (unit : Fin 32) (s : State) : Out := s.run fun c => c.timeSend unit.val

namespace Chip

/-- The position latched for a FIRE enters what its peg will say (R57, R412). -/
def setFirePos (c : Chip) (p fireId : Nat) (pos : Int) (noLatch : Bool) : Chip :=
  let q := c.port p
  let c := c.setPort p { q with fires := q.fires.map fun o =>
    if o.fireId = fireId then { o with pos := some pos, noLatch := noLatch } else o }
  c.foldC (c.store.streams.map (·.1)) fun c sid =>
    match c.stream? sid with
    | some s =>
      if s.port = p then
        c.mapFrames sid (fun f => f.fireId == fireId && f.issued == 0 && f.phase != .finished) fun f =>
          { f with pos := pos, flags := if noLatch then f.flags ||| fDEGRADED else f.flags }
      else c
    | none => c

/-- A fire instant arrives (R57): the position is latched, TC_FIRE is produced, a trigger that was not sent ends, and a unit
that has no more is DONE. -/
def fireNow (c : Chip) (u : Nat) (f : FireInst) : Chip :=
  let t := c.unit u
  let c := (c.setUnit u { t with fires := t.fires.erase f }).settleUnit u
  let l := c.latchPos u f.source
  let raw := l.1
  let c := c.latchSeen u
  if f.lost then
    match f.port with
    | some p =>
      if 0x40 ≤ f.source then c.askLatch u t.head.peer f.source f.instant (some p)
      else c.lostTrigger p
        { time := f.instant / 65536, frac := f.instant % 65536, unit := u, enc := encOf f.source, pos := raw,
          flags := if l.2 then fDEGRADED else 0 }
    | none => c
  else
    let c := if 0x40 ≤ f.source then c.askLatch u t.head.peer f.source f.instant none
      else match f.port, f.fireId with
        | some p, some i => c.setFirePos p i raw l.2
        | _, _ => c
    if f.event then c.emitAt 3 1 u (f.port.getD 0xFF) (unsigned 64 raw) (f.instant / 65536) else c

/-- The earliest of a list by a key. -/
def earliest {α : Type} (key : α → Nat) : List α → Option α
  | [] => none
  | a :: l => match earliest key l with
    | none => some a
    | some b => if key a ≤ key b then some a else some b

/-- The next fire instant of a unit, or the t_p of a held trigger, has come (R57, R58). -/
def fireInstant (c : Chip) (u : Nat) : Chip :=
  let t := c.unit u
  let h := earliest (·.tp) (t.held.filter (·.pos.isNone))
  let f := earliest (·.instant) t.fires
  let latch := fun (h : HeldTrig) =>
    (c.latchSeen u).setUnit u
      { t with held := t.held.map fun k => if k = h then { k with pos := some (c.latchPos u t.head.source) } else k }
  match h, f with
  | none, none => c
  | some h, none => latch h
  | none, some f => c.fireNow u f
  | some h, some f => if h.tp < f.instant then latch h else c.fireNow u f

end Chip

def execFireInstant (unit : Fin 32) (s : State) : Out := s.run fun c => c.fireInstant unit.val

/-- The earliest pulse of an output pin rises (R62, R64); its edges stand on the 100 ps step (R65). -/
def Chip.pulseStart (c : Chip) (p : Nat) : Chip :=
  let t := c.pin p
  match Chip.earliest (·.start) t.pulses with
  | none => c
  | some q =>
    if !t.output then c
    else
      let rest := t.pulses.erase q
      let more := if q.period = 0 ∨ q.count ≤ 1 then []
        else [{ q with start := round100 (q.start + q.period), count := q.count - 1 }]
      c.setPin p { t with pulses := rest ++ more, falls := t.falls ++ [round100 (q.start + q.high)] }

def execPinPulseStart (pin : Fin 24) (s : State) : Out := s.run fun c => c.pulseStart pin.val

/-- A pulse of a pin ends (R64), or PPS_OUT falls (R50). -/
def Chip.pulseEnd (c : Chip) : Option (Fin 24) → Chip
  | none => { c with time.ppsUntil := none }
  | some p =>
    let t := c.pin p.val
    match Chip.earliest id t.falls with
    | none => c
    | some f => c.setPin p.val { t with falls := t.falls.erase f }

def execPinPulseEnd (pin : Option (Fin 24)) (s : State) : Out := s.run fun c => c.pulseEnd pin

namespace Chip

/-- A unit whose source is a pin takes an edge of it (R56): the instant is the edge's, so the target of ONE_SHOT and the start
and step of PERIODIC mean nothing, and a ONE_SHOT unit fires on the first edge (log 76). -/
def pinTrigger (c : Chip) (u t : Nat) : Chip :=
  let v := c.unit u
  (c.setUnit u (useNext v)).trigger u (t + v.head.lead * nsU) (t + 100 * nsU)

/-- An accepted edge of an input pin (R61, R66): its record, its units, its windows. -/
def pinEdge (c : Chip) (p : Nat) (rising : Bool) : Chip :=
  let q := c.pin p
  let line := if p < 12 then 4 else 5
  let waiting := (c.ev.waiting.filter fun r => r.line == line && r.inst == p).length
  if q.output || (q.edge == 0 && !rising) || (q.edge == 1 && rising) then c
  else if 64 ≤ waiting then c.emit 6 1 p 0 1
  else
    let t := round100 c.time.tb
    let c := c.emitAt line 1 p (t % 65536) (b2n rising) (t / 65536)
    let c := c.foldC ((List.range 32).filter fun u => (c.unit u).state == 1 && !(c.unit u).spent && (c.unit u).head.source == 0x10 + p)
      fun c u => c.pinTrigger u t
    let fits := fun (e : WinEvent) =>
      match e with | .pin k d => k == p && (d == 2 || (d == 0) == rising) | _ => false
    c.foldC (List.range 16) fun c w =>
      let ws := c.window w
      if ws.phase = .unarmed then c
      else
        let c := if fits ws.start then c.winPush w t false else c
        if fits ws.stop then c.winPush w t true else c

/-- A window's end (R68): CW_END with its case, and waiting again under REARM (R69). -/
def windowEnd (c : Chip) (w detail start stop : Nat) : Chip :=
  let ws := c.window w
  let past := if detail = 0 then (start, stop) :: ws.past else ws.past
  let ws := { ws with phase := if ws.rearm then .waiting else .ended, ended := stop, past := past }
  (c.setWindow w ws).emitAt 7 1 w detail (if detail = 2 then 0 else start / 65536) (stop / 65536)

/-- Two resolved instants are less than 2.5 ns apart (R68). -/
def near (a b : Nat) : Bool := decide (((a : Int) - b).natAbs < 163840)

/-- The window acts on its earliest event (R66, R68, R69). -/
def windowAct (c : Chip) (w : Nat) : Chip :=
  let ws := c.window w
  match ws.events with
  | [] => c
  | e :: rest =>
    let ignore := c.setWindow w { ws with events := rest, ignored := ws.ignored + 1 }
    let again := ws.rearm && decide (e.at_ ≤ ws.ended) && decide (0 < ws.ended)
    if ws.phase = .unarmed || ws.phase = .ended then ignore
    else if ws.phase = .waiting then
      if again then ignore
      else
        match rest.find? (fun f => f.stop != e.stop && near e.at_ f.at_) with
        | some f =>
          let start := if e.stop then f.at_ else e.at_
          let stop := if e.stop then e.at_ else f.at_
          (c.setWindow w { ws with events := rest.erase f }).windowEnd w 1 start stop
        | none =>
          if e.stop then (c.setWindow w { ws with events := rest }).windowEnd w 2 0 e.at_
          else c.setWindow w { ws with events := rest, phase := .opened, tStart := e.at_ }
    else if e.stop then (c.setWindow w { ws with events := rest }).windowEnd w (if near e.at_ ws.tStart then 1 else 0) ws.tStart e.at_
    else ignore

/-- A trigger time lies in the window (R66); instants in 2⁻¹⁶ ns. -/
def windowPasses (ws : WinSt) (t : Nat) : Bool :=
  ws.past.any (fun p => decide (p.1 ≤ t) && decide (t < p.2)) || (ws.phase == .opened && decide (ws.tStart ≤ t))

/-- The window judges the oldest frame of a stream under judgement (R66). -/
def windowJudge (c : Chip) (mem : Mem) (w sid : Nat) : Chip :=
  match c.stream? sid with
  | none => c
  | some s =>
    if s.window != some w then c
    else
      match s.frames.find? (·.phase == .judging) with
      | none => c
      | some f => (c.judged sid (windowPasses (c.window w) f.trigAt)).settleFrame mem sid s.seqNext

end Chip

def execWindowEventAct (window : Fin 16) (s : State) : Out := s.run fun c => c.windowAct window.val

def execWindowFrameJudge (window : Fin 16) (stream : Fin 512) (s : State) : Out :=
  s.runDev fun d => d.onChip fun c => c.windowJudge d.mem window.val stream.val

/-- SAFETY.LEAVE_SAFE_STATE (R439, R442, R374): LATCHED functions become ACTIVE; held units send under R60. -/
def cmdLeaveSafe : Cmd :=
  { opcode := 0x0803, roles := [2], size := fun r => r.length == 0,
    body := fun _ _ d =>
      let c := d.chip
      let demanding := !c.safety.all.isEmpty || (List.range 4).any fun i => (c.safeFn i).state == .demand
      if demanding then .no stBADSTATE
      else .doC fun c =>
        let c := c.foldC (List.range 4) fun c i =>
          let f := c.safeFn i
          if f.state = .latched then c.setSafeFn i { f with state := .active, cause := 0, detect := 0 } else c
        let held := (List.range 32).filter c.safeHeld
        (c.leaveSafe 0).foldC held fun c u => c.releaseUnit u }

def execSafetyLeaveSafeState (mb : Nat) (req : List Byte) (s : State) : Out :=
  s.onDevIf (validMb mb) (tilpo cmdLeaveSafe mb req)

def trigCmds : List Cmd :=
  [cmdArmOneshot, cmdArmPeriodic, cmdArmTable, cmdDisarm, cmdLoadTable, cmdSetPin, cmdSchedule, cmdArmWindow,
   cmdWindowEvent, cmdReadTrig, cmdLeaveSafe]

end Sys2Proof.Machine
end

