-- ==== Sys2Proof/Machine/CamFrames.lean ====
section
/-! DEFINITION. Packets and frames of a camera port: packet sequence numbers, damage and its repair, SOF, IMG and EOF, and
what they give the port's streams (R145, R148 to R153, R163, R169 to R172, R177, R200). -/

namespace Sys2Proof.Machine

/-- The SOF that a 32-byte block carries (R148). -/
def sofOf (b : List Byte) : Sof :=
  { frameNo := u32 b 6, fireId := u16 b 10, exposeT64 := u64 b 12, width := u16 b 20, height := u16 b 22,
    packing := u8 b 24, mosaic := u8 b 25, count := u8 b 26 / 16, index := u8 b 26 % 16, sub := u8 b 27 % 4,
    dur := u16 b 28 }

/-- The frame that an IMG or EOF block names (R152): FRAME_NO, substream, exposure. -/
def imgKey (b : List Byte) (at_ : Nat) : Nat × Nat × Nat := (u32 b 6, u8 b at_ / 64, u8 b at_ % 16)

/-- Its frame (R152). -/
def OpenFrame.key (f : OpenFrame) : Nat × Nat × Nat := (f.sof.frameNo, f.sof.sub, f.sof.index)

/-- LINE_BLK (R148). -/
def lineBlk (s : Sof) : Nat := (s.width * s.packing * samplesOf s.mosaic + 255) / 256

/-- A range joins those received, ranges that touch becoming one (R153). -/
def addRange (l : List (Nat × Nat)) (o n : Nat) : List (Nat × Nat) :=
  let before := l.find? fun r => r.1 + r.2 == o
  let after := l.find? fun r => r.1 == o + n
  let rest := l.filter fun r => r.1 + r.2 != o && r.1 != o + n
  (((before.map (·.1)).getD o), ((before.map (·.2)).getD 0) + n + ((after.map (·.2)).getD 0)) :: rest

/-- Blocks received without a hole from the frame's start. -/
def solid (l : List (Nat × Nat)) : Nat := match l.find? fun r => r.1 == 0 with | some r => r.2 | none => 0

/-- The SOF fits a stream's declaration (R153): size, and the mosaic and, for raw output, the packing of its format. -/
def declOk (s : StreamSt) (o : Sof) : Bool :=
  let g := s.out.format
  o.width == s.w && o.height == s.h && packingOk o.packing && mosaicOk o.mosaic &&
    (if fmtClass g = 1 then o.packing == 8 + 2 * fmtCode g && fmtLayout g == o.mosaic
     else fmtClass g == 4 || mosaicFits g o.mosaic)

/-- Sequence values (R145): the PSNs from `a`, `k` of them. -/
def psnRange (a k : Nat) : List Nat := (List.range k).map fun i => (a + i) % 2 ^ 32

/-- A further exposure of a trigger that the stream has met (R152, R225): by FIRE_ID in FIRE_AT, by FRAME_NO in FREE_RUN. -/
def TrigSeen.joins (t : TrigSeen) (o : Sof) : Bool :=
  t.fireId == o.fireId && (o.fireId != 0xFFFF || t.frameNo == o.frameNo) && !t.indices.contains o.index

namespace Chip

/-- The input of a stream's frames finds no space (R19, R251): what frames hold beyond their reservations is more than
no reservation, lease or holding uses. -/
def storeShort (c : Chip) : Bool :=
  decide ((c.capacity 3 0 - c.admitted 3 0) / scale * 2 ^ 20 < c.pastSpace)

/-- The newest line has filled an elastic buffer or the frame store (R19, R251): the rest of an in-line frame spills, and
a frame that finds no space is dropped whole. -/
def inputRoom (c : Chip) (p sub n : Nat) : Chip :=
  c.foldC (c.store.streams.map (·.1)) fun c sid =>
    match c.stream? sid with
    | none => c
    | some s =>
      if s.port != p || s.sub != sub then c
      else
        let me := fun (f : Frame) => f.frameNo == n && f.piped && (f.phase == .input || f.phase == .processing)
        let full := fun (f : Frame) => me f && f.place.placement == .inLine &&
          decide (2 ^ 20 < (f.exps.map fun e => ((e.lines.drop f.used).map List.length).foldl (· + ·) 0).foldl (· + ·) 0)
        let spills := s.frames.any full
        let c := if spills && c.spillStarved then (c.loseFrames sid full 0).waits 2 0
          else c.mapFrames sid full fun f => { f with spilled := true }
        if c.storeShort then c.loseFrames sid (fun f => me f && (f.place.placement != .inLine || f.spilled)) 0 else c

/-- The frames of a stream that FRAME_NO `n` names and that are under way, by sequence. -/
def underWay (c : Chip) (sid n : Nat) : List Nat :=
  match c.stream? sid with
  | some s => (s.frames.filter fun f => f.frameNo == n && (f.phase == .input || f.phase == .processing)).map (·.seq)
  | none => []

/-- An exposure ends, intact or not, in the frames of a port's streams (R153, R191). -/
def endExposure (c : Chip) (mem : Mem) (p sub n idx : Nat) (ok : Bool) : Chip :=
  c.foldC (c.store.streams.map (·.1)) fun c sid =>
    match c.stream? sid with
    | none => c
    | some s =>
      if s.port != p || s.sub != sub then c
      else
        let sel := fun (f : Frame) => f.frameNo == n && f.phase != .lost &&
          f.exps.any fun e => e.index == idx && e.done == 0
        let c := c.mapFrames sid sel fun f =>
          { f with exps := f.exps.map fun e => if e.index = idx ∧ e.done = 0 then { e with done := if ok then 1 else 2 } else e }
        c.foldC (c.underWay sid n) fun c q => c.settleFrame mem sid q

/-- The port accepts the EOF of an exposure (R257): of a frame's last one the instant counts, also where it has been LOST. -/
def noteEof (c : Chip) (p sub n idx : Nat) : Chip :=
  c.foldC (c.store.streams.map (·.1)) fun c sid =>
    match c.stream? sid with
    | none => c
    | some s =>
      if s.port != p || s.sub != sub then c
      else c.mapFrames sid (fun f => f.frameNo == n && f.phase != .pegged && f.exps.any fun e => e.index == idx && e.done == 0) fun f =>
        { f with eofT := c.t64 }

/-- An exposure of which no SOF came is given up in the frames that still wait for it (R191). -/
def missExposure (c : Chip) (mem : Mem) (p sub n idx : Nat) : Chip :=
  c.foldC (c.store.streams.map (·.1)) fun c sid =>
    match c.stream? sid with
    | none => c
    | some s =>
      if s.port != p || s.sub != sub then c
      else
        let sel := fun (f : Frame) => f.frameNo == n && f.phase != .lost && f.phase != .pegged && decide (idx < f.count) &&
          f.exps.all (·.index != idx)
        let c := c.mapFrames sid sel fun f =>
          { f with exps := f.exps ++ [{ index := idx, dur := 0, lines := [], done := 2 }] }
        c.foldC (c.underWay sid n) fun c q => c.settleFrame mem sid q

/-- FRAME_FORMAT with the sticky flag (R177, R498): 1 R152, 2 declaration, 3 EOF STATUS, 4 more than four open frames. -/
def frameFormat (c : Chip) (p detail n : Nat) : Chip :=
  let t := c.port p
  (c.setPort p { t with flags := setBit t.flags 1 }).emit 0x10 1 p detail n

/-- A trigger has ended with its frame (R163): a FIRE_STATUS that never came is counted. -/
def fireEnded (c : Chip) (p fireId : Nat) : Chip :=
  let t := c.port p
  match t.fires.find? fun o => o.fireId == fireId && !o.ended with
  | none => c
  | some o =>
    c.setPort p { t with cNoStatus := if o.answered then t.cNoStatus else sat 16 (t.cNoStatus + 1),
                         fires := t.fires.map fun x => if x.fireId = fireId then { x with ended := true } else x }

/-- An open frame closes (R153): intact, or LOST; it ends the trigger of its FIRE (R163; log 53). -/
def closeFrame (c : Chip) (mem : Mem) (p : Nat) (f : OpenFrame) (ok : Bool) : Chip :=
  let t := c.port p
  let t := { t with frames := t.frames.filter (·.key != f.key) }
  let c :=
    if ok then (c.setPort p { t with cIntact := sat 64 (t.cIntact + 1) }).count (0x500 + 4 * p) 1
    else (c.setPort p { t with cLost := sat 32 (t.cLost + 1), gone := if f.holed then (f.key :: t.gone).take 64 else t.gone }).count
      (0x500 + 4 * p + 1) 1
  let c := c.fireEnded p f.sof.fireId
  c.endExposure mem p f.sof.sub f.sof.frameNo f.sof.index ok

/-- A PSN before `psn` still awaits repair (R172, R177). -/
def awaits (c : Chip) (p psn : Nat) : Bool := (c.port p).runs.any fun r => r.missing.any fun m => before32 m psn

/-- A frame that has its EOF is judged once no repair can add to it (R153, R172); frames are delivered only in READY (R141). -/
def judgeOpen (c : Chip) (mem : Mem) (p : Nat) (f : OpenFrame) : Chip :=
  match f.eof with
  | none => c
  | some (status, total, psn) =>
    let n := f.sof.height * lineBlk f.sof
    let whole := solid f.got == n && f.got.length == 1
    if !whole && c.awaits p psn then c
    else
      let c := if status != 0 then c.frameFormat p 3 f.sof.frameNo
        else if !f.broken && (total != n || (!whole && !f.holed)) then c.frameFormat p 1 f.sof.frameNo else c
      c.closeFrame mem p f (whole && !f.broken && status == 0 && total == n && (c.port p).state == .ready)

/-- The complete lines of an open frame go to the streams' frames (R153). -/
def releaseLines (c : Chip) (mem : Mem) (p : Nat) (f : OpenFrame) : Chip :=
  let k := lineBlk f.sof
  let n := min f.sof.height (solid f.got / max 1 k)
  if f.broken || n ≤ f.released then c
  else
    let len := lineBytes f.sof.width f.sof.packing f.sof.mosaic
    let t := c.port p
    let c := c.setPort p
      { t with frames := t.frames.map fun x => if x.key = f.key then { x with released := n } else x }
    let c := c.foldC (List.range (n - f.released)) fun c i =>
      c.addLine p f.sof.sub f.sof.frameNo f.sof.index (f.data.readBytes ((f.released + i) * k * 32) len)
    let c := c.inputRoom p f.sof.sub f.sof.frameNo
    c.foldC (c.startedOf p) fun c sid => c.foldC (c.underWay sid f.sof.frameNo) fun c q => c.passLines mem sid q

/-- Packets are lost whose frames are not known (R169, R172): every open frame may have a hole. -/
def packetsLost (c : Chip) (p : Nat) : Chip :=
  let t := c.port p
  c.setPort p { t with loss := true, frames := t.frames.map fun f => { f with holed := true } }

/-- A DARN_REQ is sent for every run that an intact packet or OH_LANE has closed (R172). -/
def closeRuns (c : Chip) (p : Nat) : Chip :=
  let new := (c.port p).runs.filter (!·.closed)
  let t := c.port p
  let c := c.setPort p { t with runs := t.runs.map fun r => if r.closed then r else { r with closed := true, sent := 1 },
                                cDarnReq := sat 32 (t.cDarnReq + new.length) }
  c.foldC new fun c r => c.sendDown p (.darnReq p r.first r.count (c.port p).txPsn)

/-- One damaged PSN joins the open run, or begins one; at 1,024 packets the run is requested (R172). -/
def addDamaged (c : Chip) (p psn : Nat) : Chip :=
  let t := c.port p
  match t.runs.find? (!·.closed) with
  | some r =>
    let c := c.setPort p { t with runs := t.runs.map fun x =>
      if x.closed then x else { x with count := r.count + 1, missing := r.missing ++ [psn] } }
    if 1024 ≤ r.count + 1 then c.closeRuns p else c
  | none => c.setPort p { t with runs := t.runs ++ [{ first := psn, count := 1, closed := false, sent := 0, missing := [psn] }] }

/-- Packets of the port are damaged (R169, R172): darning asks for them again, else they are lost. -/
def damaged (c : Chip) (p : Nat) (l : List Nat) : Chip :=
  if l.isEmpty then c
  else if (c.port p).protection = 2 then c.foldC l fun c psn => c.addDamaged p psn
  else c.packetsLost p

/-- A port is refused (R158, R177): CAUSE, the sticky flag, and both records. -/
def refusedFlag (c : Chip) (p cause : Nat) : Chip :=
  let t := c.port p
  c.setPort p { t with cause := cause, flags := setBit t.flags 0 }

/-- The port takes packets. -/
def packetsOn (c : Chip) (p : Nat) : Bool :=
  let st := (c.port p).state
  st == .discover || st == .sync || st == .ready || st == .held

/-- A packet with PSN `psn` arrives (R145, R169, R172), damaged in a period whose ACTIVE_MASK is wrong (R177); `good` says that its own checks pass. The answer says whether it
is taken; none is MALFORMED. -/
def psnIn (c : Chip) (p psn : Nat) (good : Bool) : Chip × Option Bool :=
  let t := c.port p
  let good := good && !t.badPeriod
  let d := (psn + 2 ^ 32 - t.rxPsn % 2 ^ 32) % 2 ^ 32
  if d = 2 ^ 31 then (c, none)
  else if d < 2 ^ 31 then
    let c := c.damaged p (psnRange t.rxPsn d)
    let c := c.setPort p { c.port p with rxPsn := (psn + 1) % 2 ^ 32 }
    if good then (c.closeRuns p, some true) else (c.damaged p [psn], some false)
  else if good && t.runs.any (·.missing.contains psn) then
    ((c.setPort p { t with cDarnPkts := sat 32 (t.cDarnPkts + 1),
                           runs := t.runs.map fun r => { r with missing := r.missing.erase psn } }).count
      (0x500 + 4 * p + 3) 1, some true)
  else (c, some false)

/-- An IMG or EOF of a frame with no open SOF (R177): held while an earlier PSN awaits repair, else discarded, and
recorded unless its frame is already LOST for a damaged packet. -/
def noSof (c : Chip) (p psn typ : Nat) (key : Nat × Nat × Nat) (block : List Byte) : Chip :=
  let t := c.port p
  if t.discard.contains key || t.gone.contains key then c
  else if c.awaits p psn then c.setPort p { t with heldBlocks := t.heldBlocks.put psn (typ, block) }
  else if t.loss then c.setPort p { t with gone := (key :: t.gone).take 64 }
  else c.frameFormat p 1 key.1

/-- An IMG packet with a good check enters its frame (R149, R152, R153). -/
def imgIn (c : Chip) (mem : Mem) (p psn : Nat) (b payload : List Byte) : Chip :=
  let t := c.port p
  let key := imgKey b 17
  match t.frames.find? (·.key == key) with
  | none => c.noSof p psn 2 key (b ++ payload)
  | some f =>
    let o := u32 b 10
    let k := u8 b 16 + 1
    let n := f.sof.height * lineBlk f.sof
    let replay := bit (u8 b 1) 7
    let clash := decide (n < o + k) || f.got.any fun r => decide (o < r.1 + r.2) && decide (r.1 < o + k)
    let late := match f.eof with | some (_, _, q) => before32 q psn | none => false
    let order := !replay && (late || decide (o < f.next) || (decide (f.next < o) && !f.holed && !c.awaits p psn))
    if f.broken then c
    else if clash || order || u16 b 14 != o / max 1 (lineBlk f.sof) then
      (c.setPort p { t with frames := t.frames.map fun x => if x.key = key then { x with broken := true } else x }).frameFormat
        p 1 key.1
    else
      let g := { f with data := f.data.writeBytes (o * 32) payload, got := addRange f.got o k,
                        next := if replay then f.next else o + k }
      (c.setPort p { t with frames := t.frames.map fun x => if x.key = key then g else x }).releaseLines mem p g

/-- An EOF enters its frame (R150, R153). -/
def eofIn (c : Chip) (mem : Mem) (p psn : Nat) (b : List Byte) : Chip :=
  let t := c.port p
  let key := imgKey b 15
  match t.frames.find? (·.key == key) with
  | none => c.noSof p psn 3 key b
  | some f =>
    let g := { f with eof := some (u8 b 14, u32 b 10, psn) }
    ((c.setPort p { t with frames := t.frames.map fun x => if x.key = key then g else x }).noteEof p f.sof.sub f.sof.frameNo
      f.sof.index).judgeOpen mem p g

/-- What a repair, or the end of one, sets free (R172, R177): held blocks whose turn has come, and frames that wait for
their judgement. -/
def repaired (c : Chip) (mem : Mem) (p : Nat) : Chip :=
  let t := c.port p
  let c := c.setPort p { t with runs := t.runs.filter fun r => !r.missing.isEmpty }
  let ready := (c.port p).heldBlocks.filter fun e =>
    let key := imgKey e.2.2 (if e.2.1 = 2 then 17 else 15)
    (c.port p).frames.any (·.key == key) || !c.awaits p e.1
  let c := c.foldC ready fun c e =>
    let c := c.setPort p { c.port p with heldBlocks := (c.port p).heldBlocks.drop e.1 }
    if e.2.1 = 2 then c.imgIn mem p e.1 (e.2.2.take 32) (e.2.2.drop 32) else c.eofIn mem p e.1 e.2.2
  c.foldC ((c.port p).frames.map (·.key)) fun c key =>
    match (c.port p).frames.find? (·.key == key) with
    | some f => c.judgeOpen mem p f
    | none => c

/-- PSNs are given up (R172): DARN_FAIL with the first of them, and the frames they may belong to cannot be whole. -/
def darnLost (c : Chip) (mem : Mem) (p : Nat) (l : List Nat) : Chip :=
  let t := c.port p
  let hit := l.filter fun n => t.runs.any (·.missing.contains n)
  match hit with
  | [] => c
  | n :: _ =>
    let c := c.setPort p { t with flags := setBit t.flags 5,
                                  runs := t.runs.map fun r => { r with missing := r.missing.filter (!hit.contains ·) } }
    ((c.packetsLost p).emit 0x0F 2 p 0 n).repaired mem p

/-- The response of the PIPE.QUEUE_PARAMS that queued a set says LATE = 1 (R201, R368), while it stands in its mailbox. -/
def answerLate (c : Chip) (s : ParamSet) : Chip :=
  let b := c.box s.mailbox
  if b.opcode = 0x0305 && u32 (b.rsp.readBytes 0 4) 0 == s.number then
    c.setBox s.mailbox { b with rsp := b.rsp.writeBytes 4 [1] }
  else c

/-- The parameter set of a frame (R200, R201): the latest set due becomes active, the others due are SUPERSEDED. -/
def bindSet (c : Chip) (p sub n : Nat) : Chip :=
  let t := c.port p
  if t.lastSof.find? sub = some n then c
  else
    -- a SOF at a set's effect instant comes before it, and makes it late where the set was for this frame, which the
    -- response of that instant says (R201, R533)
    let tie := fun (s : ParamSet) => s.queuedAt == c.time.tb
    let late := fun (s : ParamSet) => if tie s && s.sub == sub && !s.now && !before32 n s.tag then { s with late := true } else s
    let c := c.foldC (t.pendSets.filter fun s => late s != s) fun c s => c.answerLate s
    let t := { t with pendSets := t.pendSets.map late }
    let due := t.pendSets.filter fun s => s.sub == sub && !tie s && (s.now || !before32 n s.tag)
    let pick := match (due.filter (·.now)).getLast? with | some s => some s | none => due.getLast?
    match pick with
    | none => c.setPort p { t with lastSof := t.lastSof.put sub n }
    | some s =>
      let old := match t.activeSets.find? sub with | some a => t.boundSets.put a.number a | none => t.boundSets
      let c := c.setPort p
        { t with lastSof := t.lastSof.put sub n, activeSets := t.activeSets.put sub s, boundSets := old,
                 pendSets := t.pendSets.filter fun x => !due.contains x }
      let c := c.setPort p
        { c.port p with boundSets := (c.port p).boundSets.filter fun e => (setsInUse c p).contains e.1 }
      let c := c.foldC (due.filter (· != s)) fun c x => c.emit 0x12 1 p sub (x.tag * 2 ^ 32)
      if s.late then c.emit 0x12 2 p sub (s.tag * 2 ^ 32 + n) else c

/-- What came before a stream's last start, stop, move or change of settings, where the first SOF of a trigger finds that
still (R208, R225, R242, R533): a SOF of the same instant counts as earlier, and a move and settings wait for the end of a
trigger whose first exposures never came. In FREE_RUN nothing dates that trigger: what is new begins with a first exposure. -/
def sofBefore (c : Chip) (s : StreamSt) (o : Sof) (g : Trigger) : Option StreamWas :=
  s.was.filter fun w => w.at_ == c.time.tb ||
    (decide (0 < o.index) && !w.begun && (o.fireId == 0xFFFF || decide (g.time * 65536 + g.frac < w.at_)))

/-- The stream as that SOF finds it. -/
def sofView (c : Chip) (s : StreamSt) (o : Sof) (g : Trigger) : StreamSt :=
  match c.sofBefore s o g with
  | none => s
  | some w =>
    { s with out := w.out, fold := w.fold, place := w.place, epoch := w.epoch,
             moving := if w.epoch = s.epoch then s.moving else none,
             started := if w.at_ = c.time.tb then w.started else s.started }

/-- That exposure goes as the first one did: into the frame that still waits for it, if there is one; under another FRAME_NO it
breaks R152. -/
def moreSof (c : Chip) (mem : Mem) (sid : Nat) (s : StreamSt) (o : Sof) (t : TrigSeen) : Chip :=
  let ok := declOk s o && t.frameNo == o.frameNo
  let e : ExpIn := { index := o.index, dur := o.dur, lines := [], done := if ok then 0 else 2 }
  let waits := fun (f : Frame) => f.frameNo == t.frameNo && f.fireId == t.fireId && f.phase != .lost && f.phase != .pegged &&
    decide (f.exps.length < f.count) && f.exps.all (·.index != o.index)
  let c := c.setStream sid
    { s with triggers := s.triggers.map fun x => if x = t then { t with indices := o.index :: t.indices } else x }
  let c := c.mapFrames sid waits fun f => { f with exps := f.exps ++ [e] }
  c.foldC (c.underWay sid t.frameNo) fun c q => c.settleFrame mem sid q

/-- The first SOF of a trigger that a stream meets: whether the stream takes it, and under what (R208, R225, R227, R242, R476). -/
def firstSof (c : Chip) (mem : Mem) (sid : Nat) (s₀ : StreamSt) (o : Sof) (set : Nat) (g : Trigger) : Chip :=
  let old := c.sofBefore s₀ o g
  let s := c.sofView s₀ o g
  let c := c.setStream sid
    { s₀ with triggers := ({ frameNo := o.frameNo, fireId := o.fireId, indices := [o.index] } :: s₀.triggers).take 16,
              was := if old.isNone then s₀.was.map fun w => { w with begun := true } else s₀.was }
  if !s.started || (decide (1 < s.out.keep) && o.frameNo % s.out.keep != 0) ||
      (s.cls == 1 && o.frameNo % 2 ^ c.power.preview != 0) then c
  else
    let level := if s.cls = 2 then c.power.throttle.getD 0 s.priority else 0
    let e : ExpIn := { index := o.index, dur := o.dur, lines := [], done := if declOk s o then 0 else 2 }
    let f := { Frame.blank with
      frameNo := o.frameNo, fireId := o.fireId, epoch := s.epoch, place := s.place, phase := .input, trigT := g.time, trigFrac := g.frac,
      unit := g.unit, enc := g.enc, pos := if g.enc = 0xFF then 0 else g.pos, flags := g.flags, out := s.out,
      fold := s.fold, set := set, width := o.width, height := o.height, packing := o.packing, mosaic := o.mosaic,
      count := max 1 o.count, exps := [e] }
    let seq := s.seqNext
    let lost := o.frameNo % 2 ^ level != 0
    let c := if s.moving.isSome && s.window.isNone then c.movedRecord sid seq else c
    let c := if s.fold != s₀.fold then c.foldForth s₀.place (seqAfter seq (s.frames.filter (·.phase == .judging)).length) else c
    if lost then c.takeFrame sid { f with phase := .lost, flags := f.flags ||| fLOST ||| fREDUCED, exps := [] } 1
    else
      let c := c.takeFrame sid f 1
      if s.window.isSome then c else c.settleFrame mem sid seq

/-- A SOF reaches a stream of its port and substream (R148, R152, R153, R189, R225). -/
def takeSof (c : Chip) (mem : Mem) (sid : Nat) (o : Sof) (set : Nat) (g : Trigger) : Chip :=
  match c.stream? sid with
  | none => c
  | some s =>
    match s.triggers.find? (·.joins o) with
    | some t => c.moreSof mem sid s o t
    | none => c.firstSof mem sid s o set g

/-- The newest FRAME_NO of a substream's SOFs, of any exposure (R152, R153). -/
def latestNo (c : Chip) (p sub : Nat) : Option Nat :=
  (c.port p).lastFree.foldl (fun b e =>
    if e.1 / 16 != sub then b
    else match b with | some n => if before32 n e.2 then some e.2 else b | none => some e.2) none

/-- The multiples of `d` from `a` on and below `b`, at most 17 of them, and how many there are. -/
def multiples (d a b : Nat) : List Nat × Nat :=
  let first := (a + d - 1) / d
  (((List.range 17).map fun i => (first + i) * d).filter (decide <| · < b), (b + d - 1) / d - first)

/-- `k` numbers from `first` on never came (R153, R227): a stream loses those that it delivers, more than 16 in one
record. -/
def jumpLost (c : Chip) (sid first k : Nat) : Chip :=
  match c.stream? sid with
  | none => c
  | some s =>
    let d := Nat.lcm (max 1 s.out.keep) (if s.cls = 1 then 2 ^ c.power.preview else 1)
    let a := multiples d first (min (first + k) (2 ^ 32))
    let b := multiples d 0 (first + k - 2 ^ 32)
    let g : Trigger := { time := 0, unit := 0xFF, enc := 0xFF, pos := 0, flags := 0 }
    let n := a.2 + b.2
    if 16 < n then c.addLost sid g ((a.1 ++ b.1).headD 0) n
    else c.foldC (a.1 ++ b.1) fun c m => c.addLost sid g m 1

/-- FRAME_NO has jumped over numbers of a substream and exposure (R153): triggers under way miss that exposure; in FREE_RUN
the numbers after `latest`, the newest of the substream, are LOST. -/
def jumped (c : Chip) (mem : Mem) (p sub idx last latest n : Nat) : Chip :=
  let between := fun (m : Nat) => before32 last m && before32 m n
  let near := (c.store.streams.map (·.1)).flatMap fun sid => match c.stream? sid with
    | some s => (s.frames.filter fun f => s.port == p && s.sub == sub && between f.frameNo).map (·.frameNo) | none => []
  let c := c.foldC near.eraseDups fun c m => c.missExposure mem p sub m idx
  let k := (n + 2 ^ 32 - latest % 2 ^ 32) % 2 ^ 32 - 1
  if (c.port p).fireAt || k = 0 || !before32 latest n then c
  else
    let subs := (c.startedOf p).filter fun sid => match c.stream? sid with | some s => s.sub == sub | none => false
    let c := c.foldC subs fun c sid => c.jumpLost sid ((latest + 1) % 2 ^ 32) k
    (c.setPort p { c.port p with cLost := sat 32 ((c.port p).cLost + k) }).count (0x500 + 4 * p + 1) k

/-- A SOF is accepted (R148, R152, R153, R163, R200). What a capture window judges of a FREE_RUN frame is the T64 of its SOF,
its EXPOSE_T64, and not the arrival of the SOF (R66, R257; DEDUCED, log 50). -/
def acceptSof (c : Chip) (mem : Mem) (p : Nat) (o : Sof) (fire : Option FireOut) : Chip :=
  let key := (o.frameNo, o.sub, o.index)
  let lane := o.sub * 16 + o.index
  -- FRAME_NO must rise (R152)
  let back := !(c.port p).frames.any (·.key == key) &&
    (match (c.port p).lastFree.find? lane with | some last => !before32 last o.frameNo | none => false)
  -- the same frame is still open (R177)
  let c := match (c.port p).frames.find? (·.key == key) with
    | some f => (c.frameFormat p 1 o.frameNo).closeFrame mem p f false
    | none => c
  -- more than four open frames (R177)
  let c := match (c.port p).frames with
    | f :: _ :: _ :: _ :: _ => (c.frameFormat p 4 f.sof.frameNo).closeFrame mem p f false
    | _ => c
  let c := match (c.port p).lastFree.find? lane with
    | some last => if before32 last o.frameNo then
        c.jumped mem p o.sub o.index last ((c.latestNo p o.sub).getD last) o.frameNo else c
    | none => c
  let c := c.bindSet p o.sub o.frameNo
  let set := (((c.port p).activeSets.find? o.sub).map (·.number)).getD 0
  let good := packingOk o.packing && mosaicOk o.mosaic && decide (1 ≤ o.width) && decide (1 ≤ o.height)
  let shape := decide (1 ≤ o.count) && decide (o.count ≤ 4) && decide (o.index < o.count)
  let t := c.port p
  -- all exposures and substreams of one trigger, and of no other, share FRAME_NO (R152)
  let clash := fire.isSome && t.fires.any fun x => !x.sofs.isEmpty &&
    ((fire.map (·.fireId) == some x.fireId) != x.sofs.any (·.1 == o.frameNo))
  let f : OpenFrame :=
    { sof := o, set := set, data := [], next := 0, got := [], released := 0, broken := !good || !shape || back || clash, holed := false, eof := none }
  let c := c.setPort p
    { t with frames := t.frames ++ [f], lastFree := t.lastFree.put lane o.frameNo, loss := false,
             gone := t.gone.filter (· != key), discard := t.discard.filter (· != key),
             fires := t.fires.map fun x => if fire.map (·.fireId) = some x.fireId then { x with sofs := key :: x.sofs } else x }
  let trig : Trigger := match fire with
    | some x => fireTrigger x
    | none => { time := o.exposeT64, unit := 0xFF, enc := 0xFF, pos := 0, flags := 0 }
  let sids := (c.store.streams.filter fun e => e.2.port == p && e.2.sub == o.sub).map (·.1)
  let misfit := (c.startedOf p).any fun sid => match c.stream? sid with | some s => s.sub == o.sub && !declOk s o | none => false
  let c := c.foldC sids fun c sid => c.takeSof mem sid o set trig
  if !shape || back || clash then c.frameFormat p 1 o.frameNo else if !good || misfit then c.frameFormat p 2 o.frameNo else c

/-- EXPOSE_SKEW (R163, R436, R498): the exposure starts more than 10 ns from the instant; the picoseconds' rounding is not
stated (log 10). -/
def exposeSkew (c : Chip) (p : Nat) (o : Sof) (x : FireOut) : Chip :=
  let d : Int := (o.exposeT64 : Int) * 65536 - x.instant
  if d.natAbs ≤ 10 * 65536 then c
  else
    let c := c.emit 0x11 2 p x.fireId (unsigned 64 (quot (d * 1000) 65536))
    if c.covers 2 x.unit then c.detect 2 0x0303 x.unit else c

/-- A SOF packet with a good PSN (R141, R148, R163). -/
def sofIn (c : Chip) (mem : Mem) (p : Nat) (o : Sof) : Chip :=
  let t := c.port p
  let key := (o.frameNo, o.sub, o.index)
  let drop := fun (t : PortSt) => { t with discard := (key :: t.discard).take 64 }
  let seen := fun (t : PortSt) => { t with lastFrame := o.frameNo }
  if t.state = .sync ∨ t.state = .held then
    let t := drop (seen t)
    c.setPort p { t with cNotReady := sat 16 (t.cNotReady + 1), lastFree := t.lastFree.put (o.sub * 16 + o.index) o.frameNo }
  else if t.state != .ready then c.setPort p (drop (seen t))
  else
    let c := c.setPort p (seen t)
    if !t.fireAt && o.fireId == 0xFFFF then c.acceptSof mem p o none
    else
      -- an ended trigger's frame may not come again, but its other exposures and substreams still do (R163, R177)
      let open_ := fun (x : FireOut) => !x.ended || t.frames.any (·.key == key) || !x.sofs.any (·.2 == key.2)
      match t.fires.find? fun x => t.fireAt && x.fireId == o.fireId && open_ x with
      | some x => (c.acceptSof mem p o (some x)).exposeSkew p o x
      | none =>
        let t := drop (c.port p)
        c.setPort p { t with cUnsol := sat 8 (t.cUnsol + 1) }

/-- FIREs whose trigger has ended and which five later SOFs have left behind are forgotten. -/
def tidyFires (c : Chip) (p : Nat) : Chip :=
  let t := c.port p
  let ended := (t.fires.filter (·.ended)).length
  let old := ((t.fires.filter (·.ended)).take (ended - 4)).map (·.fireId)
  c.setPort p { t with fires := t.fires.filter fun x => !(x.ended && old.contains x.fireId) }

end Chip

end Sys2Proof.Machine
end

