-- ==== Sys2Proof/Machine/StreamOps.lean ====
section
/-! DEFINITION. What stream commands share: the output block (R224 to R230, R235, R369), the declaration (R142, R158,
R181, R241), the write channels a stream binds (R264, R323), leases (R253, R254), and retirement of parts of the Basket and
of the frame store (R244, R250). -/

namespace Sys2Proof.Machine

/-- The output block of R369; a shift of 0xFF is the reset value of R224. -/
def parseOut (b : List Byte) : OutSet :=
  let f := u16 b 0
  { format := f, shift := if u8 b 2 = 0xFF then 20 - codeBits (fmtCode f) else u8 b 2, bx := u8 b 3, by_ := u8 b 4,
    mean := u8 b 5 == 1, dx := u8 b 6, dy := u8 b 7, keep := u16 b 8, press := u8 b 10, tier := u8 b 11, nly := u8 b 12,
    bpp := u8 b 13, ratio := u16 b 14,
    rois := (List.range (u8 b 16)).map fun k =>
      { x := u16 b (18 + 8 * k), y := u16 b (20 + 8 * k), w := u16 b (22 + 8 * k), h := u16 b (24 + 8 * k) } }

/-- A stream before a change at timebase instant `tb` remembers what it was (R208, R225, R242, R279). -/
def StreamSt.noted (tb : Nat) (s : StreamSt) : StreamSt :=
  match s.was with
  | some w => if w.at_ = tb then s else { s with was := some ⟨tb, s.started, s.out, s.fold, s.place, s.epoch, false⟩ }
  | none => { s with was := some ⟨tb, s.started, s.out, s.fold, s.place, s.epoch, false⟩ }

/-- The fields of an output block that `parseOut` does not keep have values of R369. -/
def outArgs (b : List Byte) : Bool := decide (u8 b 5 ≤ 1)

/-- The length of an output block is the one its ROI count implies (R361). -/
def outSize (b : List Byte) : Bool := decide (18 ≤ b.length) && b.length == 18 + 8 * u8 b 16

/-- A format code of R229. -/
def formatOk (f : Nat) : Bool :=
  let c := fmtCode f
  let l := fmtLayout f
  if fmtClass f = 1 then decide (c ≤ 4) && mosaicOk l
  else if fmtClass f = 2 then decide (c ≤ 5) && mosaicOk l && l != 0x20
  else if fmtClass f = 3 then decide (1 ≤ l) && decide (l ≤ 4) && (c == 0 || c == 1 || c == 3 || c == 5 || (c == 6 && l == 3))
  else false

/-- The geometry of one region (R226). -/
def roiOk (o : OutSet) (w h : Nat) (r : Roi) (whole : Bool) : Bool :=
  let m := if fmtClass o.format = 2 then tileOf (fmtLayout o.format) else 1
  decide (1 ≤ r.w) && decide (1 ≤ r.h) && decide (r.x + r.w ≤ w) && decide (r.y + r.h ≤ h) &&
    (whole || (r.x % m == 0 && r.y % m == 0 && r.w % m == 0 && r.h % m == 0)) &&
    r.w % (o.bx * o.dx) == 0 && r.h % (o.by_ * o.dy) == 0

/-- Press-V takes this input (R235). -/
def pressVOk (o : OutSet) (w h : Nat) : Bool :=
  let c := fmtCode o.format
  (c == 0 || c == 1 || c == 3) && (fmtClass o.format == 3 || (fmtClass o.format == 2 && fmtLayout o.format == 0)) &&
    (roisOf o w h 1).all fun r => decide (16 ≤ outW o r) && decide (outW o r ≤ 16384) && decide (16 ≤ outH o r) &&
      decide (outH o r ≤ 16384)

/-- Output settings fit the stream's mode, placement and frame (R181, R224 to R230, R235, R240). -/
def outOk (o : OutSet) (mode : Nat) (passBy : Bool) (w h : Nat) : Bool :=
  let plain := o.rois.isEmpty && o.bx == 1 && o.by_ == 1 && o.dx == 1 && o.dy == 1
  let mosaic := fmtClass o.format == 2 && tileOf (fmtLayout o.format) != 1
  let one := fun n => n == 1 || n == 2 || n == 4
  formatOk o.format && decide (o.shift ≤ 16) && one o.bx && one o.by_ && (one o.dx || o.dx == 8) && (one o.dy || o.dy == 8) &&
    decide (1 ≤ o.keep) && decide (o.keep ≤ 256) && decide (o.press ≤ 2) && decide (o.tier ≤ 1) && decide (o.nly ≤ 2) &&
    decide (8 ≤ o.bpp) && decide (o.bpp ≤ 192) && decide (100 ≤ o.ratio) && decide (o.ratio ≤ 800) &&
    decide (o.rois.length ≤ 16) && ((roisOf o w h 1).all fun r => roiOk o w h r o.rois.isEmpty) &&
    (!mosaic || (o.bx == 1 && o.by_ == 1 && o.dx == 1 && o.dy == 1)) &&
    (mode != 2 || (fmtCode o.format == 5 && plain && o.keep == 1 && o.press != 2)) &&
    (mode != 1 || (decide (o.rois.length ≤ 1) && (o.press != 2 || decide (o.nly ≤ 1)))) &&
    (o.press != 2 || pressVOk o w h) &&
    (if passBy then plain && o.press == 0 && (fmtClass o.format == 1 || o.format == 0x2500) else fmtClass o.format != 1)

/-- Usable payload of a camera port (R142), kB/s, at the rate code of each lane's quad; `cfg` chooses the configured
rate (R465). -/
def usable (c : Chip) (p : Nat) (cfg : Bool) : Nat :=
  let t := c.port p
  let q := c.quad (p / 4)
  let lane := lanePayload (if cfg then q.cfgRate else q.rate) / 10 ^ 6
  if t.protection = 2 then 95 * (t.width - 1) * lane / 100
  else (if t.protection = 1 then t.width - 1 else t.width) * lane * 256 / 257

/-- Declared ingress of a port's streams but one, kB/s. -/
def ingress (c : Chip) (p but : Nat) : Nat :=
  ((c.store.streams.filter fun e => e.2.port == p && e.1 != but).map (·.2.rIn)).foldl (· + ·) 0

/-- The camera delivers a mosaic, and for raw output a packing, that an output format fits (R158, R229). -/
def formatOffered (caps : List Byte) (format : Nat) : Bool :=
  let mosaics := u16 caps 0x26
  if fmtClass format = 1 then bit (u8 caps 0x24) (fmtCode format) && bit mosaics (mosaicIndex (fmtLayout format))
  else if fmtClass format = 2 then bit mosaics (mosaicIndex (fmtLayout format))
  else bits mosaics 1 9 != 0

/-- A declaration lies within the camera's capabilities, once they are known (R158). -/
def capsOk (c : Chip) (p sub w h e : Nat) (format : Nat) : Bool :=
  let b := (c.port p).caps
  b.isEmpty || (decide (w ≤ u16 b 0x20) && decide (h ≤ u16 b 0x22) && decide (e ≤ u8 b 0x28 % 16) &&
    decide (sub < u8 b 0x28 / 16) && formatOffered b format)

/-- The active set of a stream's substream has no COLOUR table (R198, R224). -/
def noColour (c : Chip) (p sub : Nat) : Bool :=
  match (c.port p).activeSets.find? sub with | some s => u32 s.bytes 32 == 0 | none => true

/-- MOSAIC of the active COLOUR table of a port's substream (R214), which stage 7 applies. -/
def colourMosaic (d : Dev) (p sub : Nat) : Option Nat :=
  ((d.chip.port p).activeSets.find? sub).bind fun s =>
    let h := u32 s.bytes 32
    if h = 0 then none else some (u8 (d.mem.readBytes (tableBase h) 1) 0)

/-- Colour reconstruction has the frame it needs (R216): 8 pixels each way in the base tier, 16 in the extended one. -/
def colourFits (d : Dev) (p sub : Nat) (o : OutSet) (w h : Nat) : Bool :=
  fmtClass o.format != 3 || (match colourMosaic d p sub with
    | some m => let n := if tileOf m = 2 then 8 else if tileOf m = 4 then 16 else 1; decide (n ≤ w) && decide (n ≤ h)
    | none => true)

/-- A level of ISO/IEC 21122-2 covers every region of a Press-V stream (R235). -/
def levelCovers (o : OutSet) (w h f : Nat) : Bool :=
  o.press != 2 || (roisOf o w h 1).all fun r => (Config.pressVLevel [outW o r, outH o r, f, o.bpp]).isSome

namespace Chip

/-- Binds a write channel to a stream (R264, R323). -/
def bindChan (c : Chip) (fn chan sid : Nat) (alt : Bool) : Chip :=
  c.setWch (fn / 128) chan { ChanSt.reset with fn := some fn, stream := sid, alternate := alt }

/-- Returns a write channel that a stream held. -/
def freeChan (c : Chip) (fn chan sid : Nat) : Chip :=
  let w := c.wch (fn / 128) chan
  if w.fn.isSome && w.stream = sid then c.setWch (fn / 128) chan ChanSt.reset else c

/-- The channels that a placement uses: function, channel, alternate. -/
def chansOf (prot : Bool) (pl : Place) : List (Nat × Nat × Bool) :=
  if pl.seam then [] else (pl.fn, pl.chan, false) :: (if prot then [(pl.altFn, pl.chan, true)] else [])

/-- A channel can be bound for a stream: it is free or already the stream's. -/
def chansFree (c : Chip) (sid : Nat) (prot : Bool) (pl : Place) : Bool :=
  (chansOf prot pl).all fun k =>
    let w := c.wch (k.1 / 128) k.2.1
    w.fn.isNone || (w.stream == sid && w.fn == some k.1)

/-- Binds what a placement needs and does not yet hold. -/
def bindAll (c : Chip) (sid : Nat) (prot : Bool) (pl : Place) : Chip :=
  c.foldC (chansOf prot pl) fun c k =>
    let w := c.wch (k.1 / 128) k.2.1
    if w.fn = some k.1 && w.stream = sid then c.setWch (k.1 / 128) k.2.1 { w with alternate := k.2.2 }
    else c.bindChan k.1 k.2.1 sid k.2.2

/-- Frees the channels of a placement that the stream no longer uses. -/
def freeAll (c : Chip) (sid : Nat) (prot : Bool) (old : Place) (keep : List (Nat × Nat × Bool)) : Chip :=
  c.foldC (chansOf prot old) fun c k =>
    if keep.any fun x => x.1 == k.1 && x.2.1 == k.2.1 then c else c.freeChan k.1 k.2.1 sid

/-- An old placement has ended: its channels go too (R27, R209). -/
def settle_ (c : Chip) (sid : Nat) : Chip :=
  match c.stream? sid with
  | none => c
  | some s =>
    match s.old with
    | none => c
    | some o =>
      let d := c.settleOld sid
      match d.stream? sid with
      | some t => if t.old.isNone then d.freeAll sid s.prot o.place (chansOf s.prot s.place) else d
      | none => d

/-- Old placements that have ended (R27, R209). -/
def settleAll (c : Chip) : Chip := c.foldC ((c.store.streams.filter (·.2.old.isSome)).map (·.1)) settle_

/-- The in-line slots as the placements have them (R181). -/
def slots_ (c : Chip) : Chip :=
  c.foldC (List.range 16) fun c p =>
    let who := (c.onPipe p).find? fun sid => match c.stream? sid with
      | some s => s.place.placement == .inLine | none => false
    if (c.pipe p).inline = who then c else c.setPipe p { c.pipe p with inline := who }

/-- A lease ends (R254, R255). -/
def endLease (c : Chip) (fn idx : Nat) (expired : Bool) : Chip :=
  let l := c.lease fn idx
  if l.state != .active then c
  else
    let c := c.setLease fn idx { l with state := .ended, expired := expired, endAt := some c.up }
    if expired then c.emit 0x2F 1 (fn * 256 + idx) 0 (l.gen * 2 ^ 32 + l.seq) else c

/-- The leases of a function that `sel` chooses end. -/
def endLeases (c : Chip) (fn : Nat) (sel : LeaseSt → Bool) : Chip :=
  c.foldC (List.range 64) fun c i => if sel (c.lease fn i) then c.endLease fn i false else c

/-- Stack and pseudo-channel of granule `g` (R247). -/
def granulePlace (g : Nat) : Nat × Nat := (g % 4, g / 4 % 32)

/-- A place of the frame store is out of service (R250). -/
def retired (c : Chip) (q : Nat × Nat) : Bool := c.store.fsStacks.contains q.1 || c.store.pcs.contains (q.1 * 32 + q.2)

/-- Places of the interleave in the order in which allocation from granule `g` on takes them: it skips what is retired
(R247). -/
def livePlaces (c : Chip) (g : Nat) : List (Nat × Nat) :=
  ((List.range 128).map fun k => granulePlace (g + k)).filter (!c.retired ·)

/-- Places that `n` granules from the `a`-th on of a frame's output or input take; at which granule a frame's storage begins
is open (log 25). -/
def granulesOf (c : Chip) (sid : Nat) (f : Frame) (input : Bool) (a n : Nat) : List (Nat × Nat) :=
  let l := c.livePlaces (Config.openValue 25 0 [sid, f.seq, b2n input])
  if l.isEmpty then [] else (List.range (min n l.length)).filterMap fun k => l[(a + k) % l.length]?

/-- Where the frame store holds a frame (R181, R250, R251): output that landed there and has not left, and input that waits
for a pipe. -/
def placesOf (c : Chip) (sid : Nat) (f : Frame) : List (Nat × Nat) :=
  let gone := f.fsBelow (f.left / 4096)
  c.granulesOf sid f false gone (f.fsBelow (chunksOf f.bytes.length) - gone) ++ c.granulesOf sid f true 0 (chunksOf f.fsInput)

/-- Places of guard group `n` (R249): its three data granules and, fourth, its guard granule, whose stack rotates from group to
group (the order of rotation is the model's, log 25). -/
def guardPlace (n i : Nat) : Nat × Nat := (if i = 3 then n % 4 else (n + 1 + i) % 4, n % 32)

/-- The guard group of three granules (R249): what lies at each of its places. -/
def guardGroup (n : Nat) (x y z : List Byte) : List ((Nat × Nat) × List Byte) :=
  [(guardPlace n 0, x), (guardPlace n 1, y), (guardPlace n 2, z),
   (guardPlace n 3, (x.zip (y.zip z)).map fun t => t.1 ^^^ t.2.1 ^^^ t.2.2)]

/-- The granule of a guard group that lay at a lost place, rebuilt from the other three (R249, R250). -/
def guardRebuilt (lost : Nat × Nat) (group : List ((Nat × Nat) × List Byte)) : List Byte :=
  match (group.filter fun g => g.1 != lost).map (·.2) with
  | [x, y, z] => (x.zip (y.zip z)).map fun t => t.1 ^^^ t.2.1 ^^^ t.2.2
  | _ => []

/-- Of `n` granules from the `a`-th on of storage that begins with guard group `g`, one is lost when `part` retires: two places of
its group are, so that it cannot be rebuilt (R250). Groups lie alike again after 32. -/
def guardLost (c : Chip) (part : Nat × Nat → Bool) (g a n : Nat) : Bool :=
  (List.range (min n 96)).any fun k =>
    let m := g + (a + k) / 3
    let out := (List.range 4).filter fun i => part (guardPlace m i) || c.retired (guardPlace m i)
    out.contains ((a + k) % 3) && decide (2 ≤ out.length)

/-- Bytes of input of a frame that have arrived. -/
def inputBytes (f : Frame) : Nat := (f.exps.map fun e => (e.lines.map List.length).foldl (· + ·) 0).foldl (· + ·) 0

/-- A frame of a protected stream cannot be read any more when `part` retires (R249, R250): a granule in a guard group that cannot
be rebuilt, or one written when no new groups were (DESIGN CHOICE, log 25). At which group its storage begins is open. -/
def guardedLost (c : Chip) (part : Nat × Nat → Bool) (sid : Nat) (f : Frame) : Bool :=
  let all := f.fsBelow (chunksOf f.bytes.length)
  let gone := f.fsBelow (f.left / 4096)
  let g := if c.store.guard then (all, inputBytes f) else f.guarded.getD (0, 0)
  let input := chunksOf f.fsInput
  let safe := min input (chunksOf (g.2 - (inputBytes f - f.fsInput)))
  let start := fun i => Config.openValue 25 1 [sid, f.seq, b2n i]
  c.guardLost part (start false) gone (min all g.1 - gone) ||
    (c.granulesOf sid f false (max gone g.1) (all - max gone g.1)).any part ||
    c.guardLost part (start true) 0 safe || (c.granulesOf sid f true safe (input - safe)).any part

/-- Frames of unprotected streams that have a granule in a part that retires are LOST (R250), and the frame that showed the
error; of protected ones those that cannot be rebuilt. -/
def loseStored (c : Chip) (part : Nat × Nat → Bool) (hit : Option Nat) : Chip :=
  c.foldC (c.store.streams.map (·.1)) fun d sid =>
    match d.stream? sid with
    | none => d
    | some s =>
      if s.prot then d.loseFrames sid (c.guardedLost part sid) 0
      else
        let first := (s.frames.find? fun f => !(c.placesOf sid f).isEmpty).map (·.seq)
        d.loseFrames sid (fun f => (c.placesOf sid f).any part || (hit == some sid && first == some f.seq)) 0

/-- No new guard groups are written from now on (R250): what lies in the present ones is kept. -/
def endGuards (c : Chip) : Chip :=
  if !c.store.guard then c
  else
    let c := c.foldC (c.store.streams.map (·.1)) fun c sid => c.mapFrames sid (fun _ => true) fun f =>
      { f with guarded := some (f.fsBelow (chunksOf f.bytes.length), inputBytes f) }
    { c with store.guard := false }

/-- Capacities of the frame store have fallen (R28, R250). -/
def storeFell (c : Chip) : Chip := ((c.capacityFell 2 0).capacityFell 3 0 : Chip)

/-- A stack is retired (R250). -/
def retireStack (c : Chip) (st : Nat) (hit : Option Nat) : Chip :=
  if c.store.fsStacks.contains st then c
  else
    let c := c.loseStored (fun q => q.1 == st) hit
    let c := { c.endGuards with store.fsStacks := c.store.fsStacks ++ [st] }
    ((c.emit 0x16 2 (st * 32) 2 0).addFault 5 st).storeFell

/-- A pseudo-channel leaves service (R250). -/
def dropPc (c : Chip) (k : Nat) (hit : Option Nat) : Chip :=
  let c := c.loseStored (fun q => q.1 * 32 + q.2 == k) hit
  let c : Chip := { c.endGuards with store.pcs := c.store.pcs ++ [k] }
  ((c.emit 0x16 2 k 1 0).addFault 4 k).storeFell

/-- A pseudo-channel is retired, and its stack with the eighth (R250). -/
def retirePc (c : Chip) (st pc : Nat) (hit : Option Nat) : Chip :=
  if c.store.pcs.contains (st * 32 + pc) || c.store.fsStacks.contains st then c
  else if 7 ≤ (c.store.pcs.filter fun p => p / 32 == st).length then (c.dropPc (st * 32 + pc) hit).retireStack st none
  else c.dropPc (st * 32 + pc) hit

/-- Frames with data in a slot of the Basket are LOST (R244). -/
def loseBasket (c : Chip) : Chip :=
  c.foldC (c.store.streams.map (·.1)) fun c sid => c.loseFrames sid (fun f => decide (0 < f.slotsFull)) 0

/-- A Basket bank is retired (R244): with a second one no slot can be recovered, since each lies in all 17. -/
def retireBank (c : Chip) (b : Nat) : Chip :=
  if c.store.banks.contains b then c
  else
    let c := (({ c with store.banks := c.store.banks ++ [b] } : Chip).emit 0x16 1 b 0 0).addFault 8 b
    if 2 ≤ c.store.banks.length then c.loseBasket else c

/-- The built-in check of the Basket's banks at start-up (R244): which bank fails it is open (log 25). -/
def bankCheck (c : Chip) : Chip :=
  (c.foldC ((List.range 17).filter fun b => c.fresh 25 [b] % 2 == 1) retireBank).drawn

end Chip

end Sys2Proof.Machine
end

