-- ==== Sys2Proof/Machine/CamOps.lean ====
section
/-! DEFINITION. What a camera port does as a whole: its states, the control channel, discovery, time synchronisation,
calibration, MALFORMED blocks (R141, R154 to R158, R164 to R168, R174 to R177). -/

namespace Sys2Proof.Machine

/-- A parked command gets the answer of its outside party (R344). -/
def Chip.answer (c : Chip) (mb : Nat) (on : ParkKind → Bool) (status : Nat) (data : List Byte) : Chip :=
  let b := c.box mb
  match b.parked with
  | some k => if on k.on && k.answer.isNone then c.setBox mb { b with parked := some { k with answer := some (status, data) } } else c
  | none => c

/-- The answer of a request that nothing answered (R155). -/
def noAnswer : Nat := 0x100

/-- A calibration that the port's leaving READY ends (R167). -/
def notReady : Nat := 0x101

/-- What the device writes to KLP_QUIET.ALLOW: the spec gives no value (log 28). -/
def klpQuiet (p : Nat) : Nat := Config.openValue 28 0 [p] % 2

/-- The camera term of R161, ns. -/
def cameraTerm (rate : Nat) : Nat := if rate < 2 then 500 else if rate = 2 then 800 else 1800

namespace Chip

/-- No lane of a bond or link that is UP lies more than 1.0 µs from lane `n` (R117). -/
def skewOk (c : Chip) (n first w : Nat) : Bool :=
  (List.range w).all fun i => (c.lane (first + i)).state != .up ||
    decide (((c.lane n).skew - (c.lane (first + i)).skew).natAbs ≤ 10000)

/-- A lane's last alignment block meets its place in a bond or link, and its skew is in bounds (R117). -/
def laneFits (c : Chip) (n first w : Nat) (par : Bool) : Bool :=
  let l := c.lane n
  match l.far with
  | none => false
  | some a =>
    a.laneIdx == n - first && a.width == Nat.log2 w && a.parity == par && a.rate == (c.quad (n / 4)).rate &&
      (match (c.lane first).far with | some z => z.senderTag == a.senderTag | none => false) &&
      decide (l.skew.natAbs ≤ 10000) && c.skewOk n first w

/-- A lane of a camera bond is UP and meets R117. -/
def camLaneOn (c : Chip) (p n : Nat) : Bool :=
  (c.lane n).state == .up && c.laneFits n p (c.port p).width ((c.port p).protection == 1)

/-- Every lane of the bond is UP and meets R117 (R127). -/
def bondUp (c : Chip) (p : Nat) : Bool := (c.bondLanes p).all (c.camLaneOn p)

/-- The lowest data lane of a bond that is UP, whose periods stand for the bond's (R165, R177). -/
def headLane (c : Chip) (p : Nat) : Option Nat :=
  let t := c.port p
  ((List.range (if t.protection = 1 then t.width - 1 else t.width)).map (p + ·)).find? fun n => (c.lane n).state == .up

/-- The bond's present period is marked IDLE (R112, R177). -/
def idlePeriod (c : Chip) (p : Nat) : Bool := (c.headLane p).any fun n => (c.lane n).far.any (·.idle)

/-- A lane is in a quiet period (R176), or comes back from one (R131). -/
def quiet (c : Chip) (n : Nat) : Bool := (c.lane n).state == .l1 || (c.lane n).l1Long

/-- Leaves the states in which frames and triggers run (R141, R163, R174, R175): open frames and outstanding FIREs end LOST,
the camera starts again with PSN 0 and unaligned. -/
def portLeave (c : Chip) (mem : Mem) (p : Nat) (st : PortState) : Chip :=
  let c := c.foldC (c.port p).frames fun c f => c.closeFrame mem p f false
  -- triggers whose other exposures can no longer come (R191)
  let late := (c.startedOf p).flatMap fun sid => match c.stream? sid with
    | some s => (s.frames.filter fun f => f.phase != .lost && !f.complete).flatMap fun f =>
        ((List.range f.count).filter fun i => f.exps.all (·.index != i)).map fun i => (s.sub, f.frameNo, i)
    | none => []
  let c := c.foldC late.eraseDups fun c m => c.missExposure mem p m.1 m.2.1 m.2.2
  let c := c.endFires p
  let t := c.port p
  let c := match t.calib with
    | some k => c.answer k.mailbox (fun x => match x with | .calibrate _ => true | _ => false) notReady []
    | none => c
  let c := c.setPort p
    { t with frames := [], heldBlocks := [], runs := [], gone := [], discard := [], lastFree := [], thetas := [],
             goodMeans := 0, corrWait := false, aligned := false, txPsn := if st = .refused then t.txPsn else 0,
             rxPsn := if st = .refused then t.rxPsn else 0, loss := false, calib := none,
             flags := if t.aligned then setBit t.flags 3 else t.flags,
             degraded := t.degraded && st != .off, longLink := t.longLink && st != .off,
             reqs := t.reqs.filter fun r => match r.owner with | .mailbox _ => true | _ => false,
             reqQueue := [], stamps := [], badPeriod := false }
  -- what its streams had met of triggers is forgotten with them
  let c : Chip := { c with store.streams := c.store.streams.mapVals fun _ (s : StreamSt) =>
    if s.port = p then { s with triggers := [] } else s }
  (c.setPortState p st).releasePort p

/-- A port is refused (R158, R177). -/
def refuse (c : Chip) (mem : Mem) (p cause : Nat) : Chip :=
  let c := (c.refusedFlag p cause).portLeave mem p .refused
  c.emit 0xD 2 p (portCode .refused * 256 + cause) (c.port p).camTag

/-- Back to LINKING (R141, R174, R175). -/
def toLinking (c : Chip) (mem : Mem) (p : Nat) : Chip :=
  let st := (c.port p).state
  if st == .discover || st == .sync || st == .ready || st == .held then c.portLeave mem p .linking else c

/-- Sends a control request (R154, R155), with the next TAG that none outstanding holds; with eight outstanding it waits. -/
def newReq (c : Chip) (p op addr len : Nat) (data : List Byte) (owner : CtrlOwner) : Chip :=
  let t := c.port p
  let free := ((List.range 9).map fun i => (t.nextTag + i) % 256).find? fun g => t.reqs.all (·.tag != g)
  let tag := free.getD t.nextTag
  let r : CtrlReq := { tag := tag, op := op, addr := addr, len := len, data := data, retried := false, owner := owner }
  if 8 ≤ t.reqs.length then c.setPort p { t with reqQueue := t.reqQueue ++ [r] }
  else (c.setPort p { t with reqs := t.reqs ++ [r], nextTag := (tag + 1) % 256 }).sendDown p
    (.ctrlReq p tag op addr len data t.txPsn)

/-- A request has ended: the oldest that waits goes out (R155). -/
def nextReq (c : Chip) (p : Nat) : Chip :=
  let t := c.port p
  match t.reqQueue with
  | [] => c
  | r :: l => (c.setPort p { t with reqQueue := l }).newReq p r.op r.addr r.len r.data r.owner

/-- The capability read (R158). -/
def readCaps (c : Chip) (p : Nat) : Chip :=
  let t := c.port p
  (c.setPort p { t with attempts := t.attempts + 1 }).newReq p 3 0 64 [] .discovery

/-- A bond is enabled and the camera's IDLE bit is clear (R141, R145): DISCOVER. -/
def tryDiscover (c : Chip) (p : Nat) : Chip :=
  let t := c.port p
  let idle := match (c.lane p).far with | some a => a.idle | none => true
  if t.state != .linking || !c.bondUp p || idle then c
  else
    let c := c.setPort p { t with txPsn := 0, rxPsn := 0, runs := [], heldBlocks := [], frames := [], gone := [], discard := [],
                                  lastFree := [], attempts := 0, caps := [], activeMask := 0, degraded := false, loss := false }
    (c.setPortState p .discover).readCaps p

/-- The value that setting `step` of R158 writes, and where: KLP_PROTECT, KLP_TRIG, KLP_QUIET. -/
def setting (c : Chip) (p step : Nat) : Nat × Nat :=
  let t := c.port p
  if step % 3 = 0 then (0x104, t.protection) else if step % 3 = 1 then (0x100, b2n t.fireAt) else (0x108, klpQuiet p)

/-- Step 0 to 2 writes a setting and step 3 to 5 reads it back (R158). -/
def settingReq (c : Chip) (p step : Nat) : Chip :=
  let s := c.setting p step
  if step < 3 then c.newReq p 2 s.1 4 (le 4 s.2) (.settings step) else c.newReq p 1 s.1 4 [] (.settings step)

/-- The first check of R158 that fails, 0 for none. -/
def capCheck (c : Chip) (p : Nat) : Nat :=
  let t := c.port p
  let b := t.caps
  let link := u32 b 8
  let rate := (c.quad (p / 4)).cfgRate
  let tag := u32 b 4
  let far := match (c.lane p).far with | some a => a.senderTag | none => tag
  if u16 b 2 != 1 then 1
  else if (t.expTag != 0 && t.expTag != tag) || far != tag then 2
  else if !bit link (11 + Nat.log2 t.width) || !bit link (7 + rate) then 3
  else if (t.protection == 1 && !bit link 3) ||
      (t.protection == 2 && (!bit link 2 || decide (u16 b 0xC < 256) || decide (u16 b 0xE < 64))) then 4
  else if t.fireAt && (!bit link 0 || decide (cameraTerm rate < u32 b 0x14)) then 5
  else 0

/-- The capability part has been read (R158). -/
def discovered (c : Chip) (mem : Mem) (p : Nat) (data : List Byte) : Chip :=
  let c := c.setPort p { c.port p with caps := data, camTag := u32 data 4 }
  let k := c.capCheck p
  if k = 0 then c.settingReq p 0 else c.refuse mem p k

/-- A setting has been written, or read back (R158). -/
def settled (c : Chip) (mem : Mem) (p step : Nat) (data : List Byte) : Chip :=
  if 3 ≤ step && u32 data 0 != (c.setting p step).2 then c.refuse mem p 7
  else if step < 5 then c.settingReq p (step + 1)
  else c.setPortState p .sync

/-- PORT.CALIBRATE writes the next pulse instant, 1 ms ahead (R167). -/
def calibPulse (c : Chip) (p : Nat) : Chip :=
  let t := c.port p
  match t.calib with
  | none => c
  | some k =>
    let at_ := c.t64 + 1000000
    (c.setPort p { t with calib := some { k with instant := at_ * 65536 } }).newReq p 2 0x10C 8 (le 8 at_) .calibrate

/-- A calibration ends without its result (R155, R167). -/
def calibFail (c : Chip) (p status : Nat) : Chip :=
  let t := c.port p
  match t.calib with
  | none => c
  | some k => (c.setPort p { t with calib := none }).answer k.mailbox
      (fun x => match x with | .calibrate _ => true | _ => false) status []

/-- An edge of the calibration pin (R167): 16 errors give their mean, in ps, whose rounding is not stated (log 10). -/
def calibEdge (c : Chip) (p edge : Nat) : Chip :=
  let t := c.port p
  match t.calib with
  | none => c
  | some k =>
    if edge + msU < k.instant then c
    else
      let e : Int := (edge : Int) - k.instant - psU (u32 t.caps 0x2C) - psU k.wire
      let k := { k with n := k.n + 1, sum := k.sum + e }
      if k.n < 16 then (c.setPort p { t with calib := some k }).calibPulse p
      else
        let mean := quot (k.sum * 1000) (16 * 65536)
        (c.setPort p { t with calib := none }).answer k.mailbox (fun x => match x with | .calibrate _ => true | _ => false) 0
          (le 4 (unsigned 32 mean) ++ le 4 (unsigned 32 (t.asym - 2 * mean)))

/-- A control request ends (R155): with the camera's STATUS and data, or with no answer. -/
def reqEnds (c : Chip) (mem : Mem) (p : Nat) (r : CtrlReq) (status : Nat) (data : List Byte) : Chip :=
  let t := c.port p
  let c := (c.setPort p { t with reqs := t.reqs.filter (·.tag != r.tag) }).nextReq p
  match r.owner with
  | .discovery =>
    if (c.port p).state != .discover then c
    else if status = 0 then c.discovered mem p data
    else if 3 ≤ t.attempts then c.refuse mem p 6 else c
  | .settings step =>
    if (c.port p).state != .discover then c
    else if status = 0 then c.settled mem p step data else c.refuse mem p 7
  | .mailbox m => c.answer m (fun x => match x with | .camera q g => q == p && g == r.tag | _ => false) status data
  | .calibrate => if status = 0 then c else c.calibFail p status

/-- Leaves ALIGNED (R166): READY returns to SYNC, and its fire-at targets are held. -/
def loseAlign (c : Chip) (p : Nat) : Chip :=
  let t := c.port p
  if !t.aligned then c
  else
    let c := c.setPort p { t with aligned := false, goodMeans := 0, flags := setBit t.flags 3 }
    if t.state = .ready then
      let c := (c.endFires p).calibFail p notReady
      c.setPortState p .sync
    else c

/-- A mean of 16 exchanges (R166); `sum` is in 2⁻¹⁶ / 2000 ns. -/
def timeMean (c : Chip) (p : Nat) (sum : Int) : Chip :=
  let t := c.port p
  let m := (2 * sum + 32000).fdiv 64000
  let within := fun (q : Nat) => decide (sum.natAbs ≤ q * 8192 * 32000)
  let good := if within 4 then t.goodMeans + 1 else 0
  let c := c.setPort p { t with theta := m, thetas := [], goodMeans := good }
  let c := if within 2 then c
    else
      let t := c.port p
      let seq := (t.corrSeq + 1) % 256
      let c := c.setPort p { t with corr := -m, corrSeq := seq, corrWait := true }
      { c with cam.out := c.cam.out ++ [.corr p seq (-m)] }
  if !within 8 then c.loseAlign p
  else if 4 ≤ good && !t.aligned then
    let c := c.setPort p { c.port p with aligned := true }
    if t.state = .sync ∨ t.state = .held then (c.setPortState p .ready).releasePort p else c
  else c

/-- t4 of an exchange (R165): the arrival on lane 0 if that lane is UP, else on the lowest data lane that is, corrected by
the lane's last skew. -/
def arrivalOf (c : Chip) (p : Nat) (arr : List (Nat × Nat)) : Option Int :=
  (c.headLane p).bind fun n =>
    (arr.find? (·.1 == n - p)).map fun e => (e.2 : Int) - psU ((c.lane n).skew * 100)

/-- A timing exchange (R165, R166, R161). -/
def timeExchange (c : Chip) (p t1 t2 t3 : Nat) (arr : List (Nat × Nat)) (ack : Nat) : Chip :=
  let t := c.port p
  if t.state != .sync && t.state != .ready && t.state != .held then c
  else match c.arrivalOf p arr with
  | none => c
  | some t4 =>
    let d : Int := ((t4 - t1) - ((t3 : Int) - t2)) * 1000 - t.asym * 65536
    let long := decide (1000 * 65536 * 2000 < d)
    let c := c.setPort p { t with dDown := unsigned 32 (quot d 131072), longLink := long }
    let c := if t.longLink && !long then c.releasePort p else c
    if t.corrWait && ack % 256 != t.corrSeq then c
    else
      let th : Int := ((t2 : Int) - t1) * 2000 - d
      let l := (if t.corrWait then [] else t.thetas) ++ [th]
      let c := c.setPort p { c.port p with corrWait := false, thetas := l }
      if l.length < 16 then c else c.timeMean p (l.foldl (· + ·) 0)

/-- A malformed block (R177): its packet is damaged; the thousandth before it within 1 s refuses the port. -/
def malformed (c : Chip) (mem : Mem) (p : Nat) (psn : Option Nat) : Chip :=
  if !c.packetsOn p then c
  else
    let c : Chip := match psn with
      | some n => (c.psnIn p n false).1
      | none => c.packetsLost p
    let t := c.port p
    let many := (t.malTimes.drop 999).any fun u => decide (c.up ≤ u + secU)
    let c := c.setPort p { t with cMalformed := sat 16 (t.cMalformed + 1), malTimes := (c.up :: t.malTimes).take 1000 }
    if many then c.refuse mem p 8 else c

/-- DEGRADED of a port (R168, R173): set with a lane of the bond that is not UP, cleared when all have rejoined. -/
def judgeDegraded (c : Chip) (p : Nat) : Chip :=
  let t := c.port p
  let whole := (c.bondLanes p).all fun n => c.quiet n || c.camLaneOn p n
  if t.state = .off ∨ t.state = .linking ∨ t.state = .refused ∨ whole == !t.degraded then c
  else if whole then c.setPort p { t with degraded := false }
  else (c.setPort p { t with degraded := true, flags := setBit t.flags 4 }).emit 0x0F 1 p t.activeMask 0

/-- A lane of a camera bond has left UP (R168, R173, R175, R176): a loss that the protection does not cover is LINKING. -/
def camLaneLost (c : Chip) (mem : Mem) (p : Nat) : Chip :=
  let t := c.port p
  let down := (c.bondLanes p).filter fun n => (c.lane n).state != .up && !c.quiet n
  let active := (c.bondLanes p).filter fun n => t.activeMask == 0 || bit t.activeMask (n - p)
  let beyond := if t.protection = 1 then decide (1 < down.length)
    else if t.protection = 2 then active.all down.contains else !down.isEmpty
  let c := if t.protection = 0 then c else c.judgeDegraded p
  if beyond then c.toLinking mem p else c

/-- The camera port whose bond holds a lane, if it is enabled. -/
def portOf (c : Chip) (n : Nat) : Option Nat :=
  c.cam.ports.findSome? fun e =>
    if e.2.configured && decide (e.1 ≤ n) && decide (n < e.1 + e.2.width) && e.2.state != .off then some e.1 else none

/-- A rate change reaches a port of the quads (R130, R141, R175). -/
def portRateChange (c : Chip) (mem : Mem) (p : Nat) : Chip :=
  let st := (c.port p).state
  if st = .sync ∨ st = .ready ∨ st = .held then c.portLeave mem p .held
  else if st = .discover ∨ st = .linking then c.portLeave mem p .linking
  else c

end Chip

end Sys2Proof.Machine
end

