-- ==== Sys2Proof/Machine/Coding.lean ====
section
/-! DEFINITION. Line coding: blocks, the scrambler, the Reed–Solomon code, PAM4 levels, the alignment block, striping and
parity, test patterns and injected errors (R107 to R117, R133 to R136, R147, R168, R532). A bit sequence is a list in
transmission order; a 257-bit block is a number whose bit i is block bit i. -/

namespace Sys2Proof

namespace Machine

/-! ### Bits and blocks -/

/-- The low `w` bits of `v` in transmission order, bit 0 first (R108, R143). -/
def lowBits (w v : Nat) : List Bool := (List.range w).map (bit v)

/-- The number whose bit `i` is the `i`-th of a list. -/
def bitsNat : List Bool → Nat
  | [] => 0
  | b :: l => b2n b + 2 * bitsNat l

/-- A list cut into pieces of `k`. -/
def pieces {α : Type} (k : Nat) (l : List α) : List (List α) :=
  (List.range (l.length / k)).map fun i => (l.drop (i * k)).take k

/-- The bits of control-block bytes in transmission order (R143, R532). -/
def lineBits (bs : List Byte) : List Bool := bs.flatMap fun b => lowBits 8 b.toNat

/-- The line CRC-16 over bytes (R532). -/
def lineCrc (bs : List Byte) : Nat := crcBits 16 0x1021 0xFFFF (lineBits bs)

/-- The 257-bit block of 32 bytes (R108, R143): header 1 for payload, 0 for a control block. -/
def blockOf (payload : Bool) (bs : List Byte) : Nat := b2n payload + 2 * leNat bs

/-- The 32 bytes of a block (R143). -/
def bytesOfBlock (b : Nat) : List Byte := le 32 (b / 2)

/-- Blocks of a codeword, codewords and blocks of an alignment period (R108, R109). -/
def codewordBlocks : Nat := 20
def periodCodewords : Nat := 64
def periodBlocks : Nat := periodCodewords * codewordBlocks

/-- What stands in a block position of an alignment period (R108). -/
inductive Slot
  | alignment
  | overhead (n : Fin 4)
  | payload (q : Nat)
deriving DecidableEq, Repr

/-- Block 0 is the alignment block, blocks 1 to 4 are overhead, the other 1,275 are payload slots (R108). -/
def slotOf (i : Nat) : Slot :=
  if i = 0 then .alignment
  else if h : i - 1 < 4 then .overhead ⟨i - 1, h⟩
  else .payload (i - 5)

/-! ### The scrambler -/

/-- The next bit of a shift register whose feedback is the sum of the given stages. -/
def lfsrOut (taps : List Nat) (r : Nat) : Bool := (taps.filter fun t => bit r (t - 1)).length % 2 == 1

/-- One step: the feedback enters at stage 1. -/
def lfsrNext (w : Nat) (taps : List Nat) (r : Nat) : Nat := r * 2 % 2 ^ w + b2n (lfsrOut taps r)

/-- `n` bits of a shift register, and where it stands after them. -/
def lfsrBits (w : Nat) (taps : List Nat) : Nat → Nat → List Bool × Nat
  | 0, r => ([], r)
  | n + 1, r =>
    let t := lfsrBits w taps n (lfsrNext w taps r)
    (lfsrOut taps r :: t.1, t.2)

/-- What the scrambler is loaded with after each alignment block (R108). -/
def scramblerSeed (laneIdx : Nat) : Nat := 0x7FFFFF00 ||| laneIdx

/-- Scrambles one block's bits 1 to 256 (R108); the header passes. The same step descrambles. -/
def scrambleBlock (r : Nat) (bs : List Bool) : List Bool × Nat :=
  let k := lfsrBits 31 [31, 28] 256 r
  (bs.take 1 ++ (bs.drop 1).zipWith xor k.1, k.2)

/-- Blocks of a period from a given register on. -/
def scrambleFrom : Nat → List (List Bool) → List (List Bool)
  | _, [] => []
  | r, b :: l => (scrambleBlock r b).1 :: scrambleFrom (scrambleBlock r b).2 l

/-- A period is scrambled, or descrambled: all but its alignment block (R107, R108). -/
def scramblePeriod (laneIdx : Nat) : List (List Bool) → List (List Bool)
  | [] => []
  | a :: l => a :: scrambleFrom (scramblerSeed laneIdx) l

/-! ### The Reed–Solomon code RS(544,514) over GF(2¹⁰) (R109; field and generator: log 80) -/

/-- Multiplication by α, a root of x¹⁰ + x³ + 1. -/
def gfTwice (a : Nat) : Nat := if 1024 ≤ 2 * a then (2 * a) ^^^ 0x409 else 2 * a

/-- The product of two field elements. -/
def gfMul (a b : Nat) : Nat := (List.range 10).foldr (fun i acc => gfTwice acc ^^^ (if bit b i then a else 0)) 0

def gfPow (a : Nat) : Nat → Nat
  | 0 => 1
  | n + 1 => gfMul a (gfPow a n)

/-- The inverse of a nonzero element, a¹⁰²². -/
def gfInv (a : Nat) : Nat := gfPow a 1022

/-- α to the power `n`. -/
def gfAlpha (n : Nat) : Nat := gfPow 2 (n % 1023)

/-- A polynomial, coefficient of xⁱ at place i, times another. -/
def polyMul (a b : List Nat) : List Nat :=
  (List.range (a.length + b.length - 1)).map fun k =>
    ((List.range a.length).map fun i => if i ≤ k then gfMul (a.getD i 0) (b.getD (k - i) 0) else 0).foldl (· ^^^ ·) 0

/-- The value of a polynomial at a point. -/
def polyAt (a : List Nat) (x : Nat) : Nat := a.foldr (fun k acc => gfMul acc x ^^^ k) 0

/-- The generator: the product of x − αʲ over j from 0 to 29, coefficient of x³⁰ last. -/
def rsGenerator : List Nat := (List.range 30).foldl (fun g j => polyMul g [gfAlpha j, 1]) [1]

/-- One message symbol enters the division by the generator; the register holds the coefficient of x²⁹ first. -/
def rsStep (g reg : List Nat) (m : Nat) : List Nat :=
  let f := m ^^^ reg.headD 0
  (reg.drop 1 ++ [0]).zipWith (fun a k => a ^^^ gfMul f k) g

/-- The 30 parity symbols of a message, first sent first. -/
def rsParity (msg : List Nat) : List Nat :=
  let g := (rsGenerator.take 30).reverse
  msg.foldl (rsStep g) (List.replicate 30 0)

/-- A codeword: the message symbols, then the parity (R109). -/
def rsEncode (msg : List Nat) : List Nat := msg ++ rsParity msg

/-- The 30 syndromes of a received word. -/
def rsSyndromes (word : List Nat) : List Nat :=
  (List.range 30).map fun j => let a := gfAlpha j; word.foldl (fun acc s => gfMul acc a ^^^ s) 0

/-- The search for the error locator: the polynomial, the one before its last change of length, and what goes with it. -/
structure RsSearch where
  /-- The locator so far. -/
  loc : List Nat
  /-- The locator before the last change of length. -/
  old : List Nat
  /-- Length of the register. -/
  len : Nat
  /-- Steps since the last change of length. -/
  gap : Nat
  /-- Discrepancy at the last change of length. -/
  disc : Nat

/-- One syndrome enters the search. -/
def RsSearch.step (syn : List Nat) (z : RsSearch) (n : Nat) : RsSearch :=
  let d := ((List.range (z.len + 1)).map fun i => if i ≤ n then gfMul (z.loc.getD i 0) (syn.getD (n - i) 0) else 0).foldl (· ^^^ ·) 0
  if d = 0 then { z with gap := z.gap + 1 }
  else
    let k := gfMul d (gfInv z.disc)
    let shift := List.replicate z.gap 0 ++ z.old.map (gfMul k)
    let w := max z.loc.length shift.length
    let new := (List.range w).map fun i => z.loc.getD i 0 ^^^ shift.getD i 0
    if 2 * z.len ≤ n then { loc := new, old := z.loc, len := n + 1 - z.len, gap := 1, disc := d }
    else { z with loc := new, gap := z.gap + 1 }

/-- The decoder (R109): the corrected word and how many symbols it corrects, at most 15; none for a BAD codeword. -/
def rsDecode (word : List Nat) : Option (List Nat × Nat) :=
  let syn := rsSyndromes word
  if syn.all (· == 0) then some (word, 0)
  else
    let z := (List.range 30).foldl (RsSearch.step syn) { loc := [1], old := [1], len := 0, gap := 1, disc := 1 }
    let n := word.length
    let roots := (List.range n).filter fun i => polyAt z.loc (gfAlpha (1023 - i)) == 0
    let eval := (polyMul syn z.loc).take 30
    let odd := (List.range z.loc.length).map fun i => if i % 2 = 0 then z.loc.getD (i + 1) 0 else 0
    let fix := fun (i : Nat) =>
      let x := gfAlpha (1023 - i)
      gfMul (gfMul (gfAlpha i) (polyAt eval x)) (gfInv (polyAt odd x))
    let out := (List.range n).map fun p =>
      let i := n - 1 - p
      word.getD p 0 ^^^ (if roots.contains i then fix i else 0)
    if z.len ≤ 15 && roots.length == z.len && (rsSyndromes out).all (· == 0) then some (out, z.len) else none

/-- The 514 message symbols of twenty blocks, the first bit sent in the least significant place (R109). -/
def messageOf (blocks : List (List Bool)) : List Nat := (pieces 10 blocks.flatten).map bitsNat

/-- The bits of symbols, in transmission order (R109). -/
def symbolBits (l : List Nat) : List Bool := l.flatMap (lowBits 10)

/-! ### Levels (R110, R111) -/

/-- Gray code: a pair of bits, the first the more significant, gives a level. -/
def grayLevel (first second : Bool) : Nat := match first, second with
  | false, false => 0 | false, true => 1 | true, true => 2 | true, false => 3

/-- The pair of a level. -/
def grayBits (level : Nat) : List Bool :=
  if level = 0 then [false, false] else if level = 1 then [false, true] else if level = 2 then [true, true] else [true, false]

/-- The symbols of a bit sequence: pairs for PAM4, single bits for NRZ. -/
def mapLevels (pam4 : Bool) (l : List Bool) : List Nat :=
  if pam4 then (pieces 2 l).map fun p => grayLevel (p.getD 0 false) (p.getD 1 false) else l.map b2n

def unmapLevels (pam4 : Bool) (l : List Nat) : List Bool := if pam4 then l.flatMap grayBits else l.map (· == 1)

/-- Precoding: P_n = (G_n − P_(n−1)) mod 4, from a given P (R110). -/
def precode : Nat → List Nat → List Nat
  | _, [] => []
  | p, g :: l => let q := (g + 4 - p % 4) % 4; q :: precode q l

/-- Its reverse: G_n = (P_n + P_(n−1)) mod 4. -/
def unprecode : Nat → List Nat → List Nat
  | _, [] => []
  | p, q :: l => (q + p) % 4 :: unprecode q l

/-- An inverted pair of wires (R111). -/
def invertLevels (pam4 : Bool) (l : List Nat) : List Nat := l.map fun v => (if pam4 then 3 else 1) - v

/-- How a transmitter, or the far end's, sends levels. -/
structure LineMode where
  /-- R106 (04): PAM4, else NRZ. -/
  pam4 : Bool
  /-- R110 (04): precoding is on. -/
  pre : Bool
  /-- R111 (04): the polarity is inverted. -/
  inv : Bool
deriving DecidableEq, Repr

/-- Bits to symbols: map, precode, polarity (R107); `p` is the last symbol before them. -/
def LineMode.levels (m : LineMode) (p : Nat) (l : List Bool) : List Nat :=
  let g := mapLevels m.pam4 l
  let g := if m.pam4 && m.pre then precode p g else g
  if m.inv then invertLevels m.pam4 g else g

/-- Symbols to bits, in the reverse order (R107). -/
def LineMode.bits (m : LineMode) (p : Nat) (l : List Nat) : List Bool :=
  let g := if m.inv then invertLevels m.pam4 l else l
  let g := if m.pam4 && m.pre then unprecode p g else g
  unmapLevels m.pam4 g

/-! ### A lane from end to end (R107) -/

/-- The RS symbols of an alignment period's blocks: scrambled, then coded (R108, R109). -/
def codeBlocks (laneIdx : Nat) (blocks : List Nat) : List Nat :=
  (pieces codewordBlocks (scramblePeriod laneIdx (blocks.map (lowBits 257)))).flatMap fun w => rsEncode (messageOf w)

/-- The symbols of an alignment period's blocks: scrambled, coded, mapped, precoded and serialised in that order. -/
def sendBlocks (m : LineMode) (laneIdx p : Nat) (blocks : List Nat) : List Nat :=
  m.levels p (symbolBits (codeBlocks laneIdx blocks))

/-- A codeword's status as its receiver delivers it (R123). -/
inductive CwStatus
  | good
  | corrected (symbols : Nat)
  | bad
deriving DecidableEq, Repr

/-- What the decoder says of a codeword (R109, R123). -/
def cwStatus (word : List Nat) : CwStatus :=
  match rsDecode word with
  | none => .bad
  | some (_, 0) => .good
  | some (_, n + 1) => .corrected (n + 1)

/-- The blocks and statuses of a received alignment period: the steps of `sendBlocks` in reverse order. -/
def receiveBlocks (m : LineMode) (laneIdx p : Nat) (symbols : List Nat) : List Nat × List CwStatus :=
  let words := pieces 544 ((pieces 10 (m.bits p symbols)).map bitsNat)
  let msgs := words.map fun w => ((rsDecode w).map fun r => r.1).getD w
  let blocks := msgs.flatMap fun w => pieces 257 (symbolBits (w.take 514))
  ((scramblePeriod laneIdx blocks).map bitsNat, words.map cwStatus)

/-! ### Control blocks (R143, R146, R387) -/

/-- A control block: 30 bytes, reserved ones 0, and their CRC (R143, R532). -/
def framed (b : List Byte) : List Byte :=
  let b := (b ++ List.replicate 30 0).take 30
  b ++ le 2 (lineCrc b)

/-- The CRC of a received control block passes. -/
def framedOk (b : List Byte) : Bool := b.length == 32 && lineCrc (b.take 30) == u16 b 30

/-- An OH_LANE block (R146). -/
def OhLane.bytes (o : OhLane) : List Byte :=
  framed (le 1 0x70 ++ le 3 0 ++ le 1 o.protect ++ le 1 o.status ++ le 2 o.eqfRx ++ le 2 o.activeMask ++ le 4 o.psnNext)

/-- The fields of an OH_LANE block. -/
def ohLaneOf (b : List Byte) : OhLane :=
  { psnNext := u32 b 10, activeMask := u16 b 8, eqfRx := u16 b 6, status := u8 b 5, protect := u8 b 4 % 4 }

/-! ### The alignment block (R112, R113, R532) -/

/-- COMMA_HI and COMMA_LO, block bits 1 to 128. -/
def comma : Nat := 0x96E04BD3A71F2C58 * 2 ^ 64 + 0x3D9AF1C26B058E47

/-- Block bits 129 to 240 of an alignment block. -/
def AlignFields.pack (a : AlignFields) : Nat :=
  a.laneIdx % 16 + a.width % 8 * 2 ^ 4 + b2n a.parity * 2 ^ 7 + a.role % 4 * 2 ^ 8 + a.rate % 4 * 2 ^ 10 +
    b2n a.precode * 2 ^ 12 + b2n a.idle * 2 ^ 13 + b2n a.quiet * 2 ^ 14 + a.rxReady % 2 ^ 16 * 2 ^ 15 +
    a.period % 2 ^ 16 * 2 ^ 31 + a.senderTag % 2 ^ 32 * 2 ^ 47

/-- The fields of block bits 129 to 240. -/
def alignFieldsOf (v : Nat) : AlignFields :=
  { laneIdx := bits v 0 4, width := bits v 4 3, parity := bit v 7, role := bits v 8 2, rate := bits v 10 2,
    precode := bit v 12, idle := bit v 13, quiet := bit v 14, rxReady := bits v 15 16, period := bits v 31 16,
    senderTag := bits v 47 32 }

/-- The CRC of block bits 129 to 240, bit 129 first (R112, R532). -/
def alignCrc (v : Nat) : Nat := crcBits 16 0x1021 0xFFFF (lowBits 112 v)

/-- Block bits 129 to 256: the fields and their CRC. -/
def alignContent (a : AlignFields) : Nat := a.pack + alignCrc a.pack * 2 ^ 112

/-- The alignment block: header 0, comma, fields, CRC. -/
def alignBlockOf (a : AlignFields) : Nat := 2 * comma + alignContent a * 2 ^ 129

/-! ### Striping and parity (R116, R147, R168) -/

/-- Where payload block `q` of a bond of `n` data lanes goes: the lane, and the place among that lane's slots (R116). -/
def stripePlace (n q : Nat) : Nat × Nat := (q % n, q / n)

/-- The active data lanes of a mask in ascending order; under DARNING the stripes run over these (R147). -/
def activeLanes (mask : Nat) : List Nat := (List.range 16).filter (bit mask)

/-- The lane of block `q` of a period under an ACTIVE_MASK (R147). -/
def activePlace (mask q : Nat) : Option (Nat × Nat) :=
  let l := activeLanes mask
  (l[q % l.length]?).map fun lane => (lane, q / l.length)

/-- A bond's payload sequence on its data lanes (R116). -/
def striped (n : Nat) (blocks : List Nat) : List (List Nat) :=
  (List.range n).map fun lane => (List.range ((blocks.length + n - 1 - lane) / n)).filterMap fun k => blocks[k * n + lane]?

/-- The parity lane's block at a slot: the XOR of the data lanes' blocks there, before scrambling (R116). -/
def parityBlock (l : List Nat) : Nat := l.foldl (· ^^^ ·) 0

/-- A slot of a stripe after repair (R168): with one lane BAD its block is the XOR of the others', parity lane included;
with more the blocks of the BAD lanes are lost. -/
def repairedSlot (l : List (Option Nat)) : List (Option Nat) :=
  if (l.filter (·.isNone)).length = 1 then l.map fun b => some (b.getD (parityBlock (l.filterMap id))) else l

/-! ### Test patterns and injected errors (R133 to R136) -/

/-- Length and feedback stages of a test pattern's shift register (R133). -/
def patternTaps (code : Nat) : Nat × List Nat :=
  if code = 1 then (7, [7, 6]) else if code = 2 then (9, [9, 5]) else if code = 3 ∨ code = 6 then (13, [13, 12, 2, 1])
  else if code = 4 then (15, [15, 14]) else (31, [31, 28])

/-- `n` bits of a pattern whose register stands at `r` (R133). -/
def patternBits (code n r : Nat) : List Bool := (lfsrBits (patternTaps code).1 (patternTaps code).2 n r).1

/-- A symbol moved one level (R136): for PAM4 up, or down from level 3; for NRZ inverted. -/
def movedLevel (pam4 : Bool) (v : Nat) : Nat := if pam4 then (if v < 3 then v + 1 else v - 1) else 1 - v

/-- The symbols of an event of kind SYMBOL or BURST that begins at place `i` (R136). -/
def burstLevels (pam4 : Bool) (i k : Nat) (l : List Nat) : List Nat :=
  l.take i ++ ((l.drop i).take k).map (movedLevel pam4) ++ l.drop (i + k)

/-- A BREAK (R136): 16 consecutive RS symbols of a codeword from place `i` on, 160 bits, inverted after encoding. -/
def brokenWord (i : Nat) (l : List Nat) : List Nat :=
  l.take i ++ ((l.drop i).take 16).map (1023 ^^^ ·) ++ l.drop (i + 16)

/-- Levels with an event of kind SYMBOL or BURST at place `i` (R136); the other kinds leave them. -/
def Inject.onLevels (j : Inject) (pam4 : Bool) (i : Nat) (l : List Nat) : List Nat :=
  if j.kind = 0 then burstLevels pam4 i 1 l else if j.kind = 1 then burstLevels pam4 i j.size l else l

/-- The RS symbols of codewords with a BREAK in codeword `w` from symbol `i` on (R136). -/
def Inject.onWords (j : Inject) (w i : Nat) (l : List Nat) : List Nat :=
  if j.kind = 2 then brokenWord (544 * w + min i 528) l else l

/-- The symbols of codewords with an event of an injection, after FEC encoding (R136): in codeword `ev.1` from place `ev.2`
on, an RS symbol for a BREAK, else a symbol of the line; without an event as they are. -/
def sentLevels (m : LineMode) (j : Option Inject) (ev : Option (Nat × Nat)) (p : Nat) (words : List Nat) : List Nat :=
  match j, ev with
  | some j, some (w, i) =>
    j.onLevels m.pam4 ((if m.pam4 then 2720 else 5440) * w + i) (m.levels p (symbolBits (j.onWords w i words)))
  | _, _ => m.levels p (symbolBits words)

end Machine

/-- Comma bits received otherwise than sent (R113). -/
def AlignObs.errors (o : AlignObs) : Nat :=
  ((List.range 128).filter fun i => Machine.bit o.comma i != Machine.bit Machine.comma i).length

/-- The fields of the block (R112). -/
def AlignObs.fields (o : AlignObs) : Machine.AlignFields := Machine.alignFieldsOf (Machine.bits o.content 0 112)

/-- The block's CRC passes (R113, R532). -/
def AlignObs.crcOk (o : AlignObs) : Bool :=
  Machine.alignCrc (Machine.bits o.content 0 112) == Machine.bits o.content 112 16

/-- ROLE is a valid code (R112). -/
def AlignObs.roleOk (o : AlignObs) : Bool := o.fields.role == 1 || o.fields.role == 2

end Sys2Proof
end

