-- ==== Sys2Proof/Machine/Klp.lean ====
section
/-! DEFINITION. KLP control blocks as bytes: the type codes, the blocks that the device sends and what it reads of those it
receives (R143 to R145, R154, R159, R160, R164, R170). -/

namespace Sys2Proof.Machine

/-- The block types of R144. -/
inductive KlpType
  | idle | sof | img | eof | ctrlReq | ctrlRsp | fire | fireStatus | darnReq | darnGone | camEvent | ohLane | ohTime | ohNull
deriving DecidableEq, Repr

/-- The type of a TYPE code; none for any other. -/
def klpType (t : Nat) : Option KlpType :=
  if t = 0x00 then some .idle else if t = 0x01 then some .sof else if t = 0x02 then some .img else if t = 0x03 then some .eof
  else if t = 0x10 then some .ctrlReq else if t = 0x11 then some .ctrlRsp else if t = 0x20 then some .fire
  else if t = 0x21 then some .fireStatus else if t = 0x40 then some .darnReq else if t = 0x41 then some .darnGone
  else if t = 0x60 then some .camEvent else if t = 0x70 then some .ohLane else if t = 0x71 then some .ohTime
  else if t = 0x7F then some .ohNull else none

/-- A packet's control block (R143): TYPE, FLAGS, PSN and body. -/
def packetBlock (type flags psn : Nat) (body : List Byte) : List Byte := framed (le 1 type ++ le 1 flags ++ le 4 psn ++ body)

/-- FIRE (R159), its first copy or its second (R160). -/
def fireBlock (unit fireId instant : Nat) (delayed : Bool) (psn : Nat) (copy : Bool) : List Byte :=
  packetBlock 0x20 (if copy then 0x40 else 0) psn
    (le 2 fireId ++ le 8 (instant / 65536) ++ le 2 (instant % 65536) ++ le 1 unit ++ le 1 (b2n delayed))

/-- CTRL_REQ (R154): up to 16 bytes of DATA in the block. -/
def ctrlReqBlock (tag op addr len : Nat) (data : List Byte) (psn : Nat) : List Byte :=
  packetBlock 0x10 0 psn (le 1 tag ++ le 1 op ++ le 4 addr ++ le 2 len ++ if op = 2 then data.take 16 else [])

/-- DARN_REQ (R170). -/
def darnReqBlock (first count psn : Nat) : List Byte := packetBlock 0x40 0 psn (le 4 first ++ le 2 count)

/-- The 257-bit blocks of what a port sends downstream, in order (R108, R143, R145, R154, R159, R160): of a FIRE both
copies, each in a codeword of its own; a correction goes in OH_TIME (R164). -/
def CamOut.blocks : CamOut → List Nat
  | .fire _ unit fireId instant delayed psn =>
    [blockOf false (fireBlock unit fireId instant delayed psn false), blockOf false (fireBlock unit fireId instant delayed psn true)]
  | .ctrlReq _ tag op addr len data psn =>
    blockOf false (ctrlReqBlock tag op addr len data psn) ::
      (if op = 4 then (pieces 32 data).map (blockOf true) else [])
  | .darnReq _ first count psn => [blockOf false (darnReqBlock first count psn)]
  | .corr _ _ _ => []

/-- What an upstream OH_TIME says (R164). -/
structure OhTime where
  /-- 80 bits; R164 (05): t2, 2⁻¹⁶ ns. -/
  t2 : Nat
  /-- 80 bits; R164 (05): t3, 2⁻¹⁶ ns. -/
  t3 : Nat
  /-- 16 bits; R164 (05): RX_PERIOD. -/
  rxPeriod : Nat
  /-- 8 bits; R164 (05): CORR_ACK. -/
  ack : Nat
deriving DecidableEq, Repr

/-- The fields of an upstream OH_TIME. -/
def ohTimeOf (b : List Byte) : OhTime :=
  { t3 := fieldAt b 1 10, rxPeriod := u16 b 11, t2 := fieldAt b 13 10, ack := u8 b 23 }

/-- What a CTRL_RSP echoes (R154). -/
def rspEchoOf (b : List Byte) : RspEcho := { tag := u8 b 6, len := u16 b 12, addr := u32 b 8 }

/-- The DATA of a CTRL_RSP (R154): in the block, or for a burst in its payload. -/
def rspData (b payload : List Byte) : List Byte := if u16 b 12 ≤ 16 then (b.drop 14).take (u16 b 12) else payload.take (u16 b 12)

/-- What a FIRE_STATUS says (R159): FIRE_ID, STATUS and the T64 of acceptance. -/
def fireStatusOf (b : List Byte) : Nat × Nat × Nat := (u16 b 6, u8 b 8, u64 b 10)

end Sys2Proof.Machine
end

