-- ==== Sys2Proof/Machine/Cam.lean ====
section
/-! DEFINITION. The camera port commands (R139, R140, R367), the KLP blocks and timeouts that reach a port (R141 to R177)
and its status page (R178, R179). -/

namespace Sys2Proof.Machine

/-- The block of a camera port as words (R178); lanes that begin no port read 0. -/
def portBlock (c : Chip) (p : Nat) : List Nat :=
  let t := c.port p
  if !t.configured then List.replicate 16 0
  else
    [portCode t.state * 2 ^ 28 + t.cause * 2 ^ 24 + Nat.log2 t.width * 2 ^ 21 + t.protection * 2 ^ 19 + b2n t.aligned * 2 ^ 18 +
       b2n t.longLink * 2 ^ 17 + b2n t.degraded * 2 ^ 16 + t.activeMask,
     t.camTag, t.dDown, unsigned 32 t.theta, t.cIntact % 2 ^ 32, t.cIntact / 2 ^ 32, t.cLost, t.cRebuilt, t.cDarnReq,
     t.cDarnPkts, t.cMalformed * 2 ^ 16 + t.cCtrlLate * 256 + t.cCtrlTimeout,
     t.cFireRefused * 2 ^ 16 + t.cNoSof * 256 + t.cUnsol, t.flags, t.lastFire, t.lastFrame,
     t.cNotReady * 2 ^ 16 + t.cNoStatus]

/-- The lanes of a bond keep R103: inside the device, and over two or four quads all CAMERA at one rate and mode. -/
def bondOk (c : Chip) (p w : Nat) : Bool :=
  let qs := (List.range ((w + 3) / 4)).map fun i => c.quad (p / 4 + i)
  [1, 2, 4, 8, 16].contains w && p % w == 0 && decide (p + w ≤ 64) &&
    (decide (w ≤ 4) || qs.all fun q => q.role == .camera && q.cfgRate == (c.quad (p / 4)).cfgRate &&
      q.rate == (c.quad (p / 4)).rate && q.mode == (c.quad (p / 4)).mode)

/-- The other configured ports whose lanes a bond overlaps (R139). -/
def overlaps (c : Chip) (p w : Nat) : List Nat :=
  (c.cam.ports.filter fun e => e.1 != p && e.2.configured && decide (e.1 < p + w) && decide (p < e.1 + e.2.width)).map (·.1)

/-- PORT.CONFIGURE (R103, R139, R142, R367). -/
def cmdPortConfigure : Cmd :=
  { opcode := 0x0220, roles := [2], size := fun r => r.length == 20, stage := 3, cfg := fun r _ => some (u8 r 0),
    body := fun _ r d =>
      let c := d.chip
      let p := u8 r 0
      let w := u8 r 1
      let t := c.port p
      let a := i32 r 8
      let new := { t with
        configured := true, width := w, protection := u8 r 2, fireAt := u8 r 3 == 0, expTag := u32 r 4, asym := a,
        expTimeout := u32 r 12, frameTimeout := u32 r 16 }
      let others := overlaps c p w
      let inUse := fun q => (c.port q).state != .off || c.store.streams.any (·.2.port == q)
      let after := c.setPort p new
      if 63 < p || !bondOk c p w || 2 < u8 r 2 || 1 < u8 r 3 || (u8 r 2 != 0 && w == 1) ||
          a < -100000 || 100000 < a || new.expTimeout < 1 || 10000 < new.expTimeout || new.frameTimeout < 1 ||
          10000 < new.frameTimeout then .no stBADARG
      else if t.state != .off || others.any inUse || decide (usable after p true < ingress after p 0x1000) then .no stBADSTATE
      else .doC fun c =>
        let c := { c with cam.ports := c.cam.ports.filter fun (e : Nat × PortSt) => !(others.contains e.1),
                          board.cfg := c.board.cfg.filter fun (i : CfgItem) =>
                            !((i.opcode == 0x0220 || i.opcode == 0x0221) && others.contains i.key) }
        c.setPort p new }

def execPortConfigure (mb : Nat) (req : List Byte) (s : State) : Out :=
  s.onDevIf (validMb mb) (tilpo cmdPortConfigure mb req)

/-- PORT.ENABLE (R141, R367). -/
def cmdPortEnable : Cmd :=
  { opcode := 0x0221, roles := [2], size := fun r => r.length == 1, stage := 3, cfg := fun r _ => some (u8 r 0),
    body := fun _ r d =>
      let c := d.chip
      let p := u8 r 0
      let t := c.port p
      if 63 < p then .no stBADARG
      else if !t.configured || t.state != .off || !((c.bondLanes p).all fun n => (c.quad (n / 4)).role == .camera) then
        .no stBADSTATE
      else .doC fun c =>
        let c := c.setPort p { t with cause := 0, camTag := 0, caps := [], dDown := 0, theta := 0, malTimes := [] }
        (c.setPortState p .linking).tryDiscover p }

def execPortEnable (mb : Nat) (req : List Byte) (s : State) : Out :=
  s.onDevIf (validMb mb) (tilpo cmdPortEnable mb req)

/-- PORT.DISABLE (R141, R367). -/
def cmdPortDisable : Cmd :=
  { opcode := 0x0222, roles := [2], size := fun r => r.length == 1, stage := 3, uncfg := fun r => [(0x0221, u8 r 0)],
    body := fun _ r d =>
      let p := u8 r 0
      if 63 < p then .no stBADARG
      else if (d.chip.port p).state = .off then .no stBADSTATE
      else .commit fun d => (d.onChip fun c => c.portLeave d.mem p .off, []) }

def execPortDisable (mb : Nat) (req : List Byte) (s : State) : Out :=
  s.onDevIf (validMb mb) (tilpo cmdPortDisable mb req)

/-- The operation that a length asks for (R154): READ or WRITE, or a burst; none where it fits neither. -/
def ctrlOp (len : Nat) (write : Bool) : Option Nat :=
  if 4 ≤ len ∧ len ≤ 16 ∧ len % 4 = 0 then some (if write then 2 else 1)
  else if 32 ≤ len ∧ len ≤ 2048 ∧ len % 32 = 0 then some (if write then 4 else 3)
  else none

/-- The status that a camera's STATUS gives (R155). -/
def camStatus (st : Nat) : Nat :=
  if st = 0 then stOK else if st = 1 ∨ st = 2 then stBADARG else if st = 3 then stBUSY
  else if st = noAnswer then stTIMEOUT else stINTERNAL

/-- Before DISCOVER (R141, R367). -/
def beforeDiscover (t : PortSt) : Bool := !t.configured || t.state == .off || t.state == .linking

/-- PORT.CAM_READ (R154, R155, R367). -/
def cmdCamRead : Cmd :=
  { opcode := 0x0223, roles := [], size := fun r => r.length == 8, stage := 3,
    body := fun x r d =>
      let p := u8 r 0
      let t := d.chip.port p
      match ctrlOp (u16 r 2) false with
      | none => .no stBADARG
      | some op =>
        if 63 < p || u32 r 4 % 4 != 0 then .no stBADARG
        else if beforeDiscover t then .no stBADSTATE
        else if 8 ≤ t.reqs.length then .no stBUSY
        else
          let after := d.chip.newReq p op (u32 r 4) (u16 r 2) [] (.mailbox x.mb)
          .park (.camera p ((((after.port p).reqs.getLast?).map (·.tag)).getD 0)) fun d => d.onChip fun c =>
            c.newReq p op (u32 r 4) (u16 r 2) [] (.mailbox x.mb)
    resume := fun _ r a _ =>
      if a.1 = noAnswer then .no stTIMEOUT
      else .ends (camStatus a.1) 0 (le 1 a.1 ++ le 3 0 ++ (a.2 ++ List.replicate (u16 r 2) 0).take (u16 r 2)) id }

def execPortCamRead (mb : Nat) (req : List Byte) (s : State) : Out :=
  s.onDevIf (validMb mb) (tilpo cmdCamRead mb req)

/-- PORT.CAM_WRITE (R154 to R156, R367). -/
def cmdCamWrite : Cmd :=
  { opcode := 0x0224, roles := [2], size := fun r => decide (8 ≤ r.length) && r.length == 8 + u16 r 2, stage := 3,
    body := fun x r d =>
      let p := u8 r 0
      let a := u32 r 4
      let n := u16 r 2
      let t := d.chip.port p
      if a < 0x200 && 0x100 < a + n then .no stNORIGHT
      else match ctrlOp n true with
      | none => .no stBADARG
      | some op =>
        if 63 < p || a % 4 != 0 then .no stBADARG
        else if beforeDiscover t then .no stBADSTATE
        else if 8 ≤ t.reqs.length then .no stBUSY
        else
          let after := d.chip.newReq p op a n (r.drop 8) (.mailbox x.mb)
          .park (.camera p ((((after.port p).reqs.getLast?).map (·.tag)).getD 0)) fun d => d.onChip fun c =>
            c.newReq p op a n (r.drop 8) (.mailbox x.mb)
    resume := fun _ _ a _ =>
      if a.1 = noAnswer then .no stTIMEOUT
      else if a.1 = 0 then .commit fun d => (d, le 4 0)
      else .refuse (camStatus a.1) (le 1 a.1 ++ le 3 0) }

def execPortCamWrite (mb : Nat) (req : List Byte) (s : State) : Out :=
  s.onDevIf (validMb mb) (tilpo cmdCamWrite mb req)

/-- PORT.CALIBRATE (R167, R367). -/
def cmdCalibrate : Cmd :=
  { opcode := 0x0225, roles := [2], size := fun r => r.length == 8, stage := 3,
    body := fun x r d =>
      let p := u8 r 0
      let t := d.chip.port p
      let pin := u8 r 1
      if 63 < p || 23 < pin then .no stBADARG
      else if t.state != .ready || t.calib.isSome || (d.chip.pin pin).output then .no stBADSTATE
      else .park (.calibrate p) fun d => d.onChip fun c =>
        let k : CalibSt := { mailbox := x.mb, pin := pin, wire := u32 r 4, instant := 0, n := 0, sum := 0 }
        (c.setPort p { c.port p with calib := some k }).calibPulse p
    resume := fun _ _ a _ =>
      if a.1 = 0 then .commit fun d => (d, a.2)
      else .no (if a.1 = notReady then stBADSTATE else camStatus a.1) }

def execPortCalibrate (mb : Nat) (req : List Byte) (s : State) : Out :=
  s.onDevIf (validMb mb) (tilpo cmdCalibrate mb req)

/-- PORT.READ_STATUS (R178, R363, R367). -/
def cmdReadPort : Cmd :=
  { opcode := 0x0226, roles := [], size := fun r => r.length == 1, stage := 3,
    body := fun _ r d => if 63 < u8 r 0 then .no stBADARG else .say (wordBytes (portBlock d.chip (u8 r 0))) }

def execPortReadStatus (mb : Nat) (req : List Byte) (s : State) : Out :=
  s.onDevIf (validMb mb) (tilpo cmdReadPort mb req)

/-- A port with its counters and sticky flags cleared (R178). -/
def PortSt.cleared (t : PortSt) : PortSt :=
  { t with cIntact := 0, cLost := 0, cRebuilt := 0, cDarnReq := 0, cDarnPkts := 0, cMalformed := 0, cCtrlLate := 0,
           cCtrlTimeout := 0, cFireRefused := 0, cNoSof := 0, cUnsol := 0, flags := 0, cNotReady := 0, cNoStatus := 0 }

/-- PORT.CLEAR_COUNTS (R140, R367). -/
def cmdClearPort : Cmd :=
  { opcode := 0x0227, roles := [2, 3], size := fun r => r.length == 1, stage := 3,
    body := fun _ r _ =>
      let p := u8 r 0
      if 63 < p && p != 0xFF then .no stBADARG
      else .doC fun c =>
        { c with cam.ports := c.cam.ports.map fun (e : Nat × PortSt) =>
            if p = 0xFF ∨ e.1 = p then (e.1, e.2.cleared) else e } }

def execPortClearCounts (mb : Nat) (req : List Byte) (s : State) : Out :=
  s.onDevIf (validMb mb) (tilpo cmdClearPort mb req)

/-- CP_STATE is read (R179): the reader's latch takes the block. -/
def Chip.readPort (c : Chip) (view p : Nat) : Chip :=
  let b := portBlock c p
  { c with rd := le 4 (b.getD 0 0), cam.latches := c.cam.latches.put (view * 64 + p) b }

def execCpStateRead (view : Nat) (port : Fin 64) (s : State) : Out :=
  s.onRead (validView view) view fun c => c.readPort view port.val

namespace Chip

/-- A SOF packet (R141, R145, R148, R163). -/
def sofPacket (c : Chip) (mem : Mem) (p psn : Nat) (b : List Byte) : Chip :=
  if !c.packetsOn p then c
  else if c.idlePeriod p then c.malformed mem p (some psn)
  else match c.psnIn p psn true with
    | (c, some true) => ((c.sofIn mem p (sofOf b)).tidyFires p).repaired mem p
    | (c, some false) => c
    | (c, none) => c.malformed mem p none

/-- An IMG packet (R149): its length, and its CRC-32C. -/
def imgPacket (c : Chip) (mem : Mem) (p psn : Nat) (b payload : List Byte) : Chip :=
  if !c.packetsOn p then c
  else if c.idlePeriod p || payload.length != (u8 b 16 + 1) * 32 then c.malformed mem p (some psn)
  else
    let good := crc32c payload == u32 b 18
    match c.psnIn p psn good with
    | (c, some true) => (c.imgIn mem p psn b payload).repaired mem p
    | (c, some false) =>
      if good then c
      else
        let key := imgKey b 17
        let t := c.port p
        c.setPort p { t with frames := t.frames.map fun f => if f.key = key then { f with holed := true } else f }
    | (c, none) => c.malformed mem p none

/-- An EOF packet (R150, R153). -/
def eofPacket (c : Chip) (mem : Mem) (p psn : Nat) (b : List Byte) : Chip :=
  if !c.packetsOn p then c
  else if c.idlePeriod p then c.malformed mem p (some psn)
  else match c.psnIn p psn true with
    | (c, some true) => (c.eofIn mem p psn b).repaired mem p
    | (c, some false) => c
    | (c, none) => c.malformed mem p none

/-- The frame timeout of a frame or of an exposure that never came (R153, R191). -/
def frameLate (c : Chip) (mem : Mem) (p n sub idx : Nat) : Chip :=
  match (c.port p).frames.find? (·.key == (n, sub, idx)) with
  | some f => ((if f.holed then c else c.frameFormat p 1 n).closeFrame mem p f false)
  | none => c.missExposure mem p sub n idx

/-- CTRL_RSP (R155): the first with a matching TAG ends its request, a later one is counted, with the ADDR it echoes
(R498). -/
def ctrlRsp (c : Chip) (mem : Mem) (p : Nat) (e : RspEcho) (status : Nat) (data : List Byte) : Chip :=
  match (c.port p).reqs.find? (·.tag == e.tag) with
  | some r => c.reqEnds mem p r status data
  | none =>
    let t := c.port p
    if t.state = .off then c
    else (c.setPort p { t with cCtrlLate := sat 8 (t.cCtrlLate + 1) }).emit 0xE 1 p (e.tag % 256 * 256 + status % 256) e.addr

/-- A request has had no answer for 2 ms (R155). -/
def ctrlRetry (c : Chip) (p tag : Nat) : Chip :=
  let t := c.port p
  match t.reqs.find? (fun r => r.tag == tag && !r.retried) with
  | none => c
  | some r =>
    (c.setPort p { t with reqs := t.reqs.map fun x => if x.tag = tag then { x with retried := true } else x }).sendDown p
      (.ctrlReq p r.tag r.op r.addr r.len r.data t.txPsn)

/-- Nor for 2 ms after its retry (R155, R177). -/
def ctrlTimeout (c : Chip) (mem : Mem) (p tag : Nat) : Chip :=
  let t := c.port p
  match t.reqs.find? (fun r => r.tag == tag && r.retried) with
  | none => c
  | some r =>
    let c := (c.setPort p { t with cCtrlTimeout := sat 8 (t.cCtrlTimeout + 1) }).emit 0xE 1 p (tag % 256 * 256 + 0xFF) r.addr
    c.reqEnds mem p r noAnswer []

/-- The capability read is repeated (R158). -/
def discoverAgain (c : Chip) (p : Nat) : Chip :=
  let t := c.port p
  if t.state = .discover ∧ t.reqs.all (fun r => r.owner != .discovery) ∧ t.caps.isEmpty ∧ t.attempts < 3 then c.readCaps p
  else c

/-- A one-block packet that belongs to no frame (R144, R145): what it says takes effect with a PSN that the port takes; a
port that takes no packets does not follow their PSNs. -/
def upPacket (c : Chip) (mem : Mem) (p psn : Nat) (f : Chip → Chip) : Chip :=
  if !c.packetsOn p then f c
  else if c.idlePeriod p then c.malformed mem p (some psn)
  else match c.psnIn p psn true with
    | (c, some true) => (f c).repaired mem p
    | (c, some false) => c
    | (c, none) => c.malformed mem p none

/-- FIRE_STATUS (R163). -/
def fireStatus (c : Chip) (p fireId status : Nat) : Chip :=
  let t := c.port p
  match t.fires.find? (fun o => o.fireId == fireId && !o.answered) with
  | none => c
  | some o =>
    let c := c.setPort p { t with fires := t.fires.map fun x => if x.fireId = fireId then { x with answered := true } else x }
    if status = 0 || 3 < status || o.ended then c
    else (c.endFire p { o with answered := true }).fireRefused p status o.instant

/-- No SOF with the FIRE_ID within the exposure timeout (R163, R177). -/
def noSofInTime (c : Chip) (p fireId : Nat) : Chip :=
  let t := c.port p
  match t.fires.find? (fun o => o.fireId == fireId && o.sofs.isEmpty) with
  | none => c
  | some o =>
    let c := c.setPort p { t with cNoSof := sat 8 (t.cNoSof + 1) }
    (c.endFire p o).emit 0x11 1 p 4 (o.instant / 65536)

/-- DARN_GONE (R172). -/
def darnGone (c : Chip) (mem : Mem) (p first count : Nat) : Chip := c.darnLost mem p (psnRange first (min count 1024))

/-- A run not filled 100 µs after its request (R172). -/
def darnAgain (c : Chip) (p psn : Nat) : Chip :=
  let t := c.port p
  match t.runs.find? (fun r => r.first == psn && r.sent == 1 && !r.missing.isEmpty) with
  | none => c
  | some r =>
    (c.setPort p { t with cDarnReq := sat 32 (t.cDarnReq + 1),
                          runs := t.runs.map fun x => if x.first = psn then { x with sent := 2 } else x }).sendDown p
      (.darnReq p r.first r.count t.txPsn)

/-- A camera may stripe over these data lanes under DARNING (R147): one of the last RX_READY_MASKs sent had all their bits set,
since which of them the camera had received is not known (log 71). -/
def stripable (c : Chip) (p mask : Nat) : Bool :=
  let l := (c.lane p).readySent
  l.isEmpty || l.any fun m => mask &&& m == mask

/-- OH_LANE on a camera lane (R146, R147, R172, R177): the stripes' lanes and the next PSN. A mask that contradicts R147
damages the payload of its period, and stands in CP_STATE all the same (R178). -/
def camOhLane (c : Chip) (mem : Mem) (p : Nat) (b : List Byte) : Chip :=
  let t := c.port p
  let mask := u16 b 8
  let data := if t.protection = 1 then t.width - 1 else t.width
  let wrong := if t.protection = 2 then decide (2 ^ data ≤ mask) || mask == 0 || !c.stripable p mask else mask != 2 ^ data - 1
  if !c.packetsOn p then c
  else if wrong then (c.setPort p { t with activeMask := mask, badPeriod := true }).malformed mem p none
  else
    let d := (u32 b 10 + 2 ^ 32 - t.rxPsn % 2 ^ 32) % 2 ^ 32
    let c := c.setPort p { t with activeMask := mask }
    let c := if 0 < d ∧ d < 2 ^ 31 then
        let c := c.damaged p (psnRange t.rxPsn d)
        c.setPort p { c.port p with rxPsn := u32 b 10 }
      else c
    c.closeRuns p

/-- Every codeword of a stripe has a status (R168, R169); a lane without lock or in L1 delivers BAD whatever came (R123). What a
rebuilt slot holds is `repairedSlot`. -/
def stripe (c : Chip) (p : Nat) (bad : List Nat) : Chip :=
  let t := c.port p
  let bad := (c.bondLanes p).filter fun n => bad.contains n || !(c.lane n).delivers
  if t.protection != 1 || !c.packetsOn p then c
  else if bad.length = 1 then
    (c.setPort p { t with cRebuilt := sat 32 (t.cRebuilt + 1) }).count (0x500 + 4 * p + 2) 1
  else if bad.isEmpty then c
  else c.packetsLost p

/-- OH_LANE on a lane of a camera port: it is kept (R146), and what it says takes effect; a block that fails its checks is
malformed (R177). -/
def camOhIn (c : Chip) (mem : Mem) (p n : Nat) (b : List Byte) : Chip :=
  if !framedOk b || u8 b 0 != 0x70 then c.malformed mem p none
  else (c.setLane n { c.lane n with oh := some (ohLaneOf b) }).camOhLane mem p b

/-- A control block as a codeword gave it (R143 to R147, R177): its check, its TYPE, and its place in the period. -/
def klpIn (c : Chip) (mem : Mem) (p lane slot arrived : Nat) (b payload : List Byte) : Chip :=
  let psn := u32 b 2
  if !framedOk b then c.malformed mem p none
  else match slotOf slot, klpType (u8 b 0) with
    | .overhead 0, some .ohLane => c.camOhIn mem p (p + lane) b
    | .overhead 1, some .ohTime =>
      let o := ohTimeOf b
      match (c.port p).stamps.find? (·.1 == o.rxPeriod) with
      | some e => c.timeExchange p e.2 o.t2 o.t3 [(lane, arrived)] o.ack
      | none => c
    | .overhead _, some .ohNull => c
    | .payload _, some .idle => c
    | .payload _, some .sof => c.sofPacket mem p psn b
    | .payload _, some .img => c.imgPacket mem p psn b payload
    | .payload _, some .eof => c.eofPacket mem p psn b
    | .payload _, some .ctrlRsp =>
      c.upPacket mem p psn fun c => c.ctrlRsp mem p (rspEchoOf b) (u8 b 7) (rspData b payload)
    | .payload _, some .fireStatus => c.upPacket mem p psn fun c => c.fireStatus p (u16 b 6) (u8 b 8)
    | .payload _, some .darnGone => c.upPacket mem p psn fun c => c.darnGone mem p (u32 b 6) (u16 b 10)
    | .payload _, some .camEvent => c.upPacket mem p psn id
    | _, _ => c.malformed mem p none

/-- A block that no row of its own brings (R144, R177). -/
def upBlock (c : Chip) (mem : Mem) (p : Nat) : UpBlock → Chip
  | .damaged psn => c.malformed mem p psn
  | .raw lane slot arrived b payload => c.klpIn mem p lane slot arrived b payload

/-- 10 ms without acknowledgement of a correction (R177). -/
def camTimeLate (c : Chip) (p : Nat) : Chip :=
  let t := c.port p
  if t.corrWait then c.emit 0xE 2 p t.corrSeq (unsigned 64 t.theta) else c

/-- An edge of an input pin, for its consumers and for the calibrations that use it (R61, R167). -/
def inputEdge (c : Chip) (pin : Nat) (rising : Bool) : Chip :=
  let edge := round100 c.time.tb
  let takes := !(c.pin pin).output && !((c.pin pin).edge == 0 && !rising) && !((c.pin pin).edge == 1 && rising)
  let c := c.pinEdge pin rising
  if !takes then c
  else c.foldC (c.cam.ports.filter fun e => e.2.calib.any (·.pin == pin)) fun c e => c.calibEdge e.1 edge

end Chip

def execSofReceived (port : Fin 64) (psn : Nat) (body : List Byte) (s : State) : Out :=
  s.runDev fun d => d.onChip fun c => c.sofPacket d.mem port.val psn body

def execImgReceived (port : Fin 64) (psn : Nat) (body payload : List Byte) (s : State) : Out :=
  s.runDev fun d => d.onChip fun c => c.imgPacket d.mem port.val psn body payload

def execEofReceived (port : Fin 64) (psn : Nat) (body : List Byte) (s : State) : Out :=
  s.runDev fun d => d.onChip fun c => c.eofPacket d.mem port.val psn body

def execFrameTimeout (port : Fin 64) (frameNo sub index : Nat) (s : State) : Out :=
  s.runDev fun d => d.onChip fun c => c.frameLate d.mem port.val frameNo sub index

def execMalformedBlockReceived (port : Fin 64) (psn : UpBlock) (s : State) : Out :=
  s.runDev fun d => d.onChip fun c => c.upBlock d.mem port.val psn

def execCtrlRspReceived (port : Fin 64) (psn : Nat) (tag : RspEcho) (status : Nat) (data : List Byte) (s : State) : Out :=
  s.runDev fun d => d.onChip fun c => c.upPacket d.mem port.val psn fun c => c.ctrlRsp d.mem port.val tag status data

def execCtrlReqRetry (port : Fin 64) (tag : Nat) (s : State) : Out := s.run fun c => c.ctrlRetry port.val tag

def execCtrlReqTimeout (port : Fin 64) (tag : Nat) (s : State) : Out :=
  s.runDev fun d => d.onChip fun c => c.ctrlTimeout d.mem port.val tag

def execDiscoveryRetry (port : Fin 64) (s : State) : Out := s.run fun c => c.discoverAgain port.val

def execFireStatusReceived (port : Fin 64) (psn fireId status : Nat) (s : State) : Out :=
  s.runDev fun d => d.onChip fun c => c.upPacket d.mem port.val psn fun c => c.fireStatus port.val fireId status

def execExposureTimeout (port : Fin 64) (fireId : Nat) (s : State) : Out := s.run fun c => c.noSofInTime port.val fireId

def execDarnGoneReceived (port : Fin 64) (psn first count : Nat) (s : State) : Out :=
  s.runDev fun d => d.onChip fun c => c.upPacket d.mem port.val psn fun c => c.darnGone d.mem port.val first count

def execDarnRetryTimeout (port : Fin 64) (psn : Nat) (s : State) : Out := s.run fun c => c.darnAgain port.val psn

def execDarnLossTimeout (port : Fin 64) (psn : Nat) (s : State) : Out :=
  s.runDev fun d => d.onChip fun c => c.darnLost d.mem port.val [psn]

def execOhTimeReceived (port : Fin 64) (t1 t2 t3 : Nat) (t4 : List (Nat × Nat)) (ack : Nat) (s : State) : Out :=
  s.run fun c => c.timeExchange port.val t1 t2 t3 t4 ack

def execSyncExchangeTimeout (port : Fin 64) (s : State) : Out := s.run fun c => c.loseAlign port.val

def execCamTimeTimeout (port : Fin 64) (s : State) : Out := s.run fun c => c.camTimeLate port.val

def execParityStripeComplete (port : Fin 64) (bad : List Nat) (s : State) : Out := s.run fun c => c.stripe port.val bad

def execPinInputEdge (pin : Fin 24) (rising : Bool) (s : State) : Out := s.run fun c => c.inputEdge pin.val rising

/-- The commands of the family. -/
def portCmds : List Cmd :=
  [cmdPortConfigure, cmdPortEnable, cmdPortDisable, cmdCamRead, cmdCamWrite, cmdCalibrate, cmdReadPort, cmdClearPort]

end Sys2Proof.Machine
end

