-- ==== Sys2Proof/Machine/DmaOps.lean ====
section
/-! DEFINITION. The DMA engines: status records (R283, R284), pegs (R257 to R259), bursts (R270 to R276), leases (R253),
descriptors (R266 to R269), read transfers (R281, R282), halts and aborts (R285 to R287), and failover (R290, R324). -/

namespace Sys2Proof.Machine

/-- A status record's 32 bytes (R283). -/
def stsBytes (p chan : Nat) (r : StsRec) (rec : Nat) : List Byte :=
  let b := le 2 (p * 256 + chan) ++ le 1 r.flags ++ le 1 r.code ++ le 2 rec ++ le 2 r.index ++ le 4 r.tag ++ le 4 r.seq ++
    le 4 r.residue ++ le 8 r.time
  b ++ le 4 (crc32c b)

/-- EPOCH of a frame's peg (R257): of a frame from the Seam, its template's (R409). -/
def Frame.pegEpoch (f : Frame) : Nat := match f.shape with | some (_, _, _, e) => e | none => f.epoch

/-- A peg's 64 bytes (R257, R258). -/
def pegBytes (f : Frame) (sid flags chan location format width lines : Nat) (payload crc : Nat) : List Byte :=
  let b := le 2 sid ++ le 2 flags ++ le 4 f.seq ++ le 8 f.trigT ++ le 8 f.eofT ++ le 6 (unsigned 48 f.pos) ++ le 1 f.unit ++
    le 1 f.enc ++ le 8 payload ++ le 2 width ++ le 4 lines ++ le 2 format ++ le 1 f.pegEpoch ++ le 1 chan ++ le 6 location ++
    le 4 crc
  b ++ le 4 (crc32c b)

/-- A peg that fails TAG_MISMATCH carries the complement of PEG_CRC, its last four bytes (R438). -/
def spoilCrc (b : List Byte) : List Byte := b.take (b.length - 4) ++ (b.drop (b.length - 4)).map fun x => ~~~x

/-- FORMAT, WIDTH and LINES of a delivered frame's peg (R228, R257). -/
def pegShape (f : Frame) (inter : Bool) : Nat × Nat × Nat :=
  let fmt := pegFormat f.out (!f.piped) f.packing f.mosaic
  if let some (fmt, w, l, _) := f.shape then (fmt, w, l)
  else if !f.piped then (fmt, f.width, f.count * f.height)
  else if 2 ≤ f.out.rois.length then (fmt, 0, f.out.rois.length)
  else
    let r := (roisOf f.out f.width f.height (if inter then f.count else 1)).headD { x := 0, y := 0, w := f.width, h := f.height }
    (fmt, outW f.out r, outH f.out r)

/-- A channel has been armed and not stopped (R285, R292). -/
def ChanSt.running (w : ChanSt) : Bool := w.state == .run || w.state == .waitMark || w.state == .waitSpace

/-- The frame whose turn it is on a stream: the oldest whose peg is not yet on its way (R243). -/
def headFrame (s : StreamSt) : Option Frame := s.frames.find? (·.phase != .pegged)

/-- Output that may leave now, by delivery units (R240). -/
def deliverable (s : StreamSt) (f : Frame) : Nat :=
  let n := f.bytes.length
  if f.phase = .finished then n
  else if s.mode != 1 then n / 4096 * 4096
  else if f.out.press != 0 then n
  else
    let r := (roisOf f.out f.width f.height 1).headD { x := 0, y := 0, w := f.width, h := f.height }
    let unit := 64 * (if f.piped then lineSize f.out.format (outW f.out r) else lineBytes f.width f.packing f.mosaic)
    if unit = 0 then n else n / unit * unit

/-- The stored output, of which nothing is issued yet, includes the last byte of a frame, or a whole delivery unit in LATENCY
mode (R275); a LOST peg to come drains the queue as well. -/
def hasEnd (s : StreamSt) : Bool :=
  s.frames.any fun f => (f.phase == .finished && (decide (f.issued < f.bytes.length) || f.start.isNone)) || f.phase == .lost || (s.mode == 1 && decide (f.issued < deliverable s f))

/-- The queue of R275: complete 4 KiB slots stored and not issued. -/
def queueSlots (s : StreamSt) : Nat := ((s.frames.filter (·.phase != .pegged)).map fun f => (f.bytes.length - f.issued) / 4096).foldl (· + ·) 0

/-- Every byte of a frame's payload has been issued, also before its end is known (R286). -/
def Frame.gone (f : Frame) : Bool :=
  f.start.isSome && ((f.phase == .finished && f.issued == f.bytes.length) || (f.stored == some f.issued && f.issued != 0))

/-- Cuts `n` bytes from running ring offset `off` into TLP payloads (R270): none crosses a 4 KiB host address boundary
or the ring's end, or is larger than `mps`. -/
def cutTlps (base log2 mps : Nat) : Nat → Nat → Nat → List (Nat × Nat)
  | 0, _, _ => []
  | fuel + 1, off, n =>
    if n = 0 then []
    else
      let o := off % 2 ^ log2
      let a := base + o
      let k := min (min n mps) (min (4096 - a % 4096) (2 ^ log2 - o))
      (a, k) :: cutTlps base log2 mps fuel (off + k) (n - k)

namespace Chip

/-- Payload TLPs of a stream that still wait in the port's issue queues. -/
def queuedOf (h : HostSt) (sid : Nat) : List Tlp :=
  (h.qP ++ h.qB).filter fun t => match t.kind with | .payload k .. => k == sid | _ => false

/-- RING_WR and the pegs written as the host may see them (R292, R312): up to what still waits in the issue queues. -/
def ringWr (c : Chip) (p i : Nat) : Nat :=
  let h := c.host p
  (((h.qP ++ h.qB).filterMap fun t => match t.kind with | .payload _ k _ o .. => if k = i then some o else none | _ => none).min?).getD
    (c.wch p i).wr

def ringPeg (c : Chip) (p i : Nat) : Nat :=
  let h := c.host p
  let waiting := (h.qU ++ h.uWait).filter fun t => match t.kind with | .peg _ k _ => k == i | _ => false
  ((c.wch p i).pegs + 2 ^ 32 - waiting.length) % 2 ^ 32

def chan (c : Chip) (isRead : Bool) (p i : Nat) : ChanSt := if isRead then c.rch p i else c.wch p i
def setChan (c : Chip) (isRead : Bool) (p i : Nat) (w : ChanSt) : Chip := if isRead then c.setRch p i w else c.setWch p i w

/-- A port's engines issue for a function (R296, R300, R315). -/
def fnLive (c : Chip) (f : Nat) : Bool :=
  let g := c.fn f
  (c.host (f / 128)).state == .service && g.bme && !g.d3 && !g.flr

/-- A channel writes a status record (R283, R284): into the ring in force, after which its interrupt may follow. -/
def stsWrite (c : Chip) (isRead : Bool) (p i : Nat) (r : StsRec) (irq : Bool) : Chip :=
  let w := c.chan isRead p i
  match w.cfg, w.fn with
  | some g, some f =>
    let r := { r with flags := r.flags ||| b2n isRead }
    let c := c.setChan isRead p i { w with recNext := (w.recNext + 1) % 65536 }
    c.sendM f (.status i) (g.stsBase + 32 * (w.recNext % 2 ^ g.stsLog2)) (stsBytes p i r w.recNext)
      (if irq then [g.vector] else [])
  | _, _ => c

/-- A record of a channel at the present instant. -/
def stsOf (c : Chip) (code index tag seq residue : Nat) : StsRec :=
  { code := code, flags := 0, index := index % 65536, tag := tag, seq := seq, residue := residue, time := c.t64 }

/-- A record of a write channel after APPLIED, of the WCONFIG in force (R283). -/
def stsOfRing (c : Chip) (w : ChanSt) (code seq residue : Nat) : StsRec :=
  c.stsOf code ((w.cfg.map (·.index)).getD 0) ((w.cfg.map (·.tag)).getD 0) seq residue

/-- A peg entry is free (R271, R274). -/
def pegFree (w : ChanSt) : Bool :=
  match w.cfg with
  | some g => decide ((w.pegs + 2 ^ 32 - w.pegRel) % 2 ^ 32 < 2 ^ g.pegLog2)
  | none => false

/-- The channel lacks space (R271). -/
def waitSpace (c : Chip) (p i : Nat) : Chip :=
  let w := c.wch p i
  if w.state = .waitSpace then c
  else c.setWch p i { w with state := .waitSpace, spaceWaits := sat 16 (w.spaceWaits + 1), flags := setBit w.flags 1 }

/-- The sequence of the first frame still to come on a stream. -/
def nextSeq (s : StreamSt) : Nat :=
  match (s.frames.find? fun f => f.phase != .pegged && f.phase != .judging) with | some f => f.seq | none => s.seqNext

/-- FOLD_CHANGED once every frame before the new Fold has its peg (R279), and the stream has taken the first under it. -/
def foldCheck (c : Chip) (p i : Nat) : Chip :=
  let w := c.wch p i
  match c.stream? w.stream with
  | some s =>
    let due := fun (q : Nat) => decide ((nextSeq s + 2 ^ 32 - q) % 2 ^ 32 < 2 ^ 31) && s.seqNext != q && !s.frames.any (·.phase == .judging)
    (c.setWch p i { w with foldSeq := w.foldSeq.filter (!due ·) }).foldC (w.foldSeq.filter due) fun c q =>
      c.stsWrite false p i (c.stsOfRing w 8 q 0) false
  | none => c

/-- The FOLD_CHANGED records that have come due. -/
def foldAll (c : Chip) : Chip :=
  [0, 1].foldl (fun c p => c.foldC ((List.range 256).filter fun i => !(c.wch p i).foldSeq.isEmpty) fun c i => c.foldCheck p i) c

/-- An epoch comes after that of a stream's last peg (R210): an older one, whose pegs a freeze took back, is no new one. -/
def laterEpoch (old new : Nat) : Bool := decide (0 < (new + 256 - old) % 256) && decide ((new + 256 - old) % 256 < 128)

/-- Marks of a peg at its writing (R210, R476): EPOCH_CHANGED and REDUCED. -/
def pegFlags (c : Chip) (s : StreamSt) (f : Frame) : Nat :=
  let e := if laterEpoch s.pegEpoch f.epoch then fEPOCH else 0
  let cut := if s.cls = 1 && decide (0 < c.power.preview) && !bit f.flags 0 then fREDUCED else 0
  f.flags ||| e ||| cut

/-- Pegs that a 64-byte peg record covers (R258). -/
def covers_ (f : Frame) : Nat := if bit f.flags 9 then max 1 f.lines else 1

/-- The peg has been issued: the frame and its storage go (R289), and an old placement may have ended (R209). -/
def pegIssued (c : Chip) (sid seq : Nat) : Chip :=
  match c.stream? sid with
  | none => c
  | some s =>
    let before := s.frames.takeWhile fun f => !(f.phase == .pegged && f.seq == seq)
    let after := (s.frames.dropWhile fun f => !(f.phase == .pegged && f.seq == seq)).drop 1
    ((c.setStream sid { s with frames := before ++ after }).traceOpen 3 3).settle_ sid

/-- IRQ_HALF and IRQ_FULL (R276): a point lies past running offset `a` and not past `b`. -/
def passes (g : RingCfg) (a b : Nat) : Bool :=
  let size := 2 ^ g.dataLog2
  (bit g.flags 0 && decide ((a + size / 2) / size < (b + size / 2) / size)) || (bit g.flags 1 && decide (a / size < b / size))

/-- The peg of a frame goes to its ring (R257, R259, R274): it waits as class U, and the frame is kept until it is
issued. Its start is `start` (R328); `point`: a point of R276 that waits for it has been passed. Where the function's port is
not in SERVICE it is discarded and counted (R335), and the frame goes with it. -/
def givePeg (c : Chip) (p i sid : Nat) (f : Frame) (loc : Nat) (leased : Bool) (start : Nat) (point : Bool) : Chip :=
  let w := c.wch p i
  match w.cfg, w.fn, c.stream? sid with
  | some g, some fn, some s =>
    let fl := c.pegFlags s f ||| (if leased then fLEASED else 0)
    let lost := bit fl 0
    let inter := decide (1 < f.count) && f.piped && !(bit (u8 (c.setOf s.port f.set) 5) 1)
    let sh := pegShape f inter
    let b :=
      if lost then pegBytes f sid fl i loc 0 0 (if bit fl 9 then f.lines else 0) (if bit fl 9 then 0 else f.lines) 0
      else pegBytes f sid fl i loc sh.1 sh.2.1 sh.2.2 f.bytes.length (crc32c f.bytes)
    let vecs := (if point then [g.vector] else []) ++ if bit g.flags 2 then [g.vector] else []
    let c := c.setStream sid
      { s with pegEpoch := if laterEpoch s.pegEpoch f.epoch then f.epoch else s.pegEpoch,
               frames := s.frames.map fun x => if f.same x then { x with phase := .pegged, flags := fl } else x }
    let live := c.fnLive fn
    let c := if live then c.setWch p i { w with pegs := (w.pegs + 1) % 2 ^ 32 } else c
    let c := c.sendU fn (.peg sid i f.seq) (g.pegBase + 64 * (w.pegs % 2 ^ g.pegLog2)) b start vecs
    let c := if live then c else c.pegIssued sid f.seq
    let c := if lost then c else c.count (0x900 + sid) 1
    c.foldCheck p i
  | _, _, _ => c

/-- A peg with its flags changed, and PEG_CRC computed last (R259). -/
def flagPeg (b : List Byte) (fl : Nat) : List Byte :=
  let b := b.take 2 ++ le 2 fl ++ (b.drop 4).take 56
  b ++ le 4 (crc32c b)

/-- A peg becomes visible (R252, R253): STALE where the frame's freshness has run out, the lease starts, and the monitor
compares a covered peg (R436, R438). -/
def pegOut (c : Chip) (t : Tlp) : Chip × Tlp :=
  match t.kind with
  | .peg sid _ seq =>
    match (c.stream? sid).bind fun s => (s.frames.find? fun f => f.phase == .pegged && f.seq == seq).map fun f => (s, f) with
    | none => (c, t)
    | some (s, f) =>
      let stale := f.eofT != 0 && decide (f.eofT + s.fresh * 1000000 < c.t64)
      let unseen := stale && c.safety.wrong.stale && c.coversStream 0 s
      let torn := c.safety.wrong.tag && c.coversStream 1 s
      let fl := f.flags ||| (if stale && !unseen then fSTALE else 0)
      let b := flagPeg t.data fl
      let c := match f.lease with
        | some (k, _) => c.setLease f.place.fn k
            { c.lease f.place.fn k with state := .active, deadline := c.t64 + s.leaseMs * 1000000 }
        | none => c
      let c := if stale && !unseen && c.coversStream 0 s then c.detect 0 0x0105 sid else c
      let c := if unseen then c.detect 0 0x0106 sid else c
      let c := if torn then c.detect 1 0x0201 sid else c
      (c, { t with data := if torn then spoilCrc b else b })
  | _ => (c, t)

/-- The LOST peg of the frame at the head (R252, R271). -/
def lostPeg (c : Chip) (p i sid : Nat) (f : Frame) : Chip :=
  let w := c.wch p i
  if pegFree w then
    let loc := match f.start, w.cfg with | some o, some g => o % 2 ^ g.dataLog2 | _, _ => 0
    let w := if w.state = .waitSpace then { w with state := .run } else w
    let point := match f.start, w.cfg with
      | some o, some g => passes g (o + f.issued) ((o + f.issued + 63) / 64 * 64)
      | _, _ => false
    (c.setWch p i w).givePeg p i sid f loc false f.endAt point
  else c.waitSpace p i

/-- The lowest free offset in a function's LEASE window for `n` bytes (R309). -/
def leasePlace (c : Chip) (fn n : Nat) : Option Nat :=
  match List.find? (fun (e : Nat × WindowSt) => e.2.kind == 1) (c.fn fn).windows with
  | none => none
  | some (_, win) =>
    let held := (List.range 64).filterMap fun i =>
      let l := c.lease fn i
      if l.state = .active || l.state = .taken then some (l.offset, l.offset + l.size) else none
    let starts := win.base :: held.map (·.2)
    let ok := fun o => decide (win.base ≤ o) && decide (o + n ≤ win.base + 2 ^ win.log2) &&
      held.all fun h => decide (o + n ≤ h.1) || decide (h.2 ≤ o)
    (starts.filter ok).min?

/-- A finished frame of a LEASE stream (R253): a slot of its function and a lease index, which take the place of its storage,
or LOST. The lease starts when its peg becomes visible. -/
def giveLease (c : Chip) (p i sid : Nat) (s : StreamSt) (f : Frame) : Chip :=
  let w := c.wch p i
  let fn := f.place.fn
  let n := (f.bytes.length + 2 ^ 21 - 1) / 2 ^ 21 * 2 ^ 21
  if !pegFree w then c.waitSpace p i
  else
    let idx := (List.range 64).find? fun k => (c.lease fn k).state != .active && (c.lease fn k).state != .taken
    let d := c.mapFrames sid f.same fun x => { x with stored := none, slots := 0, fsRuns := [] }
    match idx, (if n ≤ d.fsFree then c.leasePlace fn n else none) with
    | some k, some o =>
      let c := d.carry 2 0 f.bytes.length
      let l := c.lease fn k
      let g := (l.gen + 1) % 2 ^ 15
      let c := c.setLease fn k
        { state := .taken, lateRead := false, expired := false, stream := sid, gen := g, seq := f.seq, deadline := 0, offset := o, size := n, data := f.bytes, endAt := none }
      let c := c.mapFrames sid f.same fun x => { x with lease := some (k, o) }
      c.givePeg p i sid f (o + g * 64 + k) true c.up false
    | _, _ => c.noRoom sid f.same

/-- HALT reaches its boundary on a write channel (R285). -/
def haltWrite (c : Chip) (p i : Nat) : Chip :=
  let w := c.wch p i
  match c.stream? w.stream with
  | none => c
  | some s =>
    let c := c.setWch p i { w with state := .stopped, cause := 1, halting := false, issuing := false }
    c.stsWrite false p i (c.stsOfRing w 7 (nextSeq s) 0) false

/-- The next burst of the frame at the head of a channel (R240, R270, R271, R275, R276), in LATENCY mode one TLP (R338). A point
that the frame's last byte does not pass waits for its peg. -/
def burst (c : Chip) (p i sid : Nat) (s : StreamSt) (f : Frame) (g : RingCfg) (fn : Nat) : Chip :=
  let w := c.wch p i
  let h := c.host p
  let off := match f.start with | some o => o + f.issued | none => (w.wr + 63) / 64 * 64
  let n := min (if s.mode = 1 then 512 else 4096) (deliverable s f - f.issued)
  let room := fun e => decide ((e + 2 ^ 38 - 64 * w.rel) % 2 ^ 38 ≤ 2 ^ g.dataLog2)
  let cut := cutTlps g.dataBase g.dataLog2 (128 * 2 ^ h.mps) 4096 off n
  let cut := if s.mode = 1 then cut.take 1 else cut
  let ends := cut.scanl (fun (e : Nat) (t : Nat × Nat) => e + t.2) off
  let fits := ((cut.zip (ends.drop 1)).takeWhile fun t => room t.2)
  let sent := (fits.map (·.1.2)).foldl (· + ·) 0
  if n = 0 then c
  else if sent = 0 then c.waitSpace p i
  else
    let total := f.bytes.length
    let tlps := (fits.zip ends).map fun t =>
      let e := t.1.2
      let o := t.2
      let from_ := f.issued + (o - off)
      let last := f.phase == .finished && decide (f.issued + (e - off) = total)
      ({ cls := s.cls, fn := fn, kind := .payload sid i f.seq o last (e == off + sent), addr := t.1.1.1,
         data := (f.bytes.drop from_).take (e - o), size := (e - o) + 16, start := c.up,
         vecs := if passes g o (if last then e - 1 else e) then [g.vector] else [] } : Tlp)
    let c := c.setHost p (if s.cls = 1 then { h with qP := h.qP ++ tlps } else { h with qB := h.qB ++ tlps })
    let c := c.mapFrames sid f.same fun x =>
      { x with start := some (off - f.issued), issued := x.issued + sent }
    let c := c.setWch p i { w with wr := off + sent, state := .run }
    (c.count (0x700 + p * 256 + i) sent).carry 4 p sent

/-- After a burst: the stop mark (R275). -/
def markCheck (c : Chip) (p i sid : Nat) : Chip :=
  let w := c.wch p i
  match c.stream? sid, w.cfg with
  | some s, some g =>
    if w.state = .run && w.issuing && decide (queueSlots s ≤ g.stopMark) && !hasEnd s then
      c.setWch p i { w with state := .waitMark, issuing := false }
    else c
  | _, _ => c

/-- The start mark (R275): the channel starts issuing. -/
def issueStart (c : Chip) (p i : Nat) : Chip :=
  let w := c.wch p i
  match c.stream? w.stream, w.cfg with
  | some s, some g =>
    if (w.state = .run || w.state = .waitMark) && !w.issuing && (decide (g.startMark ≤ queueSlots s) || hasEnd s) then
      c.setWch p i { w with state := .run, issuing := true }
    else c
  | _, _ => c

/-- The frame at the head of a stream waits for its peg alone (R286, R312), which marks and ABORT do not hold back. -/
def pegDue (s : StreamSt) (fn i : Nat) (h : HostSt) (sid : Nat) : Option Frame :=
  (headFrame s).filter fun f => f.phase == .finished && f.start.isSome && f.issued == f.bytes.length && !f.place.seam &&
    f.place.fn == fn && f.place.chan == i && !s.lease && (queuedOf h sid).isEmpty

/-- The next work of a write channel that may issue: the LOST peg, the lease or the burst of the frame at its head. -/
def writeStep (c : Chip) (p i : Nat) : Chip :=
  let w := c.wch p i
  match w.fn, w.cfg, c.stream? w.stream with
  | some fn, some g, some s =>
    let sid := w.stream
    if !c.fnLive fn || !(w.state == .run || w.state == .waitSpace || (w.state == .waitMark && w.halting)) then c
    else
      match headFrame s with
      | none => if w.halting then c.haltWrite p i else c
      | some f =>
        if f.place.seam || f.place.fn != fn || f.place.chan != i then (if w.halting then c.haltWrite p i else c)
        else if w.halting && f.start.isNone then c.haltWrite p i
        else if f.phase = .lost then
          if f.start.isNone || (queuedOf (c.host p) sid).isEmpty then c.lostPeg p i sid f else c
        else if s.lease then (if f.phase = .finished then c.giveLease p i sid s f else c)
        else if f.phase = .judging || (!w.issuing && w.state != .waitSpace) then c
        else if f.phase = .finished && f.start.isSome && f.issued = f.bytes.length then c
        else if f.start.isNone && !pegFree w then c.waitSpace p i
        else c.burst p i sid s f g fn
  | _, _, _ => c

/-- The next work of a write channel: the peg that its last frame waits for, or what a channel that may issue does next; then the
stop mark (R275). -/
def writeNext (c : Chip) (p i : Nat) : Chip :=
  let w := c.wch p i
  let ready := w.running || (w.state == .stopped && w.cause == 2)
  let due := match w.fn, c.stream? w.stream with
    | some fn, some s => if ready && c.fnLive fn then pegDue s fn i (c.host p) w.stream else none
    | _, _ => none
  match due, w.cfg with
  | some f, some g =>
    let o := f.start.getD 0
    let e := o + f.issued
    (c.givePeg p i w.stream f (o % 2 ^ g.dataLog2) false f.endAt (passes g e ((e + 63) / 64 * 64))).markCheck p i w.stream
  | _, _ => (c.writeStep p i).markCheck p i w.stream

/-- The frame in progress on a write channel: begun and without its peg. -/
def cutFrame (s : StreamSt) (fn chan : Nat) : Option Frame :=
  s.frames.find? fun f => f.phase != .pegged && f.start.isSome && f.place.fn == fn && f.place.chan == chan && !f.place.seam

/-- The frame whose burst a freeze cuts (R290, R291): begun, with payload still to come. -/
def burstCut (s : StreamSt) (fn chan : Nat) : Option Frame :=
  s.frames.find? fun f => f.phase != .pegged && f.start.isSome && !f.gone && f.place.fn == fn && f.place.chan == chan &&
    !f.place.seam

/-- ABORT of a write channel (R286). -/
def abortWrite (c : Chip) (p i : Nat) : Chip :=
  let w := c.wch p i
  match w.fn, c.stream? w.stream with
  | some fn, some s =>
    let stop := fun (c : Chip) =>
      c.setWch p i { c.wch p i with state := .stopped, cause := 2, halting := false, issuing := false }
    match cutFrame s fn i with
    | some f =>
      if f.gone then
        let after := match (s.frames.filter fun x => x.phase != .pegged && x.phase != .judging).drop 1 with
          | x :: _ => x.seq | [] => s.seqNext
        (stop c).stsWrite false p i (c.stsOfRing w 3 after 0) true
      else
        let total := max (f.stored.getD 0) f.issued
        let c := c.loseFrames w.stream f.same 0
        let c := match (c.stream? w.stream).bind fun s => s.frames.find? fun x => x.seq == f.seq && x.phase == .lost with
          | some x => if (queuedOf (c.host p) w.stream).isEmpty then c.lostPeg p i w.stream x else c
          | none => c
        (stop c).stsWrite false p i (c.stsOfRing w 3 f.seq (total - f.issued)) true
    | none => (stop c).stsWrite false p i (c.stsOfRing w 3 (nextSeq s) 0) true
  | _, _ => c

/-- Requests on their way for a channel that has given them up: what they bring serves nobody. -/
def orphanReads (c : Chip) (p : Nat) (isRead : Bool) (i : Nat) : Chip :=
  let mine := fun (r : OutRead) => match r.who with
    | .desc b k _ => b == isRead && k == i
    | .data k _ => isRead && k == i
    | .gone => false
  let h := c.host p
  c.setHost p { h with reads := h.reads.map fun r => if mine r then { r with who := .gone } else r }

/-- A read channel stops after its transfer (R285, R287). -/
def stopRead (c : Chip) (p i : Nat) : Chip :=
  let w := c.rch p i
  if w.aborting then
    let drop := { w with state := .stopped, cause := 2, halting := false, aborting := false, xfer := none, fetched := [],
                         badFetch := [],
                         head := match w.fetched with | (n, _) :: _ => n | [] => w.head }
    let drop := { drop with asked := drop.head }
    let c := (c.orphanReads p true i).setRch p i drop
    match w.xfer with
    | some x => c.stsWrite true p i (c.stsOf 3 x.index x.tag 0 (x.length - x.got)) true
    | none => c.stsWrite true p i (c.stsOf 3 0 0 0 0) true
  else
    let c := c.setRch p i { w with state := .stopped, cause := 1, halting := false }
    c.stsWrite true p i (c.stsOf 7 w.last.1 w.last.2 0 0) false

/-- ABORT (R286, R287): a read channel takes the data of the requests that it has issued. -/
def abortChan (c : Chip) (isRead : Bool) (p i : Nat) : Chip :=
  let w := c.chan isRead p i
  if !w.running then c
  else if !isRead then c.abortWrite p i
  else
    let c := c.setRch p i { w with aborting := true }
    match w.xfer with
    | some x => if x.asked = x.got then c.stopRead p i else c
    | none => c.stopRead p i

/-- A transfer's target holds the range (R281). -/
def targetOk (c : Chip) (w : ChanSt) (x : Transfer) : Bool :=
  match c.stream? w.stream with
  | none => false
  | some s =>
    if x.kind = 1 then
      match c.store.tables.find? x.handle with
      | some t => !t.sealed && t.port == s.port && decide (x.offset + x.length ≤ t.size)
      | none => false
    else if x.kind = 2 then
      c.panel.tiles.any fun e => e.2.stream == w.stream && e.2.enabled &&
        (match e.2.overlay with | some o => o.handle == x.handle && decide (x.offset + x.length ≤ 4 * o.w * o.h) | none => false)
    else false

/-- Bytes put at an offset of a buffer; beyond the list it reads 0. -/
def patchBytes (l : List Byte) (o : Nat) (b : List Byte) : List Byte :=
  (l ++ List.replicate (o - l.length) 0).take o ++ b ++ l.drop (o + b.length)

/-- An OVERLAY transfer is DONE (R424): its bytes are shown from the next panel frame start. -/
def overlayDone (c : Chip) (x : Transfer) (data : List Byte) : Chip :=
  if x.kind != 2 then c
  else
    { c with panel.tiles := c.panel.tiles.map fun (e : Nat × TileSt) =>
        match e.2.overlay with
        | some o => if o.handle = x.handle then (e.1, { e.2 with overlay := some { o with ready := patchBytes o.ready x.offset data } })
                    else e
        | none => e }

/-- A transfer ends (R281, R284), and a HALT with it (R285). -/
def endTransfer (c : Chip) (p i : Nat) (code : Nat) : Chip :=
  let w := c.rch p i
  match w.xfer with
  | none => c
  | some x =>
    let c := c.setRch p i { w with xfer := none }
    let c := c.stsWrite true p i (c.stsOf code x.index x.tag 0 (x.length - x.got)) (code != 2 || x.irq)
    if w.halting && !w.aborting then c.stopRead p i else c

/-- The largest payload of a stream's frame fits a data ring (R272): with more than one exposure that of a set without MERGE
(R190); a LEASE stream puts none there (log 27). -/
def ringHolds (s : StreamSt) (g : RingCfg) : Bool :=
  let most := if s.place.placement = .passBy then streamOut s true else fFold s.fold s.out s.w s.h (max 1 s.e)
  s.lease || decide (most ≤ 2 ^ g.dataLog2)

/-- What stands in a configuration descriptor (R268). -/
def cfgOf (b : List Byte) (index : Nat) : RingCfg :=
  { dataBase := u64 b 8, dataLog2 := u8 b 4, pegBase := u64 b 16, pegLog2 := u8 b 5, stsBase := u64 b 24, stsLog2 := u8 b 6,
    startMark := u16 b 32, stopMark := u16 b 34, vector := u16 b 2, flags := u8 b 1, tag := u32 b 36, index := index }

/-- The transfer of a TRANSFER descriptor (R268). -/
def transferOf (n : Nat) (b : List Byte) : Transfer :=
  { tag := u32 b 36, src := u64 b 8, length := u32 b 16, kind := u8 b 4, handle := u32 b 24, offset := u32 b 28,
    irq := bit (u8 b 1) 3, index := n, asked := 0, got := 0, failed := false }

/-- The checks of R269 on a configuration descriptor. -/
def cfgOk (c : Chip) (isRead : Bool) (w : ChanSt) (g : RingCfg) : Bool :=
  let fn := w.fn.getD 0
  let common := g.stsBase % 4096 == 0 && decide (4 ≤ g.stsLog2) && decide (g.stsLog2 ≤ 12) && decide (g.vector < c.vectors fn)
  if isRead then common
  else common && g.dataBase % 4096 == 0 && g.pegBase % 4096 == 0 && decide (12 ≤ g.dataLog2) && decide (g.dataLog2 ≤ 36) &&
    decide (6 ≤ g.pegLog2) && decide (g.pegLog2 ≤ 20) && decide (1 ≤ g.startMark) && decide (g.startMark ≤ 1024) &&
    decide (g.stopMark < g.startMark) && (match c.stream? w.stream with | some s => ringHolds s g | none => true)

/-- A descriptor ends BAD_DESC (R267, R269, R284). -/
def badDesc (c : Chip) (isRead : Bool) (p i index tag : Nat) (config : Bool) : Chip :=
  let w := c.chan isRead p i
  let c := if config then c.setChan isRead p i { w with cause := 4 } else c
  c.stsWrite isRead p i (c.stsOf 5 index tag 0 0) true

/-- Executes the oldest fetched descriptor of a channel, if its state lets it (R267 to R269, R281, R284). -/
def descExec (c : Chip) (isRead : Bool) (p i : Nat) : Chip :=
  let w := c.chan isRead p i
  match w.fetched with
  | [] => c
  | (n, b) :: rest =>
    let op := u8 b 0
    let tag := u32 b 36
    let c0 := c.setChan isRead p i { w with fetched := rest, last := (n % 2 ^ 32, tag) }
    if isRead && w.xfer.isSome then c
    else if op = 0 then c0
    else if op = (if isRead then 2 else 1) then
      let g := cfgOf b n
      if cfgOk c isRead w g then
        let seq := match c.stream? w.stream with | some s => if isRead then 0 else nextSeq s | none => 0
        let v := c0.chan isRead p i
        let c1 := c0.setChan isRead p i
          { v with cfg := some g, wr := 0, rel := 0, pegs := 0, pegRel := 0, recNext := 0, state := .stopped,
                   issuing := false, halting := false }
        c1.stsWrite isRead p i (c.stsOf 1 n tag seq 0) false
      else c0.badDesc isRead p i n tag true
    else if isRead && op = 3 then
      if w.state != .run then c
      else
        let x := transferOf n b
        if x.length < 4 || 16777216 < x.length || x.length % 4 != 0 || x.src % 4 != 0 then c0.badDesc true p i n tag false
        else
          let c1 := c0.setRch p i { c0.rch p i with xfer := some x }
          if w.badFetch.contains n then c1.endTransfer p i 6 else c1
    else c0.badDesc isRead p i n tag false

/-- A channel may fetch a descriptor now (R267). -/
def wantsDesc (isRead : Bool) (w : ChanSt) : Bool :=
  w.fn.isSome && w.asked != w.tail &&
    (if isRead then (w.state == .idle || (w.state == .run && !w.halting)) &&
        decide (w.fetched.length + (w.asked + 2 ^ 32 - w.head) % 2 ^ 32 < 4)
     else w.state == .idle || w.state == .stopped)

/-- The next tag not in use (R299): one whose request a completion timeout has ended may still be answered (R288). -/
def freeTag (h : HostSt) : Option Nat :=
  let m := if h.flit then 2 ^ 14 else 2 ^ 10
  let used := h.reads.map (·.tag) ++ h.lateTags
  ((List.range m).map fun k => (h.nextTag + k) % m).find? fun t => !used.contains t

/-- Issues a memory read (R263, R314). -/
def issueRead (c : Chip) (p fn addr len : Nat) (who : ReadFor) : Chip :=
  let h := c.host p
  let t := (freeTag h).getD h.nextTag
  let r : OutRead := { tag := t, who := who, len := len, data := none }
  let tlp : Tlp := { cls := 3, fn := fn, kind := .read t, addr := addr, data := [], size := 16, start := c.up, vecs := [] }
  c.setHost p { h with reads := h.reads ++ [r], qM := h.qM ++ [tlp], nextTag := (t + 1) % (if h.flit then 2 ^ 14 else 2 ^ 10) }

/-- Bytes of the next request of a channel's transfer (R281); 0 where none is to come. -/
def nextRead (c : Chip) (w : ChanSt) : Nat :=
  match w.xfer with
  | some x =>
    if w.state != .run || w.aborting || x.failed then 0
    else min (min 512 (128 * 2 ^ (c.fn (w.fn.getD 0)).mrrs)) (min (x.length - x.asked) (4096 - (x.src + x.asked) % 4096))
  | none => 0

/-- Bytes that a read channel may still ask in the present 1 ms (R282): its rate, and its share of what is unreserved, which the
channels with requests waiting have in equal parts. -/
def readBudget (c : Chip) (p : Nat) (w : ChanSt) : Nat :=
  let spare := (c.capacity 5 p - c.admitted 5 p) / scale
  let busy := ((List.range 64).filter fun k => c.nextRead (c.rch p k) != 0).length
  (w.rate + spare / max 1 busy) * 1000 - w.spent

/-- What a channel would ask next: of slots 0 to 255 write channels, from 256 on read channels. -/
def wantsRead (c : Chip) (p k : Nat) : Bool :=
  let isRead := decide (256 ≤ k)
  let w := c.chan isRead p (if isRead then k - 256 else k)
  match w.fn with
  | none => false
  | some fn =>
    c.fnLive fn && (wantsDesc isRead w ||
      (isRead && c.nextRead w != 0 && decide (c.nextRead w ≤ c.readBudget p w)))

/-- Data of a transfer waits for a request that its rate or the outstanding requests hold back (R30, R282). -/
def rxWaits (c : Chip) (p : Nat) : Bool :=
  (List.range 64).any fun i =>
    let w := c.rch p i
    c.nextRead w != 0 && (decide (64 ≤ (c.host p).reads.length) || decide (c.readBudget p w < c.nextRead w))

/-- One read request of a port, round robin (R263, R267, R281, R282). -/
def readNext (c : Chip) (p : Nat) : Chip :=
  let h := c.host p
  let c := if c.rxWaits p then c.waits 5 p else c
  if 64 ≤ h.reads.length || (freeTag h).isNone then c
  else
    match ((List.range 320).map fun n => (h.rrRead + n) % 320).find? (c.wantsRead p) with
    | none => c
    | some k =>
      let isRead := decide (256 ≤ k)
      let i := if isRead then k - 256 else k
      let w := c.chan isRead p i
      let fn := w.fn.getD 0
      let c := c.setHost p { h with rrRead := (k + 1) % 320 }
      if wantsDesc isRead w then
        (c.setChan isRead p i { w with asked := (w.asked + 1) % 2 ^ 32 }).issueRead p fn
          (w.descBase + 64 * (w.asked % 2 ^ w.descLog2)) 64 (.desc isRead i w.asked)
      else
        match w.xfer with
        | none => c
        | some x =>
          if !c.targetOk w x then
            if x.asked = x.got then c.endTransfer p i 6
            else c.setRch p i { w with xfer := some { x with failed := true } }
          else
            let a := x.src + x.asked
            let n := c.nextRead w
            let c := c.setRch p i { w with xfer := some { x with asked := x.asked + n }, spent := w.spent + n }
            (c.issueRead p fn a n (.data i n)).carry 5 p n

/-- The Basket window of a port (R263): slots that hold bytes its engines issue, of the streams that go to it, and the class M
slots that `n` bytes of read data take on their way from the prefetch buffer to their target. -/
def basketWindow (c : Chip) (p n : Nat) : Nat :=
  ((c.store.streams.map fun e => ((e.2.frames.filter fun f => !f.place.seam && f.place.fn / 128 == p).map
    Frame.slotsHeld).foldl (· + ·) 0).foldl (· + ·) 0) + chunksOf n

end Chip

/-- Data of a completed request goes on (R263, R281): a descriptor to its channel, data through class M slots, which it holds
for no time of the model (log 81), to the transfer's target. -/
def takeData (d : Dev) (p : Nat) (r : OutRead) (data : List Byte) : Dev :=
  match r.who with
  | .gone => d
  | .desc isRead i n =>
    d.onChip fun c =>
      let w := c.chan isRead p i
      let bad := isRead && u8 data 0 == 3 && !c.targetOk w (Chip.transferOf n data)
      c.setChan isRead p i
        { w with fetched := w.fetched ++ [(n, data.take 64)], head := (n + 1) % 2 ^ 32,
                 badFetch := w.badFetch.filter (· != n) ++ if bad then [n] else [] }
  | .data i n =>
    let c := d.chip
    let w := c.rch p i
    match w.xfer with
    | none => d
    | some x =>
      let base := if x.kind = 1 then tableBase x.handle else overlayBase x.handle
      let mem := if c.targetOk w x then d.mem.writeBytes (base + x.offset + x.got) (data.take n) else d.mem
      let got := x.got + n
      let c := c.setRch p i { w with xfer := some { x with got := got } }
      let c :=
        if w.aborting then (if got = x.asked then c.stopRead p i else c)
        else if x.failed then (if got = x.asked then c.endTransfer p i 6 else c)
        else if x.length ≤ got then
          let ok := c.targetOk w x
          (if ok then c.overlayDone x (mem.readBytes (base + x.offset) x.length) else c).endTransfer p i (if ok then 2 else 6)
        else c
      { d with chip := c, mem := mem }

/-- Completed requests leave the prefetch buffer in the order of their requests (R263). -/
def drainReads (p : Nat) : Nat → Dev → Dev
  | 0, d => d
  | n + 1, d =>
    let h := d.chip.host p
    match h.reads with
    | [] => d
    | r :: rest =>
      match r.data with
      | some b =>
        if r.len ≤ b.length then
          drainReads p n (takeData (d.onChip fun c => c.setHost p { h with reads := rest }) p r (b.take r.len))
        else d
      | none => d

namespace Chip

/-- Failover of a protected stream from the port of its primary (R290, R324): where the alternate does not run, the
stream keeps its frames and switches at the alternate's next ARM, if the primary is not armed before. `cut`: at a freeze every frame whose peg was not issued starts again, else those not begun. -/
def failover (c : Chip) (sid : Nat) (cut : Bool) : Chip :=
  match c.stream? sid with
  | none => c
  | some s =>
    let p := s.place.fn / 128
    let alt := c.wch (s.place.altFn / 128) s.place.chan
    if !s.prot || s.place.seam then c
    else if alt.fn != some s.place.altFn || alt.stream != sid || !alt.running ||
        (c.host (s.place.altFn / 128)).state != .service then c.setStream sid { s with failing := some cut }
    else
      let pl := { s.place with fn := s.place.altFn, altFn := s.place.fn }
      let c := if cut then c.mapFrames sid (fun f => f.phase != .lost) fun f => { f with start := none, issued := 0, left := 0 } else c
      let c := c.migrate sid pl s.resv fun f => cut || (f.start.isNone && f.issued == 0)
      let c := c.mapFrames sid (fun f => cut && f.phase == .lost) fun f => { f with place := pl, start := none, issued := 0, left := 0, lines := if bit f.flags 9 then f.lines else 0 }
      let c := match c.stream? sid with | some t => c.setStream sid { t with onAlt := !t.onAlt, failing := none } | none => c
      let w := c.wch p pl.chan
      let c := (c.setWch p pl.chan { w with alternate := true }).setWch (1 - p) pl.chan
        { c.wch (1 - p) pl.chan with alternate := false }
      let h := c.host p
      let c := (c.setHost p { h with failovers := sat 16 (h.failovers + 1) }).count (0xD00 + 64 * p + 7) 1
      c.foldC (c.portFns p) fun c f => c.setFn f { c.fn f with hpFlags := setBit (c.fn f).hpFlags 3 }

/-- OVER of a port's HOST_TX (R28, R324): the capacity fell below the reservations. -/
def hostFell (c : Chip) (p : Nat) : Chip :=
  let past := decide (c.capacity 4 p < c.admitted 4 p)
  let c := (c.capacityFell 4 p).capacityFell 5 p
  if past then
    c.foldC ((c.store.streams.filter fun e => e.2.prot && !e.2.place.seam && e.2.place.fn / 128 == p).map (·.1)) fun c sid =>
      c.failover sid false
  else c

/-- ARM of a write channel (R285, R291, R316, R324). -/
def armWrite (c : Chip) (p i : Nat) : Chip :=
  let c := c.foldC (List.range (c.wch p i).fetched.length) fun c _ => if (c.wch p i).state = .stopped then c.descExec false p i else c
  let w := c.wch p i
  if w.state != .stopped then c
  else
    let c := c.setWch p i { w with state := .run, issuing := false, halting := false, held := none, owed := [] }
    let c := match w.held with
      | some r => c.stsWrite false p i r true
      | none => c
    let c := match w.cfg, w.fn with
      | some g, some fn => c.foldC w.owed fun c o =>
          let v := c.wch p i
          let b := o.bytes ++ le 1 i ++ le 6 0 ++ le 4 0
          (c.setWch p i { v with pegs := (v.pegs + 1) % 2 ^ 32 }).sendU fn (.peg 512 i 0)
            (g.pegBase + 64 * (v.pegs % 2 ^ g.pegLog2)) (b ++ le 4 (crc32c b)) o.start []
      | _, _ => c
    match c.stream? w.stream with
    | some s =>
      if !w.alternate then (if s.failing.isSome then c.setStream w.stream { s with failing := none } else c)
      else if s.failing.isSome then c.failover w.stream (s.failing == some true)
      else c
    | none => c

/-- ARM of a read channel (R285, R291). -/
def armRead (c : Chip) (p i : Nat) : Chip :=
  let c := c.foldC (List.range (c.rch p i).fetched.length) fun c _ => if (c.rch p i).state = .stopped then c.descExec true p i else c
  let w := c.rch p i
  if w.state != .stopped then c
  else
    let c := c.setRch p i { w with state := .run, halting := false, held := none }
    match w.held with
    | some r => c.stsWrite true p i r true
    | none => c

/-- Every data ring in force on the channels of a stream under a placement holds its largest payload (R272). -/
def ringsHold (c : Chip) (sid : Nat) (s : StreamSt) (pl : Place) : Bool :=
  (chansOf s.prot pl).all fun k =>
    let w := c.wch (k.1 / 128) k.2.1
    match w.cfg with
    | some g => w.fn != some k.1 || w.stream != sid || ringHolds { s with place := pl } g
    | none => true

/-- Data or a peg could leave a write channel now (R271). -/
def hasSpace (c : Chip) (p i : Nat) : Bool :=
  let w := c.wch p i
  match w.cfg, (c.stream? w.stream).bind headFrame with
  | some g, some f =>
    if f.phase = .lost then pegFree w
    else
      let off := match f.start with | some o => o + f.issued | none => (w.wr + 63) / 64 * 64
      let n := min (128 * 2 ^ (c.host p).mps) (f.bytes.length - f.issued)
      let first := (cutTlps g.dataBase g.dataLog2 (128 * 2 ^ (c.host p).mps) 1 off n).headD (0, 0)
      (f.start.isSome || pegFree w) && decide ((off + first.2 + 2 ^ 38 - 64 * w.rel) % 2 ^ 38 ≤ 2 ^ g.dataLog2)
  | _, _ => true

/-- A trace record for each channel whose state `f` changes (R506). -/
def dmaTraced (c : Chip) (f : Chip → Chip) : Chip :=
  let d := f c
  let n := (d.hosts.wch.filter fun e => e.2.state != (c.hosts.wch.getD ChanSt.reset e.1).state).length +
    (d.hosts.rch.filter fun e => e.2.state != (c.hosts.rch.getD ChanSt.reset e.1).state).length
  d.foldC (List.range n) fun c k => c.traceOpen 5 k

end Chip

end Sys2Proof.Machine
end

