-- ==== Sys2Proof/Machine/Arbiter.lean ====
section
/-! DEFINITION. The issue arbiter of a host port (R311, R312, R326 to R329, R332 to R337). -/

namespace Sys2Proof.Machine

/-- Bytes that a class credit and a function credit hold at most, × 2¹⁶ (R327, R337). -/
def creditCap : Nat := 16384 * 65536

/-- MB/s per lane × lanes as negotiated; a port never trained counts as x16 at 128 GT/s (R21). -/
def portRate_ (h : HostSt) : Nat := gtLane h.rate * (if h.rate = 0 then 16 else max 1 h.width)

/-- Time that `n` bytes take on a port's link, 2⁻¹⁶ ns (R326). -/
def txTime (h : HostSt) (n : Nat) : Nat := n * 65536 * 230000 / (240 * portRate_ h)

/-- T_U of a port with `f` functions enabled, ns, rounded down as the examples of the rule are (R332). -/
def boundU (h : HostSt) (f : Nat) : Nat := 610 + (2576 + 5120 * f) * 230000 / (240 * portRate_ h)

/-- The queue of a class: 1 P, 2 B, 3 M. -/
def classQ (h : HostSt) (k : Nat) : List Tlp := if k = 1 then h.qP else if k = 2 then h.qB else h.qM

def setClassQ (h : HostSt) (k : Nat) (q : List Tlp) : HostSt :=
  if k = 1 then { h with qP := q } else if k = 2 then { h with qB := q } else { h with qM := q }

/-- The write channel of a payload TLP. -/
def Tlp.chan (t : Tlp) : Option Nat := match t.kind with | .payload _ i .. => some i | _ => none

/-- It is the last of its burst. -/
def Tlp.burstEnds (t : Tlp) : Bool := match t.kind with | .payload _ _ _ _ _ e => e | _ => true

/-- TLPs of a function and channel. -/
def Tlp.like (t x : Tlp) : Bool := x.fn == t.fn && x.chan == t.chan

/-- The queue without the first TLP of the function and channel of `t`. -/
def dropFirst (q : List Tlp) (t : Tlp) : List Tlp :=
  q.takeWhile (!t.like ·) ++ (q.dropWhile (!t.like ·)).drop 1

def qosOf (h : HostSt) (f k : Nat) : Qos := h.qos.getD Qos.reset (f * 4 + k)
def setQos (h : HostSt) (f k : Nat) (o : Qos) : HostSt := { h with qos := h.qos.put (f * 4 + k) o }

/-- The next TLP of each channel of function `f` that waits in a class, in ascending channel number. -/
def chanHeads (h : HostSt) (f k : Nat) : List (Nat × Tlp) :=
  let q := (classQ h k).filter (·.fn == f)
  ((q.filterMap Tlp.chan).eraseDups.mergeSort).filterMap fun i => (q.find? (·.chan == some i)).map fun t => (i, t)

/-- A TLP leaves on its stream's own reservation (R337). -/
def ownCredit (o : Qos) (i : Nat) (t : Tlp) : Bool := decide (t.size * 65536 ≤ o.streams.getD 0 i)

/-- The TLP of a function that goes next (R337): each stream first up to its own reservation, then the channel whose burst is
under way, then the next in ascending number. -/
def pickChan (h : HostSt) (f k : Nat) : Option Tlp :=
  let o := qosOf h f k
  let l := chanHeads h f k
  match l.find? fun e => ownCredit o e.1 e.2 with
  | some e => some e.2
  | none =>
    match (if o.chanTurn.2 then l.find? (·.1 == o.chanTurn.1) else none) with
    | some e => some e.2
    | none =>
      match l.find? fun e => decide (o.chanTurn.1 < e.1) with
      | some e => some e.2
      | none => l.head?.map (·.2)

/-- The account of the stream whose TLP leaves (R337). -/
def chargeChan (o : Qos) (t : Tlp) : Qos :=
  match t.chan with
  | none => o
  | some i =>
    if ownCredit o i t then { o with streams := o.streams.put i (o.streams.getD 0 i - t.size * 65536) }
    else { o with chanTurn := (i, !t.burstEnds) }

/-- Functions that wait in a class, in ascending order, each with its next TLP; one whose token bucket does not hold it is
passed over (R337). -/
def candidates (h : HostSt) (p k : Nat) : List (Nat × Tlp) :=
  (List.range 64).filterMap fun n =>
    let f := p * 128 + n
    match pickChan h f k with
    | some t =>
      let o := qosOf h f k
      if o.cap = 0 || decide (t.size * 65536 ≤ o.bucket) then some (f, t) else none
    | none => none

/-- The deficit round robin over functions (R337): a function that the turn reaches gains its quantum. -/
def drr (k : Nat) : List (Nat × Tlp) → HostSt → Option (HostSt × Tlp)
  | [], _ => none
  | (f, t) :: rest, h =>
    let o := qosOf h f k
    let o := { o with deficit := o.deficit + o.weight * 512 }
    if t.size ≤ o.deficit then
      some ({ setQos h f k { o with deficit := o.deficit - t.size } with
                rrFn := if k = 1 then [f, h.rrFn.getD 1 0] else [h.rrFn.getD 0 0, f] }, t)
    else drr k rest (setQos h f k o)

/-- The TLP of a class that goes next, with its function's account charged (R337); class M in order of arrival. -/
def pickFn (h : HostSt) (p k : Nat) : Option (HostSt × Tlp) :=
  if k = 3 then h.qM.head?.map fun t => (h, t)
  else
    let l := candidates h p k
    match l.find? fun e => decide (e.2.size * 65536 ≤ (qosOf h e.1 k).credit) with
    | some (f, t) =>
      let o := qosOf h f k
      some (setQos h f k { o with credit := o.credit - t.size * 65536 }, t)
    | none =>
      let cur := h.rrFn.getD (k - 1) 0
      match l.find? fun e => e.1 == cur && decide (e.2.size ≤ (qosOf h e.1 k).deficit) with
      | some (f, t) =>
        let o := qosOf h f k
        some (setQos h f k { o with deficit := o.deficit - t.size }, t)
      | none =>
        let turn := l.filter (fun e => decide (cur < e.1)) ++ l.filter fun e => decide (e.1 ≤ cur)
        drr k (turn ++ turn) h

/-- The chosen TLP of class `k` leaves its issue queue: the bucket of its function's cap is charged, its bytes count as
carried (R336, R337). -/
def takeOut (h : HostSt) (k : Nat) (t : Tlp) : HostSt :=
  if k = 3 then { h with qM := h.qM.drop 1, tx := h.tx ++ [t] }
  else
    let h := setClassQ h k (dropFirst (classQ h k) t)
    let o := chargeChan (qosOf h t.fn k) t
    let o := { o with bucket := o.bucket - t.size * 65536, carried := o.carried + t.data.length,
                      deficit := if (classQ h k).any (·.fn == t.fn) then o.deficit else 0 }
    { setQos h t.fn k o with tx := h.tx ++ [t] }

/-- The order of R327 among P, B and M. -/
def pickClass (h : HostSt) (p : Nat) : Option (HostSt × Tlp) :=
  let rich := [1, 2, 3].findSome? fun k =>
    match pickFn h p k with
    | some (g, t) =>
      if t.size * 65536 ≤ h.credits.getD (k - 1) 0 then
        some (takeOut { g with credits := g.credits.set (k - 1) (g.credits.getD (k - 1) 0 - t.size * 65536) } k t, t)
      else none
    | none => none
  match rich with
  | some r => some r
  | none =>
    ((List.range 3).map fun n => (h.turn - 1 + n) % 3 + 1).findSome? fun k =>
      (pickFn h p k).map fun r => (takeOut { r.1 with turn := k % 3 + 1 } k r.2, r.2)

namespace Chip

/-- HOST_TX reserved by a class on a port, in 10⁻⁹ MB/s; class M has 2,000 MB/s (R327). -/
def classRate (c : Chip) (p k : Nat) : Nat :=
  if k = 3 then 2000 * scale
  else ((c.store.streams.filter fun e => e.2.cls == k).map fun e => sumOf e.2.resv 4 p).foldl (· + ·) 0

/-- HOST_TX that the streams of a function and class reserve, by channel (R337). -/
def chanRates (c : Chip) (p f k : Nat) : List (Nat × Nat) :=
  (c.store.streams.filter fun e => e.2.cls == k && !e.2.place.seam && (e.2.place.fn == f || (e.2.prot && e.2.place.altFn == f))).map
    fun e => (e.2.place.chan, sumOf e.2.resv 4 p)

/-- Credits and buckets of a port grow up to the present instant (R327, R337). -/
def growCredits (c : Chip) (p : Nat) : Chip :=
  let h := c.host p
  let dt := c.up - h.creditAt
  let gain := fun (rate : Nat) => rate * dt / (1000 * scale)
  let credits := [1, 2, 3].map fun k => min creditCap (h.credits.getD (k - 1) 0 + gain (c.classRate p k))
  let grow := fun (h : HostSt) (f : Nat) => [1, 2].foldl (fun h k =>
    let o := qosOf h f k
    let r := c.fnReserved none f k
    let own := fun (t : Tab Nat) (e : Nat × Nat) => t.put e.1 (min creditCap (t.getD 0 e.1 + gain e.2))
    if r = 0 && o.cap = 0 then h
    else setQos h f k { o with credit := min creditCap (o.credit + gain r), streams := (c.chanRates p f k).foldl own o.streams,
                               bucket := min (65536 * 65536) (o.bucket + gain (o.cap * scale)) }) h
  c.setHost p { (c.portFns p).foldl grow h with credits := credits, creditAt := c.up }

/-- A class U record leaves the balls later than the bound allows (R334): it is counted under the first cause that
applies. -/
def overdueCheck (c : Chip) (p : Nat) (t : Tlp) (creditWait recovery : Bool) : Chip :=
  let h := c.host p
  let left := (h.tx.map (·.size)).foldl (· + ·) 0
  let done := c.up + (txTime h left - txTime h h.txDone / 65536)
  if done ≤ t.start + (boundU h (c.portFns p).length - 400) * 65536 + t.allow then c
  else
    let waiting := (h.qU ++ h.uWait ++ h.tx).filter (·.cls == 0)
    let many := (c.portFns p).any fun f => decide (64 < (waiting.filter (·.fn == f)).length)
    let k := if creditWait then 0 else if recovery then 1 else if many then 2 else 3
    (c.setHost p { h with overdue := h.overdue.set k (sat 32 (h.overdue.getD k 0 + 1)), overdueNew := true }).count
      (0xD00 + 64 * p + 9) 1

/-- The frame at the head of a stream that ABORT cut gets its LOST peg once its last TLP has gone (R286, R312). -/
def abortPeg (c : Chip) (p i sid : Nat) : Chip :=
  let w := c.wch p i
  match (c.stream? sid).bind headFrame with
  | some f =>
    if f.phase = .lost && f.start.isSome && w.state = .stopped && w.cause = 2 && w.stream = sid && pegFree w &&
        (queuedOf (c.host p) sid).isEmpty then c.lostPeg p i sid f
    else c
  | none => c

/-- What follows the entry of a TLP into the transmit queue: the peg of its frame, the end of its frame, and the interrupt
that signals it (R276, R289, R312). Its bytes count as carried by the port (R29); those of a payload do with its burst. -/
def entered (c : Chip) (p : Nat) (t : Tlp) : Chip :=
  let c := c.count (0xD00 + 64 * p + t.cls) t.size
  let c := match t.kind with | .payload .. => c | _ => c.carry 4 p t.data.length
  let irq := fun (c : Chip) => c.foldC t.vecs fun c v => c.msix t.fn v
  match t.kind with
  | .payload sid i q _ last _ =>
    let me := fun (f : Frame) => f.seq == q && f.start.isSome && f.phase != .pegged && f.phase != .judging
    let c := irq (c.mapFrames sid me fun f =>
      { f with left := f.left + t.data.length, endAt := if f.phase = .lost then f.endAt else c.up })
    let f? := if last then (c.stream? sid).bind fun s =>
        s.frames.find? fun f => f.seq == q && f.phase == .finished && f.issued == f.bytes.length else none
    let c := match f?, (c.wch p i).cfg with
      | some f, some g =>
        let o := f.start.getD 0
        let e := o + f.issued
        c.givePeg p i sid f (o % 2 ^ g.dataLog2) false c.up (passes g (e - 1) ((e + 63) / 64 * 64))
      | _, _ => c
    c.abortPeg p i sid
  | .peg sid _ q => irq (c.pegIssued sid q)
  | _ => irq c

/-- Bytes of a payload TLP's frame that its chunks have in the frame store, which its read takes (R29). -/
def storeRead (c : Chip) (t : Tlp) : Nat :=
  match t.kind with
  | .payload sid _ q .. =>
    match (c.stream? sid).bind fun s => s.frames.find? fun f => f.seq == q && f.start.isSome with
    | some f => if f.fsBelow (f.left / 4096 + 1) = f.fsBelow (f.left / 4096) then 0 else t.data.length
    | none => 0
  | _ => 0

/-- TLPs wait in the issue queues of a port (R30). -/
def txWaits (c : Chip) (p : Nat) : Bool :=
  let h := c.host p
  !(h.qU.isEmpty && h.qP.isEmpty && h.qB.isEmpty && h.qM.isEmpty)

/-- The next TLP of the issue arbiter (R312, R327): at most 2,048 bytes wait in the transmit queue behind the TLP that is
being transmitted. In EARLY only class U goes, which holds MSI-X messages alone then (R296). -/
def issueNext (c : Chip) (p : Nat) (creditWait recovery : Bool) : Chip :=
  let c := c.growCredits p
  let h := c.host p
  let waiting := ((h.tx.drop 1).map (·.size)).foldl (· + ·) 0
  if !(h.state == .service || h.state == .early) || decide (2048 < waiting) then c
  else
    match h.qU with
    | t :: rest =>
      let o := (c.setHost p (refillU { h with qU := rest })).pegOut t
      let c := o.1
      ((c.setHost p { c.host p with tx := (c.host p).tx ++ [o.2] }).overdueCheck p o.2 creditWait recovery).entered p o.2
    | [] =>
      if h.state = .early then c
      else match pickClass h p with
      | some (g, t) => (((c.setHost p g).carry 2 0 (c.storeRead t)).entered p t)
      | none => c

/-- One decision of the issue arbiter; what it leaves in the issue queues has waited (R30, R312). -/
def arbitrate (c : Chip) (p : Nat) (creditWait recovery : Bool) : Chip :=
  let c := c.issueNext p creditWait recovery
  if c.txWaits p then c.waits 4 p else c

end Chip

end Sys2Proof.Machine
end

