-- ==== Sys2Proof/Machine/Stream.lean ====
section
/-! DEFINITION. The stream commands (R208 to R210, R224, R225, R241 to R245, R261, R370, R410), leases' ends (R254), old
epochs (R209), and errors of the Basket and the frame store (R244, R250). -/

namespace Sys2Proof.Machine

/-- A stream lies in the scope of a function (R352): its destination, or its alternate. -/
def streamScope (c : Chip) (f sid : Nat) : Bool :=
  match c.stream? sid with
  | some s => !s.place.seam && (s.place.fn == f || (s.prot && s.place.altFn == f))
  | none => false

/-- The stream that STREAM.CREATE declares (R241, R370). -/
def parseStream (r : List Byte) : StreamSt :=
  let seam := u8 r 9 == 1
  let out := if r.length = 52 then OutSet.reset else parseOut (r.drop 52)
  { StreamSt.blank with
    cls := u8 r 2, port := u8 r 3, sub := u8 r 4,
    place := { placement := if u8 r 5 = 0 then .inLine else if u8 r 5 = 1 then .throughMemory else .passBy,
               pipe := if u8 r 5 = 2 then 0 else u8 r 6, seam := seam, fn := if seam then 0 else u8 r 10,
               chan := if seam then 0 else u8 r 11, altFn := if seam || u8 r 8 = 0 then 0 else u8 r 12,
               seamId := if seam then u16 r 14 else 0 },
    mode := u8 r 7, prot := u8 r 8 == 1, lease := u8 r 13 == 1, w := u16 r 16, h := u16 r 18, e := u8 r 20,
    priority := u8 r 21, window := if u8 r 22 = 0xFF then none else some (u8 r 22), f := u32 r 24, rIn := u32 r 28,
    rPk := u32 r 32, tB := u32 r 36, goal := u32 r 40, fresh := u16 r 44, leaseMs := u32 r 48, out := out }

/-- A destination and placement are valid values (R181, R241, R323, R407). -/
def placeOk (s : StreamSt) (pl : Place) : Bool :=
  decide (pl.pipe ≤ 15) && (pl.placement != .inLine || s.e == 1) &&
    (if pl.seam then decide (pl.seamId < 1024) && !s.lease
     else validFn pl.fn && decide (pl.chan ≤ 255) && (!s.prot || (validFn pl.altFn && pl.altFn / 128 != pl.fn / 128))) &&
    (s.port != 0xFE || (pl.placement == .passBy && !pl.seam && s.sub == 0))

/-- The declared values are in range (R241), and what the destination does not use is 0 (R370). -/
def createOk (r : List Byte) (s : StreamSt) : Bool :=
  decide (u16 r 0 ≤ 511) && (s.cls == 1 || s.cls == 2) && (decide (s.port ≤ 63) || s.port == 0xFE) && decide (s.sub ≤ 3) &&
    decide (u8 r 5 ≤ 2) && decide (s.mode ≤ 2) && (s.cls != 1 || s.mode != 2) && decide (u8 r 8 ≤ 1) && decide (u8 r 9 ≤ 1) &&
    decide (u8 r 13 ≤ 1) && decide (1 ≤ s.w) && decide (1 ≤ s.h) && decide (1 ≤ s.e) && decide (s.e ≤ 4) &&
    decide (s.priority ≤ 15) && (u8 r 22 == 0xFF || decide (u8 r 22 ≤ 15)) && decide (1 ≤ s.f) && decide (100 ≤ s.goal) &&
    decide (s.goal ≤ 1000000) && decide (1 ≤ s.fresh) && decide (s.fresh ≤ 1000) &&
    (!s.lease || (decide (1 ≤ s.leaseMs) && decide (s.leaseMs ≤ 10000))) && placeOk s s.place &&
    (if s.place.seam then u8 r 10 == 0 && u8 r 11 == 0 && u8 r 12 == 0 else u16 r 14 == 0)

/-- What R142, R181, R198 and R264 ask of the state for a new stream. -/
def createState (c : Chip) (sid : Nat) (s : StreamSt) : Bool :=
  (s.port == 0xFE || ((c.port s.port).configured && decide (ingress c s.port sid + s.rIn ≤ usable c s.port true))) &&
    !(s.place.placement == .inLine && (c.pipe s.place.pipe).inline.isSome) &&
    !(fmtClass s.out.format == 3 && noColour c s.port s.sub) && c.chansFree sid s.prot s.place &&
    (!s.place.seam || c.reachable s.place.seamId)

/-- STREAM.CREATE (R241, R370). -/
def cmdCreate : Cmd :=
  { opcode := 0x0401, roles := [2], size := fun r => r.length == 52 || (decide (52 < r.length) && outSize (r.drop 52)), stage := 3,
    cfg := fun r _ => some (u16 r 0),
    body := fun x r d =>
      let c := d.chip
      let sid := u16 r 0
      let s := parseStream r
      let new := c.demands s s.place
      let passBy := s.place.placement = .passBy
      if !createOk r s || (c.stream? sid).isSome || !outOk s.out s.mode passBy s.w s.h ||
          !outArgs (r.drop 52) || !levelCovers s.out s.w s.h s.f || !colourFits d s.port s.sub s.out s.w s.h ||
          (s.port != 0xFE && !capsOk c s.port s.sub s.w s.h s.e s.out.format) then .no stBADARG
      else if !createState c sid s || stopped c [] new then .no stBADSTATE
      else if s.out.press = 2 && s.cls = 2 then .no stLIMIT
      else
        match admitRes c x.mb sid s s.place [] new with
        | some e => e
        | none => .doR fun c =>
          let c := ((c.asked s.place).setStream sid { s with resv := new }).bindAll sid s.prot s.place
          ((c.slots_).replan, le 1 0 ++ le 1 0 ++ le 2 (basketSlots s.mode s.out s.w s.h)) }

def execStreamCreate (mb : Nat) (req : List Byte) (s : State) : Out :=
  s.onDevIf (validMb mb) (tilpo cmdCreate mb req)

/-- STREAM.DESTROY (R242, R254, R370). -/
def cmdDestroy : Cmd :=
  { opcode := 0x0402, roles := [2], size := fun r => r.length == 2, stage := 3,
    uncfg := fun r => [0x0401, 0x0405, 0x0406, 0x0409, 0x0420].map fun o => (o, u16 r 0),
    body := fun _ r d =>
      let sid := u16 r 0
      if 511 < sid then .no stBADARG
      else match d.chip.stream? sid with
      | none => .no stBADSTATE
      | some s =>
        if s.started || !s.frames.isEmpty then .no stBADSTATE
        else .doC fun c =>
          let c := c.freeAll sid s.prot s.place []
          let c := match s.old with | some o => c.freeAll sid s.prot o.place [] | none => c
          let c := c.foldC (c.store.leases.map (·.1)) fun c k =>
            if (c.lease (k / 64) (k % 64)).stream = sid then c.endLease (k / 64) (k % 64) false else c
          let c := { c with store.streams := c.store.streams.drop sid, seam.landings := c.seam.landings.drop sid }
          (c.slots_).replan }

def execStreamDestroy (mb : Nat) (req : List Byte) (s : State) : Out :=
  s.onDevIf (validMb mb) (tilpo cmdDestroy mb req)

/-- STREAM.START (R242, R407, R465). -/
def cmdStart : Cmd :=
  { opcode := 0x0403, roles := [2, 3], size := fun r => r.length == 2, stage := 3,
    scope := fun c f r => streamScope c f (u16 r 0),
    body := fun _ r d =>
      let sid := u16 r 0
      if 511 < sid then .no stBADARG
      else match d.chip.stream? sid with
      | none => .no stBADSTATE
      | some s =>
        if s.started || (s.port != 0xFE && decide (usable d.chip s.port false < s.rIn)) then .no stBADSTATE
        else .doC fun c =>
          { c.setStream sid { s.noted c.time.tb with started := true } with seam.landings := c.seam.landings.drop sid } }

def execStreamStart (mb : Nat) (req : List Byte) (s : State) : Out :=
  s.onDevIf (validMb mb) (tilpo cmdStart mb req)

/-- STREAM.STOP (R242). -/
def cmdStop : Cmd :=
  { opcode := 0x0404, roles := [2, 3], size := fun r => r.length == 2, stage := 3,
    scope := fun c f r => streamScope c f (u16 r 0),
    body := fun _ r d =>
      let sid := u16 r 0
      if 511 < sid then .no stBADARG
      else match d.chip.stream? sid with
      | none => .no stBADSTATE
      | some s => if !s.started then .no stBADSTATE else .doC fun c => c.setStream sid { s.noted c.time.tb with started := false } }

def execStreamStop (mb : Nat) (req : List Byte) (s : State) : Out :=
  s.onDevIf (validMb mb) (tilpo cmdStop mb req)

/-- STREAM.SET_OUTPUT (R224, R225, R369, R370): frames accepted before keep their settings. -/
def cmdSetOutput : Cmd :=
  { opcode := 0x0405, roles := [2, 3], size := fun r => decide (2 ≤ r.length) && outSize (r.drop 2), stage := 3,
    scope := fun c f r => streamScope c f (u16 r 0), cfg := fun r _ => some (u16 r 0),
    body := fun x r d =>
      let c := d.chip
      let sid := u16 r 0
      let o := parseOut (r.drop 2)
      if 511 < sid then .no stBADARG
      else match c.stream? sid with
      | none => .no stBADSTATE
      | some s =>
        let t := { s.noted c.time.tb with out := o }
        let new := c.demands t s.place
        let lim := c.limitFor x.mb 1 sid [b2n s.lossy, s.lowest]
        let passBy := s.place.placement = .passBy
        if !outOk o s.mode passBy s.w s.h || !outArgs (r.drop 2) || !levelCovers o s.w s.h s.f ||
            !colourFits d s.port s.sub o s.w s.h || !(s.port == 0xFE || capsOk c s.port s.sub s.w s.h s.e o.format) then .no stBADARG
        else if (fmtClass o.format = 3 && noColour c s.port s.sub) || !c.ringsHold sid t s.place ||
            stopped c s.resv new then .no stBADSTATE
        else if (o.press = 2 && s.cls = 2 && lim.getD 0 0 == 0) || decide (rAvg t passBy < lim.getD 1 0 * 1000000) then
          .no stLIMIT
        else
          match admitRes c x.mb sid t s.place s.resv new with
          | some e => e
          | none => .doC fun c => ((c.asked s.place).setStream sid { t with resv := new }).replan }

def execStreamSetOutput (mb : Nat) (req : List Byte) (s : State) : Out :=
  s.onDevIf (validMb mb) (tilpo cmdSetOutput mb req)

/-- STREAM.SET_LIMITS (R224, R357, R370): BAD_STATE where a setting in force would break the new limit. -/
def cmdStreamLimits : Cmd :=
  { opcode := 0x0406, roles := [2], size := fun r => r.length == 8, stage := 3, cfg := fun r _ => some (u16 r 0),
    body := fun _ r d =>
      let sid := u16 r 0
      if 511 < sid || 1 < u8 r 2 then .no stBADARG
      else match d.chip.stream? sid with
      | none => .no stBADSTATE
      | some s =>
        if (s.out.press = 2 && s.cls = 2 && u8 r 2 = 0) ||
            decide (rAvg s (s.place.placement = .passBy) < u32 r 4 * 1000000) then .no stBADSTATE
        else .doC fun c =>
          (c.noteLimit 1 sid [b2n s.lossy, s.lowest]).setStream sid { s with lossy := u8 r 2 == 1, lowest := u32 r 4 } }

def execStreamSetLimits (mb : Nat) (req : List Byte) (s : State) : Out :=
  s.onDevIf (validMb mb) (tilpo cmdStreamLimits mb req)

/-- STREAM.SET_QUOTAS (R245, R370). -/
def cmdQuotas : Cmd :=
  { opcode := 0x0407, roles := [2], size := fun r => r.length == 2, stage := 3, cfg := fun _ _ => some 0,
    body := fun _ r d =>
      let m := u16 r 0
      if m < 256 || 4096 < m then .no stBADARG
      else if (23040 - m) * scale < d.chip.admitted 7 2 then .no stBADSTATE
      else .doC fun c => { c with store.mQuota := m } }

def execStreamSetQuotas (mb : Nat) (req : List Byte) (s : State) : Out :=
  s.onDevIf (validMb mb) (tilpo cmdQuotas mb req)

/-- Runs of more than 16 consecutive discarded frames become one record with MULTI (R258, R261). -/
def joinRuns (sel : Frame → Bool) : Nat → List Frame → List Frame
  | 0, l => l
  | _ + 1, [] => []
  | n + 1, f :: l =>
    if !sel f then f :: joinRuns sel n l
    else
      let run := f :: l.takeWhile sel
      let rest := joinRuns sel n (l.dropWhile sel)
      if 16 < run.length then { f with flags := f.flags ||| fMULTI, lines := run.length } :: rest else run ++ rest

/-- The frames that a rinse discards: taken in, not ended, no first burst issued (R261). -/
def rinsable (f : Frame) : Bool :=
  f.phase != .lost && f.phase != .judging && f.phase != .pegged && f.start.isNone && f.issued == 0

/-- STREAM.RINSE (R261). -/
def rinse (c : Chip) (sid : Nat) : Chip × List Byte :=
  match c.stream? sid with
  | none => (c, [])
  | some s =>
    let hit := s.frames.filter rinsable
    let n := hit.length
    let next := match hit.getLast? with | some f => Chip.seqAfter f.seq 1 | none => s.seqNext
    let c := c.loseFrames sid rinsable fRINSED
    let c := match c.stream? sid with
      | none => c
      | some t => c.setStream sid
          { t with frames := joinRuns (fun (f : Frame) => bit f.flags 7 && f.phase == FramePhase.lost && f.lines == 0 && f.issued == 0 && f.start.isNone)
                      t.frames.length t.frames,
                   cRinsed := sat 32 (t.cRinsed + n) }
    (c.mapFrames sid (fun (f : Frame) => f.phase == FramePhase.judging) fun f => { f with flags := f.flags ||| fLOST ||| fRINSED },
      le 4 n ++ le 4 next)

def cmdRinse : Cmd :=
  { opcode := 0x0408, roles := [2, 3], size := fun r => r.length == 2, stage := 3,
    scope := fun c f r => streamScope c f (u16 r 0),
    body := fun _ r d =>
      if 511 < u16 r 0 then .no stBADARG
      else if (d.chip.stream? (u16 r 0)).isNone then .no stBADSTATE
      else .doR fun c => rinse c (u16 r 0) }

def execStreamRinse (mb : Nat) (req : List Byte) (s : State) : Out :=
  s.onDevIf (validMb mb) (tilpo cmdRinse mb req)

/-- The placement that STREAM.MOVE names (R370). -/
def movePlace (r : List Byte) (s : StreamSt) : Place :=
  let seam := u8 r 4 == 1
  { placement := if u8 r 2 = 0 then .inLine else if u8 r 2 = 1 then .throughMemory else .passBy,
    pipe := if u8 r 2 = 2 then s.place.pipe else u8 r 3, seam := seam, fn := if seam then 0 else u8 r 5,
    chan := if seam then 0 else u8 r 6, altFn := if seam || !s.prot then 0 else u8 r 7,
    seamId := if seam then u16 r 8 else 0 }

/-- STREAM.MOVE (R27, R208, R370, R410): the new placement is admitted beside all that the old one holds until it has ended. A
move of the destination alone switches at the first frame of which nothing has left. -/
def cmdMove : Cmd :=
  { opcode := 0x0409, roles := [2], size := fun r => r.length == 10, stage := 3, cfg := fun r _ => some (u16 r 0),
    body := fun x r d =>
      let c := d.chip
      let sid := u16 r 0
      if 511 < sid || 2 < u8 r 2 || 1 < u8 r 4 then .no stBADARG
      else match c.stream? sid with
      | none => .no stBADSTATE
      | some s =>
        let pl := movePlace r s
        let passBy := decide (pl.placement = .passBy)
        let slot := pl.placement == .inLine && (match (c.pipe pl.pipe).inline with | some k => k != sid | none => false)
        if pl = s.place || !placeOk s pl || !outOk s.out s.mode passBy s.w s.h then .no stBADARG
        else if s.old.isSome then .no stBUSY
        else if slot || !c.chansFree sid s.prot pl || (pl.seam && !c.reachable pl.seamId) ||
            !c.ringsHold sid s pl then .no stBADSTATE
        else
          let new := c.demands s pl
          match admitRes c x.mb sid s pl [] new with
          | some e => e
          | none => .doR fun c =>
            let only := pl.placement = s.place.placement && pl.pipe = s.place.pipe
            let sel := fun (f : Frame) => only && f.start.isNone && f.issued == 0
            let c := (c.asked pl).setStream sid { s.noted c.time.tb with onAlt := false, failing := none }
            let c := (c.bindAll sid s.prot pl).migrate sid pl new sel
            let c := match c.stream? sid with
              | some t => c.setStream sid { t with old := some { epoch := s.epoch, place := s.place, resv := s.resv } }
              | none => c
            ((c.slots_).replan, le 1 ((s.epoch + 1) % 256)) }

def execStreamMove (mb : Nat) (req : List Byte) (s : State) : Out :=
  s.onDevIf (validMb mb) (tilpo cmdMove mb req)

/-- The code of a placement (R181, R370); 3 for none (log 26). -/
def placeCode : Placement → Nat
  | .inLine => 0 | .throughMemory => 1 | .passBy => 2 | .none => 3

/-- STREAM.READ_STATUS (R370). -/
def cmdReadStream : Cmd :=
  { opcode := 0x040A, roles := [], size := fun r => r.length == 2, stage := 3,
    body := fun _ r d =>
      if 511 < u16 r 0 then .no stBADARG
      else match d.chip.stream? (u16 r 0) with
      | none => .no stBADSTATE
      | some s =>
        .say (le 1 (b2n s.started) ++ le 1 s.epoch ++ le 1 (placeCode s.place.placement) ++ le 1 s.place.pipe ++
          le 1 s.place.fn ++ le 1 s.place.chan ++ le 2 0 ++ le 4 s.seqNext ++ le 4 s.cLost ++ le 4 s.cRinsed ++
          le 4 s.cEpoch ++ le 4 s.cPress ++ le 4 s.cLease) }

def execStreamReadStatus (mb : Nat) (req : List Byte) (s : State) : Out :=
  s.onDevIf (validMb mb) (tilpo cmdReadStream mb req)

/-- 50 ms after a switch point (R209): old-epoch frames that are not finished end LOST. -/
def Chip.oldEpoch (c : Chip) (sid : Nat) : Chip :=
  c.discardOld sid fun _ => true

def execOldEpochDeadline (stream : Fin 512) (s : State) : Out := s.run fun c => c.oldEpoch stream.val

def execLeaseDeadline (fn : Nat) (idx : Fin 64) (s : State) : Out :=
  s.onChipIf (validFn fn) fun c => c.endLease fn idx.val true

/-- A write to LS_END (R254, R256): a generation that does not match is ignored. -/
def Chip.lsEnd (c : Chip) (fn v : Nat) : Chip :=
  if (c.lease fn (v % 64)).gen = bits v 6 15 then c.endLease fn (v % 64) false else c

def execLsEndWrite (fn value : Nat) (s : State) : Out := s.onWrite (validFn fn) fn fun c => c.lsEnd fn value

/-- An uncorrectable word of the Basket (R244): the second within 1 ms retires its bank; with a second bank retired, the
frame whose slot was read is LOST. -/
def Chip.bankError (c : Chip) (b : Nat) (sid : Option Nat) : Chip :=
  if c.store.banks.contains b then
    let c := c.count 0xF89 1
    match sid.bind c.stream? with
    | some s =>
      if 2 ≤ c.store.banks.length then
        let first := (s.frames.find? fun f => decide (0 < f.slots)).map (·.seq)
        c.loseFrames (sid.getD 0) (fun f => first == some f.seq && decide (0 < f.slots)) 0
      else c
    | none => c
  else
    let twice := match c.store.bankErr.find? b with | some t => decide (c.up ≤ t + msU) | none => false
    let c := { c with store.bankErr := c.store.bankErr.put b c.up }
    if twice then c.retireBank b else c.count 0xF89 1

def execBasketReadError (bank : Fin 17) (stream : Option (Fin 512)) (s : State) : Out :=
  s.run fun c => c.bankError bank.val (stream.map (·.val))

/-- An uncorrectable error of a pseudo-channel (R250): rebuilt for a protected stream; the second within 1 ms retires
it. -/
def Chip.storeError (c : Chip) (st pc : Nat) (sid : Option Nat) : Chip :=
  let k := st * 32 + pc
  let twice := match c.store.pcErr.find? k with | some t => decide (c.up ≤ t + msU) | none => false
  let prot := match sid.bind c.stream? with | some s => s.prot | none => false
  let c := { c with store.pcErr := c.store.pcErr.put k c.up }
  let c := c.count 0xF8B (b2n prot)
  if twice then c.retirePc st pc sid else c

def execFsUncorrectableError (stack : Fin 4) (pc : Fin 32) (stream : Option (Fin 512)) (s : State) : Out :=
  s.run fun c => c.storeError stack.val pc.val (stream.map (·.val))

def execFsInterfaceFail (stack : Fin 4) (pc : Option (Fin 32)) (s : State) : Out :=
  s.run fun c => match pc with
    | some p => c.retirePc stack.val p.val none
    | none => c.retireStack stack.val none

/-- The stream commands. -/
def streamCmds : List Cmd :=
  [cmdCreate, cmdDestroy, cmdStart, cmdStop, cmdSetOutput, cmdStreamLimits, cmdQuotas, cmdRinse, cmdMove, cmdReadStream]

end Sys2Proof.Machine
end

