-- ==== Sys2Proof/Machine/HostOps.lean ====
section
/-! DEFINITION. What happens to a host port and its functions: freeze (R288 to R291, R317, R318), release (R320, R321),
function-level reset (R315, R316, R349), service (R296), and retraining (R295). -/

namespace Sys2Proof.Machine

/-- A discarded frame's peg as far as it is known before a ring takes it: LOST and FUNCTION_RESET (R257, R258, R316). -/
def owedPeg (sid : Nat) (f : Frame) : OwedPeg :=
  let many := bit f.flags 9
  { bytes := (pegBytes f sid (f.flags ||| fLOST ||| fRESET) 0 0 0 0 (if many then f.lines else 0)
      (if many then 0 else f.issued) 0).take 49, start := f.endAt }

/-- The first frame of each later epoch takes EPOCH_CHANGED (R210), from the epoch of the last peg on. -/
def markEpochs : Nat → List Frame → Nat × List Frame
  | e, [] => (e, [])
  | e, f :: l =>
    let new := Chip.laterEpoch e f.epoch
    let r := markEpochs (if new then f.epoch else e) l
    (r.1, (if new then { f with flags := f.flags ||| fEPOCH } else f) :: r.2)

namespace Chip

/-- HP_STATE bits [27:16]: rate, width, FLIT mode, payload size (R305). -/
def linkWord (h : HostSt) : Nat := h.rate * 256 + h.width * 8 + b2n h.flit * 4 + h.mps

/-- A port retrains, or its payload size changes: capacities are taken anew (R28, R295). -/
def relink (c : Chip) (p : Nat) (h : HostSt) : Chip :=
  let old := linkWord (c.host p)
  let new := linkWord h
  let c := c.setHost p h
  if old = new then c
  else
    let c := c.foldC (c.portFns p) fun c f => c.setFn f { c.fn f with hpFlags := setBit (c.fn f).hpFlags 4 }
    ((c.count (0xD00 + 64 * p + 8) 1).emit 0x18 1 p 0 (old * 65536 + new)).hostFell p

/-- A lease whose peg is taken back has not started (R253). -/
def untake (c : Chip) (f : Frame) : Chip :=
  match f.lease with
  | some (k, _) =>
    let l := c.lease f.place.fn k
    if l.state = .taken then c.setLease f.place.fn k { l with state := .free } else c
  | none => c

/-- Class U records that `sel` chooses are discarded and counted (R296, R300, R335); a frame goes with its peg. -/
def dropRecords (c : Chip) (p : Nat) (sel : Tlp → Bool) : Chip :=
  let h := c.host p
  let gone := (h.qU ++ h.uWait).filter sel
  let c := c.setHost p (refillU
    { h with qU := h.qU.filter (!sel ·), uWait := h.uWait.filter (!sel ·), discarded := h.discarded + gone.length })
  c.foldC gone fun c t => match t.kind with
    | .peg sid i q =>
      let w := c.wch p i
      let c := match (c.stream? sid).bind fun s => s.frames.find? fun f => f.phase == .pegged && f.seq == q with
        | some f => c.untake f
        | none => c
      (c.setWch p i { w with pegs := (w.pegs + 2 ^ 32 - 1) % 2 ^ 32 }).pegIssued sid q
    | _ => c

/-- A port moves between EARLY and SERVICE (R296): SERVICE in stage S4 with the PF's Bus Master Enable set. -/
def settlePort (c : Chip) (p : Nat) : Chip :=
  let h := c.host p
  let on := decide (4 ≤ c.stageNo) && (c.fn (p * 128)).bme
  if h.state = .early && on then (c.setHost p { h with state := .service }).dropFault 3 p
  else if h.state = .service && !on then (c.setHost p { h with state := .early }).dropRecords p fun t =>
    match t.kind with | .msix _ => !(c.fn t.fn).bme | _ => true
  else c

/-- A peg that waited in the issue queue is taken back: its frame awaits its peg again, and a peg that a reset owed is owed
again. -/
def unpeg (c : Chip) (p sid i seq : Nat) (t : Tlp) : Chip :=
  let w := c.wch p i
  let w := { w with pegs := (w.pegs + 2 ^ 32 - 1) % 2 ^ 32 }
  if 512 ≤ sid then c.setWch p i { w with owed := { bytes := t.data.take 49, start := t.start } :: w.owed }
  else
    let mine := fun (f : Frame) => f.phase == .pegged && f.seq == seq
    let c := match (c.stream? sid).bind fun s => s.frames.find? mine with | some f => c.untake f | none => c
    (c.mapFrames sid mine fun f =>
      { f with phase := if bit f.flags 0 then .lost else .finished, lease := none }).setWch p i w

/-- Payload that waited in the issue queue is taken back: those bytes, from running offset `o` on, have not been issued. -/
def unplace (c : Chip) (p sid i seq o n : Nat) : Chip :=
  let w := c.wch p i
  (c.mapFrames sid (fun f => f.seq == seq && f.start.isSome && f.phase != .pegged && f.phase != .judging) fun f =>
    { f with issued := f.issued - n, lines := if f.phase = .lost && !bit f.flags 9 then f.lines - n else f.lines }).setWch p i
    { w with wr := min w.wr o }

/-- Every TLP that `sel` chooses leaves the issue queues of a port; class U records are counted as discarded (R318). -/
def dropQueues (c : Chip) (p : Nat) (sel : Tlp → Bool) : Chip :=
  let h := c.host p
  let u := h.qU ++ h.uWait
  let gone := u.reverse.filter sel ++ h.qP.reverse.filter sel ++ h.qB.reverse.filter sel
  let c := c.setHost p (refillU
    { h with qU := h.qU.filter (!sel ·), uWait := h.uWait.filter (!sel ·), qP := h.qP.filter (!sel ·),
             qB := h.qB.filter (!sel ·), qM := h.qM.filter (!sel ·), discarded := h.discarded + (u.filter sel).length })
  c.foldC gone fun c t => match t.kind with
    | .peg sid i q => c.unpeg p sid i q t
    | .payload sid i q o .. => c.unplace p sid i q o t.data.length
    | _ => c

/-- A write channel enters BUS_STOP with its held record (R288, R291). -/
def busStopWrite (c : Chip) (p i : Nat) : Chip :=
  let w := c.wch p i
  let r := match c.stream? w.stream with
    | some s =>
      match burstCut s (w.fn.getD 0) i with
      | some f => c.stsOfRing w 4 f.seq (max (f.stored.getD 0) f.issued - f.issued)
      | none => c.stsOfRing w 4 (nextSeq s) 0
    | none => c.stsOfRing w 4 0 0
  c.setWch p i { w with state := .busStop, cause := 3, halting := false, issuing := false, asked := w.head,
                        flags := setBit (setBit w.flags 0) 3, held := some { r with flags := 2 } }

/-- A read channel enters BUS_STOP (R290, R291): its transfer ends with its residue. -/
def busStopRead (c : Chip) (p i : Nat) : Chip :=
  let w := c.rch p i
  let r := match w.xfer with
    | some x => c.stsOf 4 x.index x.tag 0 (x.length - x.got)
    | none => c.stsOfRing w 4 0 0
  c.setRch p i { w with state := .busStop, cause := 3, halting := false, aborting := false, xfer := none, asked := w.head,
                        flags := setBit (setBit w.flags 0) 3, held := some { r with flags := 3 } }

/-- Channels of a table of the port that are not IDLE. -/
def busy (t : Tab ChanSt) (base n : Nat) : List Nat :=
  (List.range n).filter fun i => (t.getD ChanSt.reset (base + i)).state != .idle

/-- What a freeze does to the frames of a stream (R290): protected ones start again as a whole, the cut frame of another is
LOST. -/
def freezeStream (c : Chip) (p sid : Nat) : Chip :=
  match c.stream? sid with
  | none => c
  | some s =>
    let here := fun (f : Frame) => !f.place.seam && f.place.fn / 128 == p && f.phase != .pegged
    if s.prot then
      let c := c.mapFrames sid (fun f => here f && f.phase != .lost) fun f =>
        { f with start := none, issued := 0, left := 0, place := if s.place.fn / 128 = p then f.place else s.place,
                 epoch := if s.place.fn / 128 = p then f.epoch else s.epoch }
      if !s.place.seam && s.place.fn / 128 == p then c.failover sid true else c.settle_ sid
    else
      c.loseFrames sid (fun f => here f && f.start.isSome && !f.gone) 0

/-- A trigger reaches a FROZEN port (R317): at the instant of the freeze the lowest code is its CAUSE, also in its record, later it
is counted. -/
def moreTrigger (c : Chip) (p cause : Nat) : Chip :=
  let h := c.host p
  if h.frzAt = c.up then
    if h.frzCause ≤ cause then c
    else
      let mine := fun (e : EventRec) => e.line == 0x19 && e.kind == 1 && e.inst == p && e.value == h.frzSeq
      { c.setHost p { h with frzCause := cause } with
        ev.waiting := c.ev.waiting.map fun e => if mine e then { e with detail := cause } else e }
  else c.setHost p { h with frzExtra := sat 16 (h.frzExtra + 1), extraLast := some (c.up, cause) }

/-- A trigger of R317 reaches a port: it freezes (R288, R318). -/
def freeze (c : Chip) (p cause : Nat) : Chip :=
  let h := c.host p
  if h.state = .frozen then c.moreTrigger p cause
  else if h.state = .down then c
  else
    let h := { h with state := .frozen, frzSeq := (h.frzSeq + 1) % 65536, frzCause := cause, frzTime := c.t64, frzAt := c.up,
                      frzExtra := 0, extraLast := none, frzLink := !h.link }
    let c := (((c.setHost p h).count (0xD00 + 64 * p + 6) 1).emit 0x19 1 p cause h.frzSeq).addFault 3 p
    let c := c.foldC (c.portFns (1 - p)) fun c f => c.setFn f { c.fn f with hpFlags := setBit (c.fn f).hpFlags 2 }
    let c := c.dropQueues p fun _ => true
    let c := c.foldC (busy c.hosts.wch (p * 256) 256) fun c i => c.busStopWrite p i
    let c := c.foldC (busy c.hosts.rch (p * 64) 64) fun c i => c.busStopRead p i
    -- descriptor fetches of IDLE channels are asked again (R266, R288)
    let again := fun (w : ChanSt) => if w.state = .idle then { w with asked := w.head } else w
    let c := { c with hosts.wch := c.hosts.wch.map fun (e : Nat × ChanSt) => if e.1 / 256 = p then (e.1, again e.2) else e,
                      hosts.rch := c.hosts.rch.map fun (e : Nat × ChanSt) => if e.1 / 64 = p then (e.1, again e.2) else e }
    let c := c.foldC (c.store.streams.map (·.1)) fun c sid => c.freezeStream p sid
    c.foldC (List.range 64) fun c n => c.endLeases (p * 128 + n) fun _ => true

/-- Mailbox responses held through a freeze become readable (R321, R349). -/
def unholdBoxes (c : Chip) (p : Nat) : Chip :=
  c.foldC (List.range 64) fun c n =>
    let m := p * 128 + n
    let b := c.box m
    if b.state = .held then ((c.setBox m { b with rspFlags := setBit b.rspFlags 3 }).setMbxState m .done).signalEnd m else c

/-- A channel after the release of its port (R291, R321). -/
def ChanSt.freed (w : ChanSt) : ChanSt := if w.state = .busStop then { w with state := .stopped } else w

/-- A frozen port is released (R320, R321): to DOWN without a link, else to EARLY or SERVICE. A trigger at the same instant counts
as later. -/
def release (c : Chip) (p : Nat) : Chip :=
  let h := c.host p
  if h.state != .frozen then c
  else
    let c := c.setHost p { h with state := if h.link then .early else .down, reads := [] }
    let c := { c with hosts.wch := c.hosts.wch.map (fun (e : Nat × ChanSt) => if e.1 / 256 = p then (e.1, ChanSt.freed e.2) else e),
                      hosts.rch := c.hosts.rch.map (fun (e : Nat × ChanSt) => if e.1 / 64 = p then (e.1, ChanSt.freed e.2) else e) }
    let c := c.settlePort p
    let c := c.foldC (c.portFns p) fun c f => c.setFn f { c.fn f with hpFlags := setBit (c.fn f).hpFlags 0 }
    let c := (c.unholdBoxes p).emit 0x19 2 p 0 h.frzSeq
    match h.extraLast with
    | some (t, cause) => if t = c.up then c.freeze p cause else c
    | none => c

/-- The mailbox of a function under a function-level reset (R316, R349): a command ends CANCELLED, one to another device
that has not been sent is not sent, and an answer to one that has comes too late. -/
def resetBox (c : Chip) (m : Nat) : Chip :=
  let b := c.box m
  let open_ := b.state == .queued || b.state == .running || b.state == .committed
  let c := if open_ then c.count 0x4B 1 else c
  let c := { c with seam.relays := (c.seam.relays.filter fun (r : RelaySt) => r.mailbox != m || r.sent).map fun (r : RelaySt) =>
    if r.mailbox = m then { r with late := true } else r }
  let c := (c.endSession m 0x14).stopCalib m
  let b := c.box m
  let c := c.setBox m { b with rsp := [], state := .idle, deadline := 1000, vector := 0, parked := none,
                               status := if open_ then stCANCELLED else b.status }
  if b.state = .idle then c else c.traceOpen 1 0

/-- A write channel under a function-level reset (R264, R316): its stream stops, and the pegs of its frames are owed to the
first ring that a later WCONFIG applies. An alternate channel holds no frame. -/
def resetWrite (c : Chip) (p i : Nat) : Chip :=
  let w := c.wch p i
  let blank := { ChanSt.reset with fn := w.fn, stream := w.stream, alternate := w.alternate, cause := 5, owed := w.owed }
  let c := match c.stream? w.stream with | some s => c.setStream w.stream { s with started := false } | none => c
  match c.stream? w.stream with
  | none => c.setWch p i blank
  | some s =>
    let here := fun (f : Frame) => !f.place.seam && some f.place.fn == w.fn && f.place.chan == i
    let mine := s.frames.filter fun f => here f && f.phase != .judging
    if mine.isEmpty then (c.setWch p i blank).settle_ w.stream
    else
      let fresh := (mine.filter (·.phase != .lost)).length
      let marked := markEpochs s.pegEpoch mine
      let owe := joinRuns (fun f => !bit f.flags 9) mine.length (marked.2.map fun f =>
        { f with flags := f.flags ||| fLOST ||| fRESET, phase := .lost, endAt := if f.phase = .lost then f.endAt else c.up })
      let keep := fun (f : Frame) => { f with flags := f.flags ||| fLOST ||| fRESET }
      let c := c.setStream w.stream
        { s with cLost := sat 32 (s.cLost + fresh), pegEpoch := marked.1,
                 frames := (s.frames.filter fun f => !here f || f.phase == .judging).map fun f => if here f then keep f else f }
      let c := (c.endWork w.stream mine).count (0xB00 + w.stream) fresh
      (c.setWch p i { blank with owed := w.owed ++ owe.map (owedPeg w.stream) }).settle_ w.stream

/-- Latches of BAR0 pages that a function holds return to 0 (R315). -/
def dropView {α : Type} (t : Tab α) (v n : Nat) : Tab α := t.filter fun e => e.1 / n != v

def clearLatches (c : Chip) (f : Nat) : Chip :=
  { c with time.secLatch := c.time.secLatch.drop f, time.hiLatch := c.time.hiLatch.drop f,
           pos.latches := dropView c.pos.latches f 8, lanes.latches := dropView c.lanes.latches f 64,
           cam.latches := dropView c.cam.latches f 64, store.latches := dropView c.store.latches f 16,
           hosts.chLatches := dropView c.hosts.chLatches f 512, hosts.hpLatches := c.hosts.hpLatches.drop f }

/-- A function-level reset acts on the objects of a function (R316, R503). -/
def resetObjects (c : Chip) (f : Nat) : Chip :=
  let p := f / 128
  let c := c.dropQueues p fun t => t.fn == f
  let mine := fun (t : Tab ChanSt) (base n : Nat) =>
    (List.range n).filter fun i => (t.getD ChanSt.reset (base + i)).fn == some f
  let c := c.foldC (mine c.hosts.wch (p * 256) 256) fun c i => (c.orphanReads p false i).resetWrite p i
  let c := c.foldC (mine c.hosts.rch (p * 64) 64) fun c i =>
    let w := c.rch p i
    (c.orphanReads p true i).setRch p i { ChanSt.reset with fn := w.fn, stream := w.stream, rate := w.rate, cause := 5 }
  let c := (c.endLeases f fun _ => true).resetBox f
  { c with ev.evfLine := c.ev.evfLine.drop f, ev.rings := c.ev.rings.drop f }

/-- The configuration space of a function at its reset values (R297, R315); windows and page flags are kept. -/
def resetConfig (c : Chip) (f : Nat) : Chip :=
  let g := c.fn f
  let c := c.setFn f { FnSt.reset with windows := g.windows, hpFlags := g.hpFlags, flr := g.flr }
  let c := c.dropRecords (f / 128) fun t => t.fn == f
  if f % 128 = 0 then
    let h := c.host (f / 128)
    (c.relink (f / 128) { h with cplValue := 0, vfEnable := false, numVfs := 0, ari := false, pageSize := 1, vfBar0 := 0,
                                     vfBar2Addr := 0, mps := 0 }).settlePort
      (f / 128)
  else c

/-- The functions that a reset of `f` takes with it: of a PF every VF (R315). -/
def resetSet (c : Chip) (f : Nat) : List Nat := if f % 128 = 0 then c.portFns (f / 128) else [f]

/-- A function-level reset begins (R315, R316). -/
def flrBegin (c : Chip) (f : Nat) : Chip :=
  c.foldC (c.resetSet f) fun c g => (c.setFn g { c.fn g with flr := true }).resetObjects g

/-- A function-level reset is complete (R315). -/
def flrEnd (c : Chip) (f : Nat) : Chip :=
  c.foldC ((c.resetSet f).reverse) fun c g =>
    let d := (c.clearLatches g).resetConfig g
    d.setFn g { d.fn g with flr := false }

/-- VF Enable is cleared: every VF is reset (R301). -/
def vfOff (c : Chip) (p : Nat) : Chip :=
  let vfs := (c.portFns p).drop 1
  let c := c.foldC vfs fun c g =>
    let d := ((c.resetObjects g).clearLatches g).resetConfig g
    d.setFn g { d.fn g with flr := false }
  let h := c.host p
  c.setHost p { h with vfEnable := false }

/-- Bus Master Enable of a function (R296, R300): clearing it aborts its RUN channels. -/
def setBme (c : Chip) (f : Nat) (on : Bool) : Chip :=
  let p := f / 128
  let c := if on || !(c.fn f).bme then c
    else
      let c := c.foldC ((List.range 256).filter fun i => (c.wch p i).fn == some f) fun c i => c.abortChan false p i
      c.foldC ((List.range 64).filter fun i => (c.rch p i).fn == some f) fun c i => c.abortChan true p i
  let c := c.setFn f { c.fn f with bme := on }
  -- no MSI-X message is sent while the bit is clear
  let c := if on then c else c.dropRecords p fun t => t.fn == f && (match t.kind with | .msix _ => true | _ => false)
  if f % 128 = 0 then c.settlePort p else c

/-- The link comes up (R294, R296): from DOWN to EARLY; before S4 on one lane at 2.5 GT/s, in FLIT mode whenever both ends support
it. -/
def linkUp (c : Chip) (p rate width : Nat) (flit : Bool) : Chip :=
  let h := c.host p
  if h.perst || !c.mailboxUp then c
  else
    let full := decide (4 ≤ c.stageNo)
    let h' := { h with link := true, rate := if full then rate else 1, width := if full then width else 1,
                       flit := flit || decide (6 ≤ rate), flitBoth := flit || decide (6 ≤ rate), state := if h.state = .down then .early else h.state }
    let c := if h.rate = 0 then (c.setHost p h').hostFell p else c.relink p h'
    c.settlePort p

/-- The link is lost (R296, R317, R322). No completion of an earlier request comes over a new link (log 58). -/
def linkDown (c : Chip) (p : Nat) : Chip :=
  let h := c.host p
  let c := c.setHost p { h with link := false, lateTags := [] }
  if h.state = .service then c.freeze p 6
  else if h.state = .frozen then c.setHost p { c.host p with frzLink := true }
  else c.setHost p { c.host p with state := .down }

/-- PERSTn# is asserted (R297, R302, R349): the port freezes or goes DOWN, and its functions' configuration space and
mailboxes are reset; stored values take effect. -/
def perstOn (c : Chip) (p : Nat) : Chip :=
  let c := c.linkDown p
  let c := c.foldC (List.range 64) fun c n => (c.resetBox (p * 128 + n)).resetConfig (p * 128 + n)
  let h := c.host p
  let h := { h with perst := true, ready := false, subsys := c.board.subsys.getD (0x1F6E, 1) }
  c.setHost p (match h.stored with
    | some (l, pf, vf) => { h with vecLimit := l, pfBar2 := pf, vfBar2 := vf }
    | none => h)

end Chip

/-- A change of channels, traced (R506). -/
def State.dma (s : State) (ok : Bool) (f : Chip → Chip) : Out := s.onChipIf ok fun c => c.dmaTraced f

end Sys2Proof.Machine
end

