-- ==== Sys2Proof/Machine/Dma.lean ====
section
/-! DEFINITION. The DMA commands of the command set (R265, R277 to R282, R336, R370), the channel doorbells (R266, R273,
R285 to R287), descriptors, bursts, the arbiter, and completions (R263, R288, R314). -/

namespace Sys2Proof.Machine

/-- DMA.SET_FOLD's input checks (R277, R278); NONE takes any input. -/
def foldOk (op mask : Nat) (s : StreamSt) : Bool :=
  let o := s.out
  let k := fmtClass o.format
  let code := fmtCode o.format
  let words := code == 0 || code == 1 || code == 3 || code == 5
  let r := (roisOf o s.w s.h 1).headD { x := 0, y := 0, w := s.w, h := s.h }
  decide (op ≤ 4) && (op == 0 ||
    (o.press == 0 && s.place.placement != .passBy && decide (o.rois.length ≤ 1) &&
      (if op = 1 then k == 3 && words
       else if op = 2 then k == 2 && words && decide (1 ≤ fmtLayout o.format) && decide (fmtLayout o.format ≤ 4) &&
         outW o r % 2 == 0 && outH o r % 2 == 0
       else if op = 3 then k == 2 && words && mask != 0 && decide (mask < 2 ^ codeBits code) &&
         (s.mode != 2 || mask == 2 ^ codeBits code - 1)
       else k == 2 || k == 3)))

/-- The new Fold of a stream, with the FOLD_CHANGED record it owes (R279). -/
def Chip.newFold (c : Chip) (sid : Nat) (s : StreamSt) (fold : Nat × Nat) (new : List Resv) : Chip :=
  let q := Chip.seqAfter s.seqNext (s.frames.filter (·.phase == .judging)).length
  let c := c.setStream sid { s.noted c.time.tb with fold := fold, resv := new }
  if s.place.seam then c
  else
    let p := s.place.fn / 128
    let w := c.wch p s.place.chan
    c.setWch p s.place.chan { w with foldSeq := (w.foldSeq.filter (· != q)) ++ [q] }

/-- DMA.SET_FOLD (R277 to R279, R370). -/
def cmdSetFold : Cmd :=
  { opcode := 0x0420, roles := [2], size := fun r => r.length == 6, stage := 3, cfg := fun r _ => some (u16 r 0),
    body := fun x r d =>
      let c := d.chip
      let sid := u16 r 0
      if 511 < sid || 4 < u8 r 2 then .no stBADARG
      else match c.stream? sid with
      | none => .no stBADSTATE
      | some s =>
        let fold := (u8 r 2, if u8 r 2 = 3 then u16 r 4 else 0)
        let t := { s with fold := fold }
        if !foldOk (u8 r 2) (u16 r 4) s then .no stBADARG
        else if !c.ringsHold sid t s.place then .no stBADSTATE
        else
          let new := c.demands t s.place
          match admitRes c x.mb sid t s.place s.resv new with
          | some e => e
          | none => .doC fun c => (c.asked s.place).newFold sid s fold new }

def execDmaSetFold (mb : Nat) (req : List Byte) (s : State) : Out :=
  s.onDevIf (validMb mb) (tilpo cmdSetFold mb req)

/-- DMA.OPEN_READ (R264, R280, R370). -/
def cmdOpenRead : Cmd :=
  { opcode := 0x0421, roles := [2], size := fun r => r.length == 12, stage := 3,
    body := fun _ r d =>
      let c := d.chip
      let p := u8 r 0
      let i := u8 r 1
      let f := u8 r 2
      let rate := u32 r 8
      if 1 < p || 63 < i || !validFn f || f / 128 != p || 511 < u16 r 4 then .no stBADARG
      else if (c.rch p i).fn.isSome || (c.stream? (u16 r 4)).isNone || (c.admitStopped && rate != 0) then .no stBADSTATE
      else match c.shortOf none [] { res := 5, inst := p, demand := rate * scale } with
      | some e => .refuse stNOCAP e
      | none => .doC fun c => c.setRch p i { ChanSt.reset with fn := some f, stream := u16 r 4, rate := rate } }

def execDmaOpenRead (mb : Nat) (req : List Byte) (s : State) : Out :=
  s.onDevIf (validMb mb) (tilpo cmdOpenRead mb req)

/-- A read channel is returned: completions still on their way serve nobody. -/
def Chip.closeRead (c : Chip) (p i : Nat) : Chip :=
  (c.orphanReads p true i).setRch p i ChanSt.reset

/-- DMA.CLOSE_READ (R265, R370). -/
def cmdCloseRead : Cmd :=
  { opcode := 0x0422, roles := [2], size := fun r => r.length == 2, stage := 3,
    body := fun _ r d =>
      let w := d.chip.rch (u8 r 0) (u8 r 1)
      if 1 < u8 r 0 || 63 < u8 r 1 then .no stBADARG
      else if w.state != .idle && w.state != .stopped then .no stBADSTATE
      else .doC fun c => c.closeRead (u8 r 0) (u8 r 1) }

def execDmaCloseRead (mb : Nat) (req : List Byte) (s : State) : Out :=
  s.onDevIf (validMb mb) (tilpo cmdCloseRead mb req)

/-- The code of a channel state (R292). -/
def ChanState.code : ChanState → Nat
  | .idle => 0 | .stopped => 1 | .run => 2 | .waitMark => 3 | .waitSpace => 4 | .busStop => 5

/-- The 16 words of a channel's block as function `reader` sees it (R292); WO registers read 0. -/
def chanBlock (w : ChanSt) (reader : Nat) : List Nat :=
  [w.state.code * 2 ^ 28 + w.cause * 2 ^ 24 + b2n (w.fn == some reader) * 2 ^ 23 + w.stream,
   w.descBase % 2 ^ 32 + w.descLog2, w.descBase / 2 ^ 32, 0, w.head, 0, w.wr % 2 ^ 32, w.wr / 2 ^ 32 % 2 ^ 32, 0, w.rel, 0,
   w.pegs, w.recNext, w.spaceWaits * 2 ^ 16 + w.badDb, w.flags, 0]

/-- A channel as its block shows it (R312): RING_WR and RING_PEG count what has entered the transmit queue. -/
def Chip.shown (c : Chip) (isRead : Bool) (p i : Nat) : ChanSt :=
  if isRead then c.rch p i else { c.wch p i with wr := c.ringWr p i, pegs := c.ringPeg p i }

/-- DMA.READ_STATUS (R265, R291, R363, R370). -/
def cmdReadDma : Cmd :=
  { opcode := 0x0423, roles := [], size := fun r => r.length == 3,
    body := fun x r d =>
      let p := u8 r 0
      let rd := u8 r 1 == 1
      let i := u8 r 2
      if 1 < p || 1 < u8 r 1 || (rd && 63 < i) then .no stBADARG
      else
        let w := d.chip.shown rd p i
        let held := match w.held with | some h => stsBytes p i h w.recNext | none => []
        .say (wordBytes (chanBlock w x.mb) ++ le 2 (d.chip.host p).lateCpl ++ le 1 (b2n w.held.isSome) ++ le 1 0 ++ held) }

def execDmaReadStatus (mb : Nat) (req : List Byte) (s : State) : Out :=
  s.onDevIf (validMb mb) (tilpo cmdReadDma mb req)

/-- DMA.SET_QOS (R336, R370). -/
def cmdSetQos : Cmd :=
  { opcode := 0x0424, roles := [2], size := fun r => r.length == 8, stage := 3,
    cfg := fun r _ => some (u8 r 1 * 4 + u8 r 2 % 4),
    body := fun _ r d =>
      let p := u8 r 0
      let f := u8 r 1
      let k := u8 r 2
      let cap := u32 r 4
      if 1 < p || !validFn f || f / 128 != p || !(k == 1 || k == 2) || u8 r 3 = 0 || 230000 < cap then .no stBADARG
      else if cap != 0 && decide (cap * scale < d.chip.fnReserved none f k) then .no stBADSTATE
      else .doC fun c =>
        let h := c.host p
        (c.noteLimit 2 (f * 4 + k) [(qosOf h f k).cap]).setHost p (setQos h f k { qosOf h f k with weight := u8 r 3, cap := cap }) }

def execDmaSetQos (mb : Nat) (req : List Byte) (s : State) : Out :=
  s.onDevIf (validMb mb) (tilpo cmdSetQos mb req)

/-- DMA.READ_QOS (R332, R334, R336, R370). -/
def cmdReadQos : Cmd :=
  { opcode := 0x0425, roles := [], size := fun r => r.length == 1,
    body := fun _ r d =>
      let c := d.chip
      let p := u8 r 0
      if 1 < p then .no stBADARG
      else
        let h := c.host p
        let fs := c.portFns p
        .say (le 4 (boundU h fs.length) ++ (h.overdue.flatMap (le 4)) ++ le 1 (2 * fs.length) ++ le 3 0 ++
          fs.flatMap fun f => [1, 2].flatMap fun k =>
            let o := qosOf h f k
            le 1 f ++ le 1 k ++ le 1 o.weight ++ le 1 0 ++ le 4 o.cap ++
              le 4 ((c.fnReserved none f k + scale - 1) / scale) ++ le 4 o.lastCarried) }

def execDmaReadQos (mb : Nat) (req : List Byte) (s : State) : Out :=
  s.onDevIf (validMb mb) (tilpo cmdReadQos mb req)

/-- RING_STATE is read (R264, R293): the function's latch takes the block of a channel that it owns; any other reads 0. -/
def Chip.readRing (c : Chip) (fn : Nat) (isRead : Bool) (i : Nat) : Chip :=
  let w := c.shown isRead (fn / 128) i
  if w.fn != some fn then { c with rd := le 4 0 }
  else
    let b := chanBlock w fn
    { c with rd := le 4 (b.getD 0 0), hosts.chLatches := c.hosts.chLatches.put (fn * 512 + (if isRead then 256 + i else i)) b }

def execRingStateRead (fn : Nat) (isRead : Bool) (chan : Nat) (s : State) : Out :=
  s.onRead (validFn fn && chanOk isRead chan) fn fun c => c.readRing fn isRead chan

/-- A write by function `fn` to a channel's block: of a channel that it does not own it is ignored (R264). -/
def State.onChan (s : State) (fn : Nat) (isRead : Bool) (i : Nat) (f : Chip → Chip) : Out :=
  s.onWrite (validFn fn && chanOk isRead i) fn fun c =>
    if (c.chan isRead (fn / 128) i).fn = some fn then c.dmaTraced f else c

/-- A rejected doorbell value (R266, R273, R292). -/
def ChanSt.badBell (w : ChanSt) : ChanSt := { w with badDb := sat 16 (w.badDb + 1), flags := setBit w.flags 2 }

/-- DB_DESC_TAIL (R266). -/
def Chip.descTail (c : Chip) (isRead : Bool) (p i v : Nat) : Chip :=
  let w := c.chan isRead p i
  c.setChan isRead p i
    (if (v % 2 ^ 32 + 2 ^ 32 - w.head) % 2 ^ 32 ≤ 2 ^ w.descLog2 then { w with tail := v % 2 ^ 32 } else w.badBell)

def execDbDescTailWrite (fn : Nat) (isRead : Bool) (chan value : Nat) (s : State) : Out :=
  s.onChan fn isRead chan fun c => c.descTail isRead (fn / 128) chan value

/-- HALT (R285): at once where no frame or descriptor is in progress. -/
def Chip.haltChan (c : Chip) (isRead : Bool) (p i : Nat) : Chip :=
  let w := c.chan isRead p i
  if !w.running then c
  else
    let c := c.setChan isRead p i { w with halting := true }
    if isRead then (if w.xfer.isNone then c.stopRead p i else c)
    else match c.stream? w.stream with
      | some s => if (cutFrame s (w.fn.getD 0) i).isNone then c.haltWrite p i else c
      | none => c

def execDbCtrlHalt (fn : Nat) (isRead : Bool) (chan : Nat) (s : State) : Out :=
  s.onChan fn isRead chan fun c => c.haltChan isRead (fn / 128) chan

def execDbCtrlAbort (fn : Nat) (isRead : Bool) (chan : Nat) (s : State) : Out :=
  s.onChan fn isRead chan fun c => c.abortChan isRead (fn / 128) chan

def execDbCtrlArm (fn : Nat) (isRead : Bool) (chan : Nat) (s : State) : Out :=
  s.onChan fn isRead chan fun c => if isRead then c.armRead (fn / 128) chan else c.armWrite (fn / 128) chan

/-- Space that the host returns takes a waiting channel back to RUN (R271). -/
def Chip.spaceBack (c : Chip) (p i : Nat) : Chip :=
  let w := c.wch p i
  if w.state = .waitSpace && c.hasSpace p i then c.setWch p i { w with state := .run } else c

/-- DB_REL (R273). -/
def Chip.dataRel (c : Chip) (p i v : Nat) : Chip :=
  let w := c.wch p i
  let v := v % 2 ^ 32
  let placed := (c.ringWr p i + 63) / 64
  if (v + 2 ^ 32 - w.rel) % 2 ^ 32 ≤ (placed + 2 ^ 32 - w.rel) % 2 ^ 32 then (c.setWch p i { w with rel := v }).spaceBack p i
  else c.setWch p i w.badBell

def execDbRelWrite (fn chan value : Nat) (s : State) : Out :=
  s.onChan fn false chan fun c => c.dataRel (fn / 128) chan value

/-- DB_PEG_REL (R273). -/
def Chip.pegRelease (c : Chip) (p i v : Nat) : Chip :=
  let w := c.wch p i
  let v := v % 2 ^ 32
  if (v + 2 ^ 32 - w.pegRel) % 2 ^ 32 ≤ (c.ringPeg p i + 2 ^ 32 - w.pegRel) % 2 ^ 32 then
    (c.setWch p i { w with pegRel := v }).spaceBack p i
  else c.setWch p i w.badBell

def execDbPegRelWrite (fn chan value : Nat) (s : State) : Out :=
  s.onChan fn false chan fun c => c.pegRelease (fn / 128) chan value

/-- A fetched descriptor is executed where the channel's state lets it (R267, R281): a write channel while IDLE or STOPPED, a
read channel while IDLE or RUN. -/
def Chip.execDesc (c : Chip) (isRead : Bool) (p i : Nat) : Chip :=
  let w := c.chan isRead p i
  if w.fn.isSome && c.fnLive (w.fn.getD 0) &&
      (w.state == .idle || (if isRead then w.state == .run && !w.halting else w.state == .stopped)) then c.descExec isRead p i
  else c

def execDescriptorExecute (port : Fin 2) (isRead : Bool) (chan : Nat) (s : State) : Out :=
  s.dma (chanOk isRead chan) fun c => c.execDesc isRead port.val chan

def execReadRequestIssue (port : Fin 2) (s : State) : Out := s.dma true fun c => c.readNext port.val

def execWriteChannelIssueStart (port : Fin 2) (chan : Nat) (s : State) : Out :=
  s.dma (chanOk false chan) fun c => c.issueStart port.val chan

def execWriteBurstIssue (port : Fin 2) (chan : Nat) (s : State) : Out :=
  s.dma (chanOk false chan) fun c => c.writeNext port.val chan

def execIssueArbitration (port : Fin 2) (creditWait recovery : Bool) (s : State) : Out :=
  s.dma true fun c => c.arbitrate port.val creditWait recovery

/-- The function for which a port reads (R264). -/
def Chip.readerOf (c : Chip) (p tag : Nat) : Nat :=
  match ((c.host p).reads.find? fun r => r.tag == tag).map OutRead.who with
  | some (ReadFor.desc b i _) => (c.chan b p i).fn.getD (128 * p)
  | some (ReadFor.data i _) => (c.rch p i).fn.getD (128 * p)
  | _ => 128 * p

/-- A completion arrives (R263, R288, R314, R317): status 4 is CA, any other but 0 counts as UR. -/
def completion (p tag status : Nat) (poisoned : Bool) (data : List Byte) (d : Dev) : Dev :=
  let c := d.chip
  let h := c.host p
  if h.lateTags.contains tag then
    let c := c.setHost p { h with lateCpl := sat 16 (h.lateCpl + 1) }
    d.onChip fun _ => (c.foldC (c.portFns p) fun c f => c.setFn f { c.fn f with hpFlags := setBit (c.fn f).hpFlags 1 }).count
      (0xD00 + 64 * p + 5) 1
  else if h.state = .frozen then
    if status = 0 && !poisoned then d
    else d.onChip fun c => c.moreTrigger p (if status = 4 then 3 else if status = 0 then 4 else 2)
  else if h.state = .down then d
  else if !(h.reads.any (·.tag == tag)) then d
  else if status != 0 && status != 4 then d.onChip fun c => c.freeze p 2
  else if status = 4 then d.onChip fun c => c.freeze p 3
  else if poisoned then d.onChip fun c => (c.aerNote (c.readerOf p tag) 12).freeze p 4
  else
    let take := fun (r : OutRead) => if r.tag = tag then { r with data := some ((r.data.getD []) ++ data) } else r
    drainReads p h.reads.length { d with chip := c.setHost p { h with reads := h.reads.map take } }

def execCompletionReceived (port : Fin 2) (tag status : Nat) (poisoned : Bool) (data : List Byte) (s : State) : Out :=
  s.runDev (completion port.val tag status poisoned data)

/-- A memory read has gone unanswered for the time of R314: its tag is late from now on, and the port freezes (R317). -/
def Chip.cplTimeout (c : Chip) (p tag : Nat) : Chip :=
  let h := c.host p
  if !(h.reads.any (·.tag == tag)) then c
  else
    let f := c.readerOf p tag
    let c := (c.setHost p { h with reads := h.reads.filter (·.tag != tag), lateTags := h.lateTags ++ [tag],
                                   cplTimeout := sat 16 (h.cplTimeout + 1) }).aerNote f 14
    (c.count (0xD00 + 64 * p + 4) 1).freeze p 1

def execCompletionTimeout (port : Fin 2) (tag : Nat) (s : State) : Out := s.dma true fun c => c.cplTimeout port.val tag

/-- The commands of the family. -/
def dmaCmds : List Cmd := [cmdSetFold, cmdOpenRead, cmdCloseRead, cmdReadDma, cmdSetQos, cmdReadQos]

end Sys2Proof.Machine
end

