-- ==== Sys2Proof/Machine/System.lean ====
section
/-! DEFINITION. The system family of the command set (R366) and the end of SYSTEM.SAVE_CONFIG (R380). -/

namespace Sys2Proof.Machine

/-- Instances of each resource of R20 (R26). -/
def resInstances (r : Nat) : Nat :=
  if r = 1 then 16 else if r = 2 || r = 3 || r = 9 then 1 else if r = 4 || r = 5 || r = 8 then 2
  else if r = 6 then 16 else if r = 7 then 4 else 0

/-- SYSTEM.IDENTIFY (R366); without a Seam ID seam_id reads 0xFFFF (log 18). -/
def cmdIdentify : Cmd :=
  { opcode := 0x0101, roles := [], size := fun r => r.length == 0,
    body := fun _ _ d =>
      let c := d.chip
      let img := if c.board.running = 0 then c.board.imageA else c.board.imageB
      .say (le 8 Config.serial.toNat ++ le 1 c.stageNo ++ le 1 (b2n c.mbx.lockedPart + 2 * b2n c.unprovisioned) ++
        le 2 (c.seam.id.getD 0xFFFF) ++ le 4 img.version ++ le 2 1 ++ le 1 0x10 ++ le 1 0) }

def execSystemIdentify (mb : Nat) (req : List Byte) (s : State) : Out :=
  s.onDevIf (validMb mb) (tilpo cmdIdentify mb req)

/-- The 32-byte meter record of R29. -/
def meterBytes (c : Chip) (r i : Nat) : List Byte :=
  let m := c.meter r i
  le 1 r ++ le 1 m.flags ++ le 2 i ++ le 4 m.capacity ++ le 4 m.admitted ++ le 4 m.carried ++
    le 4 (m.history.foldl max 0) ++ le 4 m.pace ++ le 8 c.power.windowEnd

/-- The instances that the request of SYSTEM.READ_METERS names, "all" in ascending order; none where one is wrong. -/
def meterList : Nat → List Byte → Option (List (Nat × Nat))
  | 0, _ => some []
  | n + 1, r =>
    let res := u8 r 0
    let i := u16 r 2
    let k := resInstances res
    match meterList n (r.drop 4) with
    | none => none
    | some l =>
      if i = 0xFFFF ∧ 0 < k then some ((List.range k).map (fun j => (res, j)) ++ l)
      else if i < k then some ((res, i) :: l) else none

/-- SYSTEM.READ_METERS (R29, R366). -/
def cmdReadMeters : Cmd :=
  { opcode := 0x0102, roles := [], size := fun r => 2 ≤ r.length && r.length == 2 + 4 * u8 r 0,
    body := fun _ r d =>
      if u8 r 0 = 0 ∨ 128 < u8 r 0 then .no stBADARG
      else
        match meterList (u8 r 0) (r.drop 2) with
        | none => .no stBADARG
        | some l => if 128 < l.length then .no stBADARG else .say (l.map fun p => meterBytes d.chip p.1 p.2).flatten }

def execSystemReadMeters (mb : Nat) (req : List Byte) (s : State) : Out :=
  s.onDevIf (validMb mb) (tilpo cmdReadMeters mb req)

/-- SYSTEM.READ_PENDING (R347, R366): the open tickets. -/
def cmdReadPending : Cmd :=
  { opcode := 0x0103, roles := [], size := fun r => r.length == 0,
    body := fun _ _ d =>
      let l := d.chip.mbx.tickets
      .say (le 1 l.length ++ List.replicate 7 0 ++
        (l.map fun t => le 4 t.id ++ le 2 t.opcode ++ le 2 t.mailbox ++ le 8 t.instant).flatten) }

def execSystemReadPending (mb : Nat) (req : List Byte) (s : State) : Out :=
  s.onDevIf (validMb mb) (tilpo cmdReadPending mb req)

/-- Roles that may issue a ticket's command (R366, R372, R373, R378, R379). -/
def ticketRoles (o : Nat) : List Nat :=
  if o = 0x0106 || o = 0x0703 then [2] else if o = 0x0C03 || o = 0x0C04 then [1, 2] else [2, 3]

/-- What a cancelled ticket leaves (R347, R380): nothing that it has not yet done is done. Whether the flash write of a
commit has begun is left open (log 19). A cancelled TIME.STEP leaves TB_SET_STATUS at IDLE (log 76). -/
def cancelTicket (c : Chip) (t : Ticket) : Chip :=
  match t.kind with
  | .saveConfig => { c with board.saving := none }
  | .timeStep => { c with time.pendingStep := none, time.setState := 0 }
  | .seamSnapshot n => { c with ev.snaps := c.ev.snaps.filter (·.number != n) }
  | .snapshot n => { c with ev.snaps := c.ev.snaps.filter (·.number != n) }
  | .fwCommit i =>
    let begun := c.fresh 19 [t.id] % 2
    (if begun = 0 then c
    else if i = 0 then { c with board.imageA.state := 3, board.imageA.staged := none }
    else { c with board.imageB.state := 3, board.imageB.staged := none } : Chip).drawn
  | .fwActivate _ =>
    if c.mgmt.pairA = .booting then { c with mgmt.pairA := .booting, mgmt.imageA := c.board.running }
    else { c with mgmt.imageB := c.board.running }

/-- SYSTEM.CANCEL_PENDING (R347, R366). -/
def cmdCancelPending : Cmd :=
  { opcode := 0x0104, roles := [1, 2, 3], size := fun r => r.length == 4,
    scope := fun c f r => c.mbx.tickets.any fun t => t.id == u32 r 0 && t.mailbox == f,
    body := fun x r d =>
      match d.chip.mbx.tickets.find? (·.id == u32 r 0) with
      | none => .no stBADSTATE
      | some t =>
        if !x.grantAll && !(ticketRoles t.opcode).contains x.role then .no stNORIGHT
        else if t.instant != 0 && decide (t.instant ≤ d.chip.t64) then .no stBADSTATE
        else .doC fun c => (cancelTicket c t).endTicket t.id stCANCELLED }

def execSystemCancelPending (mb : Nat) (req : List Byte) (s : State) : Out :=
  s.onDevIf (validMb mb) (tilpo cmdCancelPending mb req)

/-- SYSTEM.SET_BOARD (R298, R366): stored in flash, taken at the next PERSTn# of each port. -/
def cmdSetBoard : Cmd :=
  { opcode := 0x0105, roles := [1], size := fun r => r.length == 36,
    body := fun _ r _ => .doC fun c =>
      { c with board.subsys := some (u16 r 0, u16 r 2), board.text := r.drop 4 } }

def execSystemSetBoard (mb : Nat) (req : List Byte) (s : State) : Out :=
  s.onDevIf (validMb mb) (tilpo cmdSetBoard mb req)

/-- The sealed tables as the stored configuration takes them (R464). -/
def storedTables (d : Dev) : List CfgTable :=
  (d.chip.store.tables.filter (·.2.sealed)).map fun p =>
    { handle := p.1, port := p.2.port, kind := p.2.kind, size := p.2.size,
      data := d.mem.readBytes (tableBase p.1) p.2.size }

/-- SYSTEM.SAVE_CONFIG (R366, R380): the write to flash ends its ticket. -/
def cmdSaveConfig : Cmd :=
  { opcode := 0x0106, roles := [2], size := fun r => r.length == 0,
    body := fun _ _ d =>
      if d.chip.board.saving.isSome then .no stBUSY
      else .later (fun _ => .saveConfig) 0 fun _ d =>
        (d.onChip fun c => { c with board.saving := some (c.board.cfg, storedTables d) }, []) }

def execSystemSaveConfig (mb : Nat) (req : List Byte) (s : State) : Out :=
  s.onDevIf (validMb mb) (tilpo cmdSaveConfig mb req)

/-- The save ends its ticket (R380): OK with the configuration stored, or INTERNAL with the stored one unchanged. -/
def Chip.saveComplete (c : Chip) (ticket : Nat) (ok : Bool) : Chip :=
  match c.mbx.tickets.find? (·.id == ticket), c.board.saving with
  | some t, some sv =>
    if t.kind = .saveConfig then
      if ok then
        ({ c with board.saving := none, board.saved := sv.1, board.savedTables := sv.2 } : Chip).endTicket ticket stOK
      else ({ c with board.saving := none } : Chip).endTicket ticket stINTERNAL
    else c
  | _, _ => c

def execSaveConfigComplete (ticket : Nat) (ok : Bool) (s : State) : Out :=
  s.run fun c => c.saveComplete ticket ok

def systemCmds : List Cmd :=
  [cmdIdentify, cmdReadMeters, cmdReadPending, cmdCancelPending, cmdSetBoard, cmdSaveConfig]

end Sys2Proof.Machine
end

