-- ==== Sys2Proof/Machine/PowerOps.lean ====
section
/-! DEFINITION. Rate meters (R29 to R31), voltage following (R33 to R35), the controllers' bus faults (R494, R495) and the
thermal step-down (R474 to R479). -/

namespace Sys2Proof.Machine

/-- Every resource instance of R20. -/
def allInstances : List (Nat × Nat) :=
  [1, 2, 3, 4, 5, 6, 7, 8, 9].flatMap fun r => (List.range (resInstances r)).map fun i => (r, i)

/-- The pace monitors of an instance (R31): two in each pipe, the others by region (log 33). -/
def monitorsOf (r i : Nat) : List Nat :=
  if r = 1 then [2 * i, 2 * i + 1]
  else if r = 7 then [32, 33, 34, 35]
  else if r = 4 || r = 5 || r = 8 then [36, 37, 38, 39]
  else if r = 6 then [40, 41, 42, 43]
  else if r = 9 then [44, 45, 46, 47]
  else []

namespace Chip

/-- What an instance carried in the window that closes, in its unit (R29): rates from what passed in 1 ms, spaces from what
is held at the close; which traffic of the frame store is counted log 34 says. -/
def carriedNow (c : Chip) (r i : Nat) : Nat :=
  let m := c.meter r i
  if r = 1 then m.now
  else if r = 3 then
    c.leasedMib + ((c.store.streams.map fun e => fsUsed e.2 + copyHeld e.2).foldl (· + ·) 0 + 2 ^ 20 - 1) / 2 ^ 20
  else if r = 7 then ((c.store.streams.filter fun e => e.2.cls == i).map fun e => slotsUsed e.2).foldl (· + ·) 0
  else if r = 8 || r = 9 then c.admitted r i / scale
  else (quot m.now 1000).toNat

/-- An instance is out of service (R30). -/
def outOfService (c : Chip) (r i : Nat) : Bool :=
  if r = 1 then (c.pipe i).state == .faulted || c.power.pipes.getD 0 i == 0
  else if r = 2 || r = 3 then decide (4 ≤ c.store.fsStacks.length)
  else if r = 4 || r = 5 || r = 8 then (c.host i).state != .service
  else if r = 6 then !c.upLinks.contains i
  else false

/-- One meter closes its window (R29, R30, R31). -/
def closeMeter (c : Chip) (paces : List Nat) (r i : Nat) : Chip :=
  let m := c.meter r i
  let cap := c.capacity r i / scale
  let adm := c.admitted r i / scale
  let car := c.carriedNow r i
  let ratios := (monitorsOf r i).map fun k => paces.getD k 1000
  let slow := ratios.any fun x => decide (x < 1000)
  let fl := b2n (m.waited && decide (car < adm)) + 2 * b2n (decide (cap < adm)) + 4 * b2n (c.outOfService r i) + 8 * b2n slow
  let v : MeterSt :=
    { now := 0, waited := false, flags := fl, capacity := cap, admitted := adm, carried := car,
      history := (car :: m.history).take 1000, pace := if r = 1 then 850 * (ratios.drop 1).foldl min (ratios.headD 1000) else cap }
  let c := c.setMeter r i v
  let new := clearBits fl m.flags
  let c := if slow then c.emit 0x17 2 i r (adm % 2 ^ 32 * 2 ^ 32 + cap % 2 ^ 32) else c
  let c := if new = 0 then c else c.emit 0x2E 1 i r new
  c.trace 8 0 (meterBytes c r i) c.t64

/-- The close of a meter window (R29), with the counts of R282 and R336 that run by windows, and U_OVERDUE (R334). -/
def closeWindow (c : Chip) (paces : List Nat) : Chip :=
  let c : Chip := { c with power.windowEnd := c.t64 }
  let c := ((c.foldC allInstances fun c p => c.closeMeter paces p.1 p.2).drawn).count 0x048 1
  let c := c.foldC [0, 1] fun c p =>
    let h := c.host p
    let v := h.overdue
    let rec_ := (min 65535 (v.getD 0 0)) * 2 ^ 48 + (min 65535 (v.getD 1 0)) * 2 ^ 32 + (min 65535 (v.getD 2 0)) * 2 ^ 16 +
      min 65535 (v.getD 3 0)
    let c := c.setHost p { h with
      overdueNew := false,
      qos := h.qos.mapVals fun _ (q : Qos) => { q with lastCarried := (quot q.carried 1000).toNat, carried := 0 } }
    if h.overdueNew then c.emit 0x1A 1 p 0 rec_ else c
  { c with hosts.rch := c.hosts.rch.mapVals fun _ (w : ChanSt) => { w with spent := 0 } }

/-- The setpoint's floor (R33). -/
def floorMv (c : Chip) : Nat := if c.power.straps.vsafe then 650 else 750

/-- The loop enters FIXED (R35): 0 by command, 1 NACK, 2 bus timeout, 3 READ_VOUT, 4 STATUS_WORD. -/
def enterFixed (c : Chip) (cause : Nat) : Chip :=
  if c.power.fixed then c
  else
    ({ c with power.fixed := true, power.vfCause := cause, power.settling := false, power.wide := 0,
              power.pmbusFails := 0, power.voutFails := 0, power.vcoreSafe := c.power.straps.vsafe } : Chip).emit
      0x25 1 0 cause (c.power.setpoint * 65536 + c.power.vout)

/-- READ_VOUT agrees with the commanded value (R35). -/
def voutFits (c : Chip) (mv : Nat) : Bool := decide (mv ≤ c.power.setpoint + 15) && decide (c.power.setpoint ≤ mv + 15)

/-- READ_VOUT reports the new value of a raise (R34): it agrees with the setpoint and lies nearer to it than to the setpoint
before the raise (log 67). -/
def voutRaised (c : Chip) (mv : Nat) : Bool := c.voutFits mv && decide (c.power.setpoint + c.power.raisedFrom < 2 * mv)

/-- An evaluation of the margin (R34). What READ_VF_STATE shows as present is the M of the last evaluation, also in FIXED
and while a raise settles (R37; log 67). -/
def evaluate (c : Chip) (m : Nat) : Chip :=
  let p := c.power
  if p.stage != .s4 || p.fixed || p.settling then c
  else
    let raise := fun (mv : Nat) =>
      let new := min 850 (p.setpoint + mv)
      let c : Chip := { c with power.margin := m, power.wide := 0 }
      if new = p.setpoint then c
      else ({ c with power.setpoint := new, power.settling := true, power.raisedFrom := p.setpoint, power.raises := (p.raises + 1) % 2 ^ 32 } : Chip).count 0xF8E 1
    if m < 1020 then raise 25
    else if m < 1050 then raise 10
    else if m < 1080 then { c with power.margin := m, power.wide := 0 }
    else if p.wide + 1 < 4 then { c with power.margin := m, power.wide := p.wide + 1 }
    else
      let new := max (min p.setpoint c.floorMv) (p.setpoint - 5)
      let c : Chip := { c with power.margin := m, power.wide := 0 }
      if new = p.setpoint then c
      else ({ c with power.setpoint := new, power.lowers := (p.lowers + 1) % 2 ^ 32 } : Chip).count 0xF8F 1

/-- READ_VOUT as the loop reads it (R34, R35): the value ends the settling of a raise; two readings out of 15 mV in FOLLOW
enter FIXED. -/
def checkVout (c : Chip) (mv : Nat) : Chip :=
  let ok := c.voutFits mv
  let c : Chip := { c with power.vout := mv % 65536, power.settling := c.power.settling && !c.voutRaised mv }
  if c.power.stage != .s4 || c.power.fixed then c
  else if ok then { c with power.voutFails := 0 }
  else if 2 ≤ c.power.voutFails + 1 then c.enterFixed 3
  else { c with power.voutFails := c.power.voutFails + 1 }

/-- The answer of the regulator for the commands that wait on it (R35, R344). -/
def answerPmbus (c : Chip) (status : Nat) (data : List Byte) : Chip :=
  { c with mbx.boxes := c.mbx.boxes.mapVals fun _ (b : Mailbox) =>
      match b.parked with
      | some k => if k.on = .pmbus && k.answer.isNone then { b with parked := some { k with answer := some (status, data) } } else b
      | none => b }

/-- A bus fault of a controller (R494): 1 SCL held, 2 transaction time, 3 STUCK. -/
def busFault (c : Chip) (mc cause addr : Nat) : Chip := c.emit 0x29 1 mc cause addr

/-- A transaction ends in a bus fault (R494): the bus clear then runs (R35, R495), once or twice, and may find the bus STUCK, which
no operand says (log 35). -/
def busCleared (c : Chip) (mc cause addr : Nat) : Chip :=
  let k := c.fresh 35 [mc] % 3
  let c := (c.busFault mc cause addr).drawn
  c.setMc mc { c.mc mc with clears := (c.mc mc).clears + min 2 (k + 1), stuck := k == 2 }

/-- A failed PMBus transaction (R35): the third in a row enters FIXED. -/
def pmbusFailed (c : Chip) : Chip :=
  let n := c.power.pmbusFails + 1
  let c := (if 3 ≤ n then ({ c with power.pmbusFails := 0 } : Chip).enterFixed 1 else { c with power.pmbusFails := n } : Chip)
  c.answerPmbus 1 []

/-- STATUS_WORD (R35, R475): the bits of its faults and of IOUT_OC_WARN are PMBus's (log 35). -/
def statusWord (c : Chip) (v : Nat) : Chip :=
  let fault := bits v 2 4 != 0 || bit v 15 || bit v 13
  let c : Chip := { c with power.ocWarn := bit v 14 && !bit v 4 }
  if fault then c.enterFixed 4 else c

/-- The controller that serves a module site (R493). -/
def mcOf (site : Nat) : Nat := if site ≤ 5 then 0 else if site ≤ 10 then 1 else 2

/-- A transaction of a controller (R493 to R496): the bus clear before its START, and how it ends. -/
def transact (c : Chip) (mc : Nat) (req : McReq) (clear : McClear) (res : McEnd) : Chip :=
  let site := match req with | .module s => some s.val | _ => none
  let mine := match site with | some s => mcOf s == mc | none => mc == 3
  let addr := match site with | some s => s | none => Config.regulatorAddress.toNat
  if !mine then c
  else
    let m := c.mc mc
    let sel := match site with | some s => s - (if mc = 0 then 0 else if mc = 1 then 6 else 11) | none => m.sel
    let m : McSt := { m with sel := sel, abandoned := false }
    let m := match clear with
      | .free => { m with clears := m.clears + b2n m.stuck, stuck := false }
      | .freed k => { m with clears := m.clears + 1 + k.val, stuck := false }
      | .stuck => { m with clears := m.clears + 2, stuck := true }
    let c := c.setMc mc m
    let failed := fun (c : Chip) => if mc = 3 then c.answerPmbus 1 [] else c
    if m.stuck then failed (c.busFault mc 3 addr)
    else match res with
    -- a held SCL is the bus timeout of R35
    | .sclHeld => failed (let c := c.busCleared mc 1 addr; if mc = 3 then c.enterFixed 2 else c)
    | .tooLong => failed (c.busCleared mc 2 addr)
    | .nack => if mc = 3 then c.pmbusFailed else c
    | .pecError => if mc = 3 then c.pmbusFailed else c
    | .arbitrationLost => if mc = 3 then c.pmbusFailed else c
    | .ok v =>
      match req with
      | .voutCommand => { c with power.pmbusFails := 0 }
      | .readVout =>
        let c : Chip := { c with power.pmbusFails := 0, power.vout := v % 65536,
                                 power.settling := c.power.settling && !c.voutRaised v }
        c.answerPmbus 0 (le 2 v)
      | .statusWord => ({ c with power.pmbusFails := 0 } : Chip).statusWord v
      | .module s => c.setModule s.val { present := true, ready := true, flags := v }

/-- The highest of a list of readings. -/
def hottest (l : List Int) : Int := match l with | [] => -400 | a :: l => l.foldl max a

def tjLogic (c : Chip) : Int := hottest (c.power.temps.take 32)
def tjStack (c : Chip) : Int := hottest (c.power.temps.drop 32)

/-- Entry and exit of each step (R475), 0.1 °C: logic, stack. -/
def entryOf (k : Nat) : Int × Int := if k = 1 then (1010, 910) else if k = 2 then (1030, 930) else (1040, 940)
def exitOf (k : Nat) : Int × Int := if k = 1 then (980, 880) else if k = 2 then (1000, 900) else (1010, 910)

/-- A step's entry is reached (R475). -/
def reached (c : Chip) (k : Nat) : Bool :=
  decide ((entryOf k).1 ≤ c.tjLogic) || decide ((entryOf k).2 ≤ c.tjStack) || c.power.ocWarn

/-- Every reading lies below a step's exit (R475). -/
def cool (c : Chip) (k : Nat) : Bool :=
  decide (c.tjLogic < (exitOf k).1) && decide (c.tjStack < (exitOf k).2) && !(k == 3 && c.power.ocWarn)

/-- The sensor that a THERMAL record names, and its reading: the hottest, of the stacks where only they reach the entry. -/
def hotSensor (c : Chip) (k : Nat) : Nat × Int :=
  let at_ := fun (o : Nat) (v : Int) => match (c.power.temps.drop o).findIdx? (· == v) with | some i => o + i | none => o
  if decide ((entryOf k).2 ≤ c.tjStack) && decide (c.tjLogic < (entryOf k).1) then (at_ 32 c.tjStack, c.tjStack)
  else (at_ 0 c.tjLogic, c.tjLogic)

/-- Steps are entered in ascending order (R475, R476). -/
def enterSteps (c : Chip) : Chip :=
  let top := if c.reached 3 then 3 else if c.reached 2 then 2 else if c.reached 1 then 1 else 0
  c.foldC ((List.range 4).filter fun k => decide (c.power.step < k) && decide (k ≤ top)) fun c k =>
    let h := c.hotSensor k
    let c : Chip := { c with power.step := k, power.coolSince := none,
                             power.preview := if k = 2 then 1 else c.power.preview }
    c.emit 0x26 1 h.1 (256 + k) (unsigned 64 h.2)

/-- A sensor is excluded (R474): out of range, or 15 °C from both of its neighbours. -/
def sensorBad (raw : List Int) (i : Nat) : Bool :=
  let v := raw.getD i 0
  let far := fun (j : Nat) => decide (150 < (v - raw.getD j 0).natAbs)
  decide (v < -400) || decide (1500 < v) || (far ((i + 1) % 32) && far ((i + 31) % 32))

/-- The readings of 1 ms (R474 to R479, R436). -/
def readSensors (c : Chip) (raw : List Int) : Chip :=
  let bad := (List.range 32).filter (sensorBad raw)
  let used := (List.range 36).map fun i =>
    if bad.contains i then max (raw.getD ((i + 1) % 32) 0) (raw.getD ((i + 31) % 32) 0) + 50 else raw.getD i 0
  let new := bad.filter fun i => !c.power.excluded.contains i
  let c : Chip := { c with power.temps := used, power.excluded := bad }
  let c := c.foldC new fun c i => c.emit 0x26 1 i 768 (unsigned 64 (raw.getD i 0))
  let past := c.power.tjPast
  let rise := match past.getLast? with
    | some o => quot ((c.tjLogic - o) * 1000) (max 1 past.length)
    | none => 0
  let c : Chip := { c with power.rise := rise, power.tjPast := (c.tjLogic :: past).take 1000 }
  let c := c.enterSteps
  let k := c.power.step
  let c : Chip := { c with
    power.coolSince := if k != 0 && c.cool k then (match c.power.coolSince with | some t => some t | none => some c.up) else none }
  let c :=
    if c.power.fsHot then (if c.tjStack < 930 then { c with power.fsHot := false } else c)
    else if 950 < c.tjStack then ({ c with power.fsHot := true } : Chip).capacityFell 2 0
    else c
  c.judgeAll (decide (1080 < c.tjLogic) || decide (980 < c.tjStack)) 0x0F03 0

/-- A step is left (R475, R476). -/
def leaveStep (c : Chip) : Chip :=
  let k := c.power.step
  if k = 0 || !c.cool k || (k == 3 && c.power.throttle.any fun e => e.2 != 0) then c
  else
    let h := c.hotSensor 1
    let c := c.emit 0x26 1 h.1 (512 + k) (unsigned 64 h.2)
    let c : Chip := { c with power.step := k - 1, power.preview := if k = 2 then 0 else c.power.preview }
    { c with power.coolSince := if k - 1 != 0 && c.cool (k - 1) then some c.up else none }

/-- The priorities of started class B streams, lowest first. -/
def priorities (c : Chip) : List Nat :=
  (((c.store.streams.filter fun e => e.2.cls == 2 && e.2.started).map fun e => e.2.priority).eraseDups).mergeSort fun a b =>
    decide (a ≤ b)

/-- THROTTLE_B every 100 ms (R476). -/
def throttleStep (c : Chip) : Chip :=
  if c.power.step != 3 then c
  else
    let lvl := fun (p : Nat) => c.power.throttle.getD 0 p
    if c.reached 3 then
      match c.priorities.find? fun p => decide (lvl p < 3) with
      | some p => { c with power.throttle := c.power.throttle.put p (lvl p + 1) }
      | none => c
    else if c.cool 3 then
      match (c.power.throttle.filter fun e => e.2 != 0).getLast? with
      | some e => { c with power.throttle := c.power.throttle.put e.1 (e.2 - 1) }
      | none => c
    else c

/-- The device holds itself in reset, or RESET# is low (R441, R457): the SAFE pins show the safe state. -/
def holdReset (c : Chip) : Chip :=
  { c with power.held := true, safety.safe := true, safety.beat := false, safety.resume := false, safety.pinA := false,
           safety.pinB := true }

end Chip

end Sys2Proof.Machine
end

