-- ==== Sys2Proof/Machine/Fw.lean ====
section
/-! DEFINITION. The firmware family of the command set (R378) and the ends of its tickets (R380, R451, R463). -/

namespace Sys2Proof.Machine

def Chip.image (c : Chip) (i : Nat) : ImageSt := if i = 0 then c.board.imageA else c.board.imageB

def Chip.putImage (c : Chip) (i : Nat) (v : ImageSt) : Chip :=
  if i = 0 then { c with board.imageA := v } else { c with board.imageB := v }

/-- An image is the running one; in recovery none runs (R463). -/
def Chip.runs (c : Chip) (i : Nat) : Bool := !c.power.recovery && c.board.running == i

/-- FW.READ_INFO (R378). -/
def cmdFwInfo : Cmd :=
  { opcode := 0x0C01, roles := [], size := fun r => r.length == 0,
    body := fun _ _ d =>
      let one := fun (v : ImageSt) => le 4 v.version ++ le 1 v.shown.1 ++ le 3 0 ++ le 4 v.shown.2
      .say (one d.chip.board.imageA ++ one d.chip.board.imageB ++ le 1 d.chip.mgmt.active ++ le 1 d.chip.board.running) }

def execFwReadInfo (mb : Nat) (req : List Byte) (s : State) : Out := s.onDevIf (validMb mb) (tilpo cmdFwInfo mb req)

/-- FW.WRITE_IMAGE (R378): data of an image into the staging area. -/
def cmdFwWrite : Cmd :=
  { opcode := 0x0C02, roles := [1, 2], size := fun r => decide (33 ≤ r.length) && decide (r.length ≤ 32 + 4064),
    body := fun _ r d =>
      let i := u8 r 0
      let n := r.length - 32
      if 1 < i then .no stBADARG
      else if d.chip.runs i then .no stBADSTATE
      else .commit fun d =>
        let v := d.chip.image i
        let top := max (v.staged.getD 0) (u32 r 4 + n)
        ({ d with chip := d.chip.putImage i { v with staged := some top },
                  mem := d.mem.writeBytes (imageBase i + u32 r 4) (r.drop 32) }, []) }

def execFwWriteImage (mb : Nat) (req : List Byte) (s : State) : Out := s.onDevIf (validMb mb) (tilpo cmdFwWrite mb req)

/-- FW.COMMIT_IMAGE (R378, R380). -/
def cmdFwCommit : Cmd :=
  { opcode := 0x0C03, roles := [1, 2], size := fun r => r.length == 8,
    body := fun _ r d =>
      let i := u8 r 0
      let open_ := d.chip.mbx.tickets.any fun t => match t.kind with | .fwCommit _ => true | _ => false
      if 1 < i then .no stBADARG
      else if d.chip.runs i || open_ then .no stBADSTATE
      else .later (fun _ => .fwCommit i) 0 fun _ d =>
        (d.onChip fun c => c.putImage i { c.image i with commitSize := u32 r 4 }, []) }

def execFwCommitImage (mb : Nat) (req : List Byte) (s : State) : Out := s.onDevIf (validMb mb) (tilpo cmdFwCommit mb req)

/-- The check of the signature and the write to flash have ended (R380). -/
def commitDone (ticket : Nat) (sigOk flashOk : Bool) (d : Dev) : Dev :=
  match d.chip.mbx.tickets.find? (·.id == ticket) with
  | none => d
  | some t =>
    match t.kind with
    | .fwCommit i =>
      let v := d.chip.image i
      let n := v.commitSize
      let ver := (Config.imageVersion (d.mem.readBytes (imageBase i) n)).toNat
      if !sigOk then d.onChip fun c => c.endTicket ticket stBADARG
      else if !flashOk then d.onChip fun c => (c.putImage i { v with state := 3, staged := none }).endTicket ticket stINTERNAL
      else d.onChip fun c => (c.putImage i { v with state := 2, staged := none, size := n, version := ver }).endTicket ticket stOK
    | _ => d

def execFwCommitComplete (ticket : Nat) (sigOk flashOk : Bool) (s : State) : Out := s.runDev (commitDone ticket sigOk flashOk)

/-- FW.ACTIVATE (R378, R451): the standby pair loads the image. -/
def cmdFwActivate : Cmd :=
  { opcode := 0x0C04, roles := [1, 2], size := fun r => r.length == 1,
    body := fun _ r d =>
      let i := u8 r 0
      if 1 < i then .no stBADARG
      else if (d.chip.image i).shown.1 != 2 || d.chip.runs i then .no stBADSTATE
      else .later (fun _ => .fwActivate i) 0 fun _ d =>
        (d.onChip fun c =>
          let b := 1 - c.mgmt.active
          if c.power.recovery || c.pairState b = .faulted then c else (c.setPair b .booting).setImage b i, []) }

def execFwActivate (mb : Nat) (req : List Byte) (s : State) : Out := s.onDevIf (validMb mb) (tilpo cmdFwActivate mb req)

/-- The end of an activation (R451): the standby pair has taken over, or its image has failed to start; in recovery the
device resets (R463). -/
def Chip.handover (c : Chip) (ticket : Nat) (started : Bool) : Chip :=
  match c.mbx.tickets.find? (·.id == ticket) with
  | none => c
  | some t =>
    match t.kind with
    | .fwActivate i =>
      let a := c.mgmt.active
      let b := 1 - a
      if c.power.recovery then
        let c := c.endTicket ticket stOK
        ({ c with board.marked := i, power.nextCause := 6 } : Chip).holdReset
      else if !started || c.pairState b != .booting then
        ((c.setPair b (if c.pairState b = .booting then .booting else c.pairState b)).setImage b c.board.running).endTicket
          ticket stINTERNAL
      else
        let c := ((c.setPair a .booting).setImage a i).takeOver b 2
        ({ c with board.marked := i, mgmt.mirrored := 0 } : Chip).endTicket ticket stOK
    | _ => c

def execFwActivateHandover (ticket : Nat) (started : Bool) (s : State) : Out := s.run fun c => c.handover ticket started

def fwCmds : List Cmd := [cmdFwInfo, cmdFwWrite, cmdFwCommit, cmdFwActivate]

end Sys2Proof.Machine
end

