-- ==== Sys2Proof/Machine/Host.lean ====
section
/-! DEFINITION. The host port commands of the command set (R302, R305, R307 to R310, R320, R370), the port status page
(R305, R306), BAR2 (R255, R309), configuration requests (R297 to R301, R319), and the events of a port and its functions
(R294 to R301, R315, R317). -/

namespace Sys2Proof.Machine

/-- HOST.SET_FUNCTIONS (R302, R313, R370): stored in flash for the next PERSTn# or device reset. -/
def cmdSetFunctions : Cmd :=
  { opcode := 0x0460, roles := [1], size := fun r => r.length == 4,
    body := fun _ r _ =>
      let p := u8 r 0
      let l := u8 r 1
      let pf := u8 r 2
      let vf := u8 r 3
      if 1 < p || l < 8 || 64 < l || l % 8 != 0 || pf < 30 || 37 < pf || !(vf == 0 || (decide (26 ≤ vf) && decide (vf ≤ 34))) then
        .no stBADARG
      else .doC fun c => c.setHost p { c.host p with stored := some (l, pf, vf) } }

def execHostSetFunctions (mb : Nat) (req : List Byte) (s : State) : Out :=
  s.onDevIf (validMb mb) (tilpo cmdSetFunctions mb req)

/-- Window entries of a function (R308). -/
def entries (f : Nat) : Nat := if f % 128 = 0 then 256 else 16

/-- log2 of a function's BAR2, 0 where it is absent (R302). -/
def bar2Log2 (c : Chip) (f : Nat) : Nat := if f % 128 = 0 then (c.host (f / 128)).pfBar2 else (c.host (f / 128)).vfBar2

/-- The geometry of a window (R308). -/
def windowOk (c : Chip) (f e kind log2 base : Nat) : Bool :=
  let others := (c.fn f).windows.filter fun w => w.1 != e && w.2.kind != 0
  decide (e < entries f) && (kind == 1 || kind == 2) && decide (21 ≤ log2) && decide (log2 ≤ 30) && base % 2 ^ log2 == 0 &&
    bar2Log2 c f != 0 && decide (base + 2 ^ log2 ≤ 2 ^ bar2Log2 c f) &&
    others.all (fun w => decide (base + 2 ^ log2 ≤ w.2.base) || decide (w.2.base + 2 ^ w.2.log2 ≤ base)) &&
    !(kind == 1 && others.any fun w => w.2.kind == 1)

/-- HOST.SET_WINDOW (R308, R370). -/
def cmdSetWindow : Cmd :=
  { opcode := 0x0461, roles := [2], size := fun r => r.length == 16, stage := 3,
    body := fun _ r d =>
      let c := d.chip
      let f := u8 r 1
      let e := u8 r 2
      let kind := u8 r 3
      let log2 := u8 r 4
      let mib := 2 ^ (log2 - 20)
      if 1 < u8 r 0 || !validFn f || f / 128 != u8 r 0 || 1 < u8 r 5 || !windowOk c f e kind log2 (u64 r 8) then .no stBADARG
      else if ((c.fn f).windows.getD WindowSt.reset e).kind != 0 || (kind == 2 && c.admitStopped) then .no stBADSTATE
      else match (if kind = 2 then c.shortOf none [] { res := 3, inst := 0, demand := mib * scale } else none) with
      | some x => .refuse stNOCAP x
      | none => .commit fun d =>
        let c := d.chip
        let h := if kind = 2 then c.hosts.nextBuf else 0
        let w : WindowSt := { kind := kind, write := u8 r 5 == 1, log2 := log2, base := u64 r 8, handle := h, refused := 0,
                              space := if kind = 2 then mib else 0 }
        let g := c.fn f
        let c := c.setFn f { g with windows := g.windows.put e w }
        if kind = 2 then
          ({ d with chip := { c with hosts.nextBuf := if h + 1 = 2 ^ 32 then 1 else h + 1 },
                    mem := d.mem.erase (bufBase h) (2 ^ log2) }, le 4 h)
        else ({ d with chip := c }, le 4 0) }

def execHostSetWindow (mb : Nat) (req : List Byte) (s : State) : Out :=
  s.onDevIf (validMb mb) (tilpo cmdSetWindow mb req)

/-- A function holds an active lease (R256). -/
def holdsLease (c : Chip) (f : Nat) : Bool := (List.range 64).any fun i => (c.lease f i).state == .active

/-- HOST.CLEAR_WINDOW (R308, R370). -/
def cmdClearWindow : Cmd :=
  { opcode := 0x0462, roles := [2], size := fun r => r.length == 3, stage := 3,
    body := fun _ r d =>
      let f := u8 r 1
      let e := u8 r 2
      if 1 < u8 r 0 || !validFn f || f / 128 != u8 r 0 || entries f ≤ e then .no stBADARG
      else if ((d.chip.fn f).windows.getD WindowSt.reset e).kind = 1 && holdsLease d.chip f then .no stBADSTATE
      else .commit fun d =>
        let g := d.chip.fn f
        let w := g.windows.getD WindowSt.reset e
        let c := d.chip
        let old := g.cleared.filter fun e => e.1 == c.up
        (d.onChip fun c => c.setFn f { g with windows := g.windows.drop e,
                                              cleared := if w.kind = 2 then (c.up, w) :: old else old }, []) }

def execHostClearWindow (mb : Nat) (req : List Byte) (s : State) : Out :=
  s.onDevIf (validMb mb) (tilpo cmdClearWindow mb req)

/-- HOST.FREEZE_PORT (R307, R317, R370). -/
def cmdFreezePort : Cmd :=
  { opcode := 0x0463, roles := [2], size := fun r => r.length == 1,
    body := fun _ r d =>
      let h := d.chip.host (u8 r 0)
      if 1 < u8 r 0 then .no stBADARG
      else if h.state != .service && h.state != .early then .no stBADSTATE
      else .doC fun c => c.dmaTraced fun c => c.freeze (u8 r 0) 8 }

def execHostFreezePort (mb : Nat) (req : List Byte) (s : State) : Out :=
  s.onDevIf (validMb mb) (tilpo cmdFreezePort mb req)

/-- HOST.RELEASE_PORT (R320, R370). -/
def cmdReleasePort : Cmd :=
  { opcode := 0x0464, roles := [2, 3], size := fun r => r.length == 1,
    body := fun x r d =>
      let p := u8 r 0
      if 1 < p || (x.mb < 256 && x.mb / 128 = p) then .no stBADARG
      else if 0x8000 ≤ x.mb then .no stNORIGHT
      else if (d.chip.host p).state != .frozen then .no stBADSTATE
      else .doC fun c => c.dmaTraced fun c => c.release p }

def execHostReleasePort (mb : Nat) (req : List Byte) (s : State) : Out :=
  s.onDevIf (validMb mb) (tilpo cmdReleasePort mb req)

/-- The code of a port's state (R305). -/
def HostState.code : HostState → Nat
  | .down => 0 | .early => 1 | .service => 2 | .frozen => 3

/-- The nine words of the port status page as function `f` sees them (R305). -/
def hostPage (c : Chip) (f : Nat) : List Nat :=
  let p := f / 128
  let h := c.host p
  let o := c.host (1 - p)
  let alt := (c.store.streams.filter fun e => e.2.prot && e.2.onAlt && !e.2.place.seam && e.2.place.altFn / 128 == p).length
  [h.state.code * 2 ^ 28 + Chip.linkWord h * 2 ^ 16 + p * 2 ^ 15 + f % 128, h.frzSeq * 2 ^ 16 + h.frzCause * 2 ^ 8,
   h.frzTime % 2 ^ 32, h.frzTime / 2 ^ 32, o.state.code * 2 ^ 28 + o.frzSeq, h.lateCpl * 2 ^ 16 + h.cplTimeout,
   h.unmapped * 2 ^ 16 + h.badAccess, h.failovers * 2 ^ 16 + min 65535 alt, (c.fn f).hpFlags]

/-- FRZ_STATUS to FRZ_EXTRA (R319); FRZ_CTRL reads 0. -/
def freezeRegs (c : Chip) (p : Nat) : List Nat :=
  let h := c.host p
  let froz := h.state == .frozen
  [h.frzSeq * 2 ^ 16 + h.frzCause * 2 ^ 8 + b2n ((c.host (1 - p)).state == .frozen) * 8 + b2n h.frzLink * 4 +
     b2n (froz && h.link) * 2 + b2n froz, h.frzTime % 2 ^ 32, h.frzTime / 2 ^ 32, 0, h.frzExtra]

/-- HOST.READ_STATUS (R307, R363, R370). -/
def cmdReadHost : Cmd :=
  { opcode := 0x0465, roles := [], size := fun r => r.length == 1,
    body := fun _ r d =>
      let p := u8 r 0
      if 1 < p then .no stBADARG else .say (wordBytes (hostPage d.chip (p * 128)) ++ wordBytes (freezeRegs d.chip p)) }

def execHostReadStatus (mb : Nat) (req : List Byte) (s : State) : Out :=
  s.onDevIf (validMb mb) (tilpo cmdReadHost mb req)

/-- HOST.CLEAR_COUNTS (R305, R307, R370). -/
def cmdClearHost : Cmd :=
  { opcode := 0x0466, roles := [2, 3], size := fun r => r.length == 1,
    body := fun _ r _ =>
      let p := u8 r 0
      if 1 < p then .no stBADARG
      else .doC fun c => c.setHost p { c.host p with lateCpl := 0, cplTimeout := 0, unmapped := 0, badAccess := 0,
                                                     failovers := 0 } }

def execHostClearCounts (mb : Nat) (req : List Byte) (s : State) : Out :=
  s.onDevIf (validMb mb) (tilpo cmdClearHost mb req)

/-- HP_STATE is read (R306): the function's latch takes the page. -/
def Chip.readHost (c : Chip) (f : Nat) : Chip :=
  let b := hostPage c f
  { c with rd := le 4 (b.getD 0 0), hosts.hpLatches := c.hosts.hpLatches.put f b }

def execHpStateRead (fn : Nat) (s : State) : Out := s.onRead (validFn fn) fn fun c => c.readHost fn

/-- The window that holds a whole access, if one does. -/
def windowAt (c : Chip) (f off len : Nat) : Option (Nat × WindowSt) :=
  List.find? (fun (e : Nat × WindowSt) => e.2.kind != 0 && decide (e.2.base ≤ off) && decide (off + len ≤ e.2.base + 2 ^ e.2.log2))
    (c.fn f).windows

/-- An access outside a usable window (R305, R309, R310). -/
def Chip.unmapped (c : Chip) (f : Nat) (w : Option (Nat × WindowSt)) : Chip :=
  let p := f / 128
  let h := c.host p
  let c := (c.setHost p { h with unmapped := sat 16 (h.unmapped + 1) }).count (0xD00 + 64 * p + 10) 1
  match w with
  | some (e, v) => c.setFn f { c.fn f with windows := (c.fn f).windows.put e { v with refused := sat 16 (v.refused + 1) } }
  | none => c

/-- The lease of a function whose slot holds a range: active, or ended at this very instant (R255). -/
def leaseAt (c : Chip) (f off len : Nat) : Option Nat :=
  let here := fun i => let l := c.lease f i; decide (l.offset ≤ off) && decide (off + len ≤ l.offset + l.size)
  match (List.range 64).find? fun i => (c.lease f i).state == .active && here i with
  | some i => some i
  | none => (List.range 64).find? fun i => (c.lease f i).state == .ended && (c.lease f i).endAt == some c.up && here i

/-- Leases of a function that ended before and whose slots a range touches (R255), whoever holds the place now. -/
def lateLeases (c : Chip) (f off len : Nat) : List Nat :=
  (List.range 64).filter fun i =>
    let l := c.lease f i
    l.state == .ended && l.endAt != some c.up && decide (off < l.offset + l.size) && decide (l.offset < off + len)

/-- A read comes after the end of a lease (R255): LATE_READ, whose first setting has an event. -/
def Chip.lateRead (c : Chip) (f i : Nat) : Chip :=
  let l := c.lease f i
  let c := c.setLease f i { l with lateRead := true }
  if l.lateRead then c else c.emit 0x2F 2 (f * 256 + i) 0 (l.gen * 2 ^ 32 + l.seq)

/-- The buffer that a read of a range reaches: of an entry in force, or of one cleared at this instant (R309). -/
def bufferAt (c : Chip) (f off len : Nat) : Option WindowSt :=
  match windowAt c f off len with
  | some (_, w) => if w.kind = 2 then some w else none
  | none => ((c.fn f).cleared.find? fun e =>
      e.1 == c.up && decide (e.2.base ≤ off) && decide (off + len ≤ e.2.base + 2 ^ e.2.log2)).map (·.2)

/-- A BAR2 read (R255, R309): a lease's data up to the instant of its end, a buffer's data, or bytes 0xFF. -/
def Chip.readBar2 (c : Chip) (mem : Mem) (f off len : Nat) : Chip :=
  let ones := List.replicate len (0xFF : Byte)
  match bufferAt c f off len with
  | some w => { c with rd := mem.readBytes (bufBase w.handle + (off - w.base)) len }.carry 2 0 len
  | none =>
    match windowAt c f off len with
    | none => { c.unmapped f none with rd := ones }
    | some (e, w) =>
      let here := leaseAt c f off len
      let c := c.foldC (lateLeases c f off len) fun c i => c.lateRead f i
      match here with
      | none => { c.unmapped f (some (e, w)) with rd := ones }
      | some i =>
        let l := c.lease f i
        { c with rd := (List.range len).map fun k => l.data.getD (off - l.offset + k) 0 }.carry 2 0 len

/-- A BAR2 access lies in the function's BAR2 (R302). -/
def inBar2 (c : Chip) (f off len : Nat) : Bool := bar2Log2 c f != 0 && decide (off + len ≤ 2 ^ bar2Log2 c f)

/-- A BAR2 read by a function; outside the function's BAR2 nothing claims it. -/
def State.bar2 (s : State) (fn off len : Nat) : Out :=
  s.onChipIf (validFn fn) fun c =>
    if inBar2 c fn off len then c.readBy fn off fun c => c.readBar2 s.mem fn off len else c.turnAway fn off

def execBar2LeaseRead (fn off len : Nat) (s : State) : Out := s.bar2 fn off len

def execBar2Read (fn off len : Nat) (s : State) : Out := s.bar2 fn off len

/-- A BAR2 write (R309): into a writable buffer, or discarded and counted. -/
def bar2Write (f off : Nat) (data : List Byte) (d : Dev) : Dev :=
  let c := d.chip
  if !c.reaches f || !inBar2 c f off data.length then d
  else match windowAt c f off data.length with
  | some (e, w) =>
    if w.kind = 2 && w.write then
      { chip := c.carry 2 0 data.length, mem := d.mem.writeBytes (bufBase w.handle + (off - w.base)) data }
    else { d with chip := c.unmapped f (some (e, w)) }
  | none => { d with chip := c.unmapped f none }

def execBar2Write (fn off : Nat) (data : List Byte) (s : State) : Out := s.onDevIf (validFn fn) (bar2Write fn off data)

/-- FRZ_CTRL with RELEASE set (R319, R320). -/
def Chip.frzCtrl (c : Chip) (p seq : Nat) : Chip :=
  let h := c.host p
  if h.state = .frozen && h.link && h.frzSeq = seq then c.dmaTraced fun c => c.release p else c

def execFrzCtrlRelease (port : Fin 2) (seq : Nat) (s : State) : Out := s.run fun c => c.frzCtrl port.val seq

/-- The Freeze Control capability (R319); where the next capability lies is not given (log 13). -/
def freezeCap (c : Chip) (f : Nat) : List Nat :=
  [(Config.pcieDword f 4096).toNat / 2 ^ 20 * 2 ^ 20 + 0x10023, 0x02000000 + 0x1F6E, 1] ++ freezeRegs c (f / 128)

/-- A register of which the spec gives the bits of `mask`; the others are PCI Express's, and free (log 13). -/
def givenBits (f reg mask value : Nat) : Nat :=
  ((Config.pcieDword f reg).toNat &&& (2 ^ 32 - 1 - mask)) ||| value

/-- Capability identifiers of a function in the order of R299, with PCI Express's codes (log 13); that of the 128.0 GT/s Physical
Layer capability is not among them. -/
def capabilityIds (f : Nat) : List Nat :=
  [0x01, 0x10, 0x11, 0x0001, 0x000E] ++
    (if f % 128 = 0 then [0x0010, 0x0003, 0x0019, 0x0025, 0x0026, 0x002A, 0x0031, 0x0027, 0x002F, 0x0032, 0x0023] else [])

/-- The step by which the addresses of a VF BAR of `size` bytes move (R301): at least the system page. -/
def vfStep (h : HostSt) (size : Nat) : Nat := max size (h.pageSize * 4096)

/-- The value of a field of a function's configuration space (R294, R298 to R302, R319); what PCI Express and not the spec gives
is left open (log 13). -/
def cfgRead (c : Chip) (f : Nat) (x : CfgField) : Nat :=
  let h := c.host (f / 128)
  let g := c.fn f
  let pf := f % 128 == 0
  let ofPf := fun (v : Nat) => if pf then v else 0
  match x with
  | .vendorDevice => if pf then 0x06721F6E else 0xFFFFFFFF
  | .classRevision => 0x11800010
  | .subsystem => h.subsys.2 * 65536 + h.subsys.1
  | .command => b2n g.mse * 2 + b2n g.bme * 4
  | .bar0 => ofPf (g.bar0 + 4)
  | .bar2 => ofPf (g.bar2 + 12)
  | .bar4 => 0
  | .powerCapabilities => givenBits f 0x2001 0xFE0000FF 0x01
  | .powerState => if g.d3 then 3 else 0
  -- FLR, Max_Payload_Size Supported 512 B
  | .deviceCapabilities => givenBits f 0x2002 0x10000007 0x10000002
  | .deviceControl => ofPf (h.mps * 32) + g.mrrs * 4096 + g.relaxed % 2 * 16 + g.relaxed / 2 * 2048
  -- 10-bit tags; Completion Timeout Ranges A, B and C, no Disable; no AtomicOp, LTR, TPH
  | .deviceCapabilities2 => givenBits f 0x2003 0x33BDF 0x30007
  | .deviceControl2 => ofPf h.cplValue
  -- the rate and width of R294; L0s and L1 unsupported
  | .linkCapabilities => givenBits f 0x2004 0xFFF 0x107
  | .msixControl => (c.vectors f - 1) + b2n g.msixMask * 2 ^ 14 + b2n g.msixOn * 2 ^ 15
  | .msixEntry v =>
    let e := g.msix.getD MsixEntry.reset v
    if v < c.vectors f then e.addr + e.data * 2 ^ 64 + b2n e.masked * 2 ^ 96 else 0
  | .aerStatus => g.aer
  | .aerHeader => leNat (wordBytes g.aerLog)
  -- ECRC generation and check capable
  | .aerCapability => givenBits f 0x2005 0xA0 0xA0
  | .ariCapability => givenBits f 0x2006 0xFF00 0
  | .sriovVfs => ofPf (63 * 65537)
  | .sriovOffset => ofPf 65537
  | .vfDevice => ofPf 0x06740000
  | .pageSizes => ofPf (2 ^ 19 - 1)
  | .systemPageSize => ofPf h.pageSize
  | .vfBar0 => ofPf (h.vfBar0 + 4)
  | .vfBar2 => if pf && h.vfBar2 != 0 then h.vfBar2Addr + 12 else 0
  | .sriovControl => ofPf (b2n h.vfEnable + b2n h.ari * 16)
  | .numVfs => ofPf h.numVfs
  | .serialNumber => ofPf Config.serial.toNat
  | .capability k => match (capabilityIds f)[k]? with | some i => givenBits f (0x3000 + k) 0xFFFF i | none => 0
  | .freeze o => ofPf ((freezeCap c f).getD (o / 4) 0)
  | .other r => (Config.pcieDword f r).toNat

/-- Bytes that a read of a field returns. -/
def cfgLen : CfgField → Nat
  | .bar0 => 8 | .bar2 => 8 | .bar4 => 8 | .vfBar0 => 8 | .vfBar2 => 8 | .serialNumber => 8
  | .msixEntry _ => 16 | .aerHeader => 16 | _ => 4

namespace Chip

/-- Pending vectors of a function that are no longer masked send their messages (R313). -/
def flushMsix (c : Chip) (f : Nat) : Chip :=
  let g := c.fn f
  if !g.msixOn || g.msixMask then c
  else
    let due := (g.msix.filter fun e => e.2.pending && !e.2.masked).map (·.1)
    c.foldC due fun c v =>
      let g := c.fn f
      (c.setFn f { g with msix := g.msix.put v { g.msix.getD MsixEntry.reset v with pending := false } }).msix f v

/-- A function enters D3hot: its objects are reset as by a function-level reset (R300). -/
def enterD3 (c : Chip) (f : Nat) : Chip :=
  if (c.fn f).d3 then c else c.foldC [f] fun c g => (c.resetObjects g).setFn g { (c.resetObjects g).fn g with d3 := true }

/-- A function returns to D0 as after a function-level reset (R300): of a PF with VF Enable clear, so every VF is reset (R301,
R315). -/
def leaveD3 (c : Chip) (f : Nat) : Chip :=
  if !(c.fn f).d3 then c
  else
    let c := if f % 128 = 0 && (c.host (f / 128)).vfEnable then c.vfOff (f / 128) else c
    (c.clearLatches f).resetConfig f

/-- VF Enable and NumVFs (R301): enabling resets nothing. -/
def setVfs (c : Chip) (p : Nat) (on : Bool) (n : Nat) : Chip :=
  let h := c.host p
  if on then (if h.vfEnable then c else c.setHost p { h with vfEnable := true, numVfs := n })
  else
    let d := if h.vfEnable then c.vfOff p else c
    d.setHost p { d.host p with numVfs := n }

/-- Max_Payload_Size of a PF (R295). -/
def setMps (c : Chip) (p code : Nat) : Chip := c.relink p { c.host p with mps := code }

/-- A configuration write (R295 to R302, R315, R319): bits that the spec or PCI Express do not let it write are kept. -/
def cfgWrite (c : Chip) (f : Nat) (x : CfgField) (v : Nat) : Chip :=
  let p := f / 128
  let h := c.host p
  let g := c.fn f
  let pf := f % 128 == 0
  match x with
  | .command =>
    let d := c.setBme f (bit v 2)
    if pf then d.setFn f { d.fn f with mse := bit v 1 } else d
  | .bar0 => if pf then c.setFn f { g with bar0 := v % 2 ^ 64 / 2 ^ 20 * 2 ^ 20 } else c
  | .bar2 => if pf then c.setFn f { g with bar2 := v % 2 ^ 64 / 2 ^ h.pfBar2 * 2 ^ h.pfBar2 } else c
  | .deviceControl =>
    let d := c.setFn f { g with mrrs := bits v 12 3, relaxed := b2n (bit v 4) + 2 * b2n (bit v 11) }
    let d := if pf && decide (bits v 5 3 ≤ 2) then d.setMps p (bits v 5 3) else d
    if bit v 15 then d.flrBegin f else d
  | .deviceControl2 => if pf then c.setHost p { h with cplValue := v % 16 } else c
  | .powerState => if v % 4 = 3 then c.enterD3 f else if v % 4 = 0 then c.leaveD3 f else c
  | .msixControl => (c.setFn f { g with msixOn := bit v 15, msixMask := bit v 14 }).flushMsix f
  | .msixEntry n =>
    if n < c.vectors f then
      let e := g.msix.getD MsixEntry.reset n
      (c.setFn f { g with msix := g.msix.put n { e with addr := v % 2 ^ 64, data := bits v 64 32, masked := bit v 96 } }).flushMsix f
    else c
  | .sriovControl => if pf then
      let d := c.setVfs p (bit v 0) h.numVfs
      d.setHost p { d.host p with ari := bit v 4 }
    else c
  | .numVfs => if pf && !h.vfEnable && decide (v ≤ 63) then c.setHost p { h with numVfs := v } else c
  | .aerStatus => c.setFn f { g with aer := clearBits g.aer v }
  | .systemPageSize => if pf && (List.range 19).any (fun k => 2 ^ k == v) then c.setHost p { h with pageSize := v } else c
  | .vfBar0 => if pf then c.setHost p { h with vfBar0 := v % 2 ^ 64 / vfStep h (2 ^ 20) * vfStep h (2 ^ 20) } else c
  | .vfBar2 =>
    let n := vfStep h (2 ^ h.vfBar2)
    if pf && h.vfBar2 != 0 then c.setHost p { h with vfBar2Addr := v % 2 ^ 64 / n * n } else c
  | .freeze o => if pf && o == 0x18 && bit v 0 then c.frzCtrl p (v / 65536 % 65536) else c
  | _ => c

/-- A configuration request (R297), which completes through the transmit queue, in a frozen port too (R318): before the port
is ready with Request Retry Status, of a function that is not there with UR. -/
def configReq (c : Chip) (f : Nat) (x : CfgField) (write : Option Nat) : Chip :=
  let h := c.host (f / 128)
  let none_ : Chip := { c with rd := [] }
  if !h.link then none_
  else if !h.ready then none_.complete f 2 0
  else if !(c.portFns (f / 128)).contains f then none_.complete f 1 0
  else match write with
    | none => ({ c with rd := le (cfgLen x) (cfgRead c f x) } : Chip).complete f 0 0
    | some v => ({ c.dmaTraced fun c => c.cfgWrite f x v with rd := [] } : Chip).complete f 0 0

/-- PERSTn# is deasserted (R297): the port trains and answers; from S2 on at once, which is within the 60 ms. -/
def perstOff (c : Chip) (p : Nat) : Chip :=
  c.setHost p { c.host p with perst := false, ready := c.mailboxUp }

/-- The level of PERSTn# alone, which the device sees while it is held in reset (R297). -/
def perstPin (c : Chip) (p : Nat) (low : Bool) : Chip := c.setHost p { c.host p with perst := low, ready := false }

end Chip

def execConfigRequest (fn : Nat) (field : CfgField) (write : Option Nat) (s : State) : Out :=
  s.onChipIf (validFn fn) fun c => c.configReq fn field write

def execFlrInitiate (fn : Nat) (s : State) : Out := s.dma (validFn fn) fun c => c.flrBegin fn

def execFlrComplete (fn : Nat) (s : State) : Out :=
  s.dma (validFn fn) fun c => if (c.fn fn).flr then c.flrEnd fn else c

def execD3hotEntry (fn : Nat) (s : State) : Out := s.dma (validFn fn) fun c => c.enterD3 fn

def execD0Return (fn : Nat) (s : State) : Out := s.dma (validFn fn) fun c => c.leaveD3 fn

def execBusMasterEnableClear (fn : Nat) (s : State) : Out := s.dma (validFn fn) fun c => c.setBme fn false

def execBusMasterEnableSet (fn : Nat) (s : State) : Out := s.dma (validFn fn) fun c => c.setBme fn true

def execVfEnableChange (port : Fin 2) (enable : Bool) (numVfs : Nat) (s : State) : Out :=
  s.dma (decide (numVfs ≤ 63)) fun c => c.setVfs port.val enable numVfs

def execMpsChange (port : Fin 2) (code : Nat) (s : State) : Out :=
  s.dma (decide (code ≤ 2)) fun c => c.setMps port.val code

def execPerstAssert (port : Fin 2) (s : State) : Out :=
  .next (s.onChip fun c => if c.power.held then c.perstPin port.val true else c.dmaTraced fun c => c.perstOn port.val)

def execPerstDeassert (port : Fin 2) (s : State) : Out :=
  .next (s.onChip fun c => if c.power.held then c.perstPin port.val false else c.perstOff port.val)

def execDlActiveReached (port : Fin 2) (rate width : Nat) (flit : Bool) (s : State) : Out :=
  s.dma (linkOk rate width) fun c => c.linkUp port.val rate width flit

def execDlActiveLost (port : Fin 2) (s : State) : Out := s.dma true fun c => c.linkDown port.val

/-- A trained port takes another rate or width (R294, R295): in FLIT mode where both ends support it. -/
def Chip.retrain (c : Chip) (p rate width : Nat) : Chip :=
  let h := c.host p
  if h.link then c.relink p { h with rate := rate, width := width, flit := h.flitBoth || decide (6 ≤ rate) } else c

def execLinkRetrain (port : Fin 2) (rate width : Nat) (s : State) : Out :=
  s.dma (linkOk rate width) fun c => c.retrain port.val rate width

/-- A poisoned memory write (R317): AER of the function it addresses, which the row does not name (log 59). -/
def Chip.poisoned (c : Chip) (p : Nat) : Chip :=
  let l := c.portFns p
  (c.aerNote (l.getD (c.fresh 59 [p] % l.length) (128 * p)) 12).freeze p 5

/-- An uncorrectable error of the port (R317): Data Link Protocol, Flow Control, Receiver Overflow, Malformed TLP or internal,
which the row does not say (log 59); AER records it in every function. -/
def Chip.portError (c : Chip) (p : Nat) : Chip :=
  let k := [4, 13, 17, 18, 22].getD (c.fresh 59 [p] % 5) 4
  (c.foldC (c.portFns p) fun c f => c.aerNote f k).freeze p 7

def execPoisonedWriteReceived (port : Fin 2) (s : State) : Out := s.dma true fun c => c.poisoned port.val

def execPortUeDetected (port : Fin 2) (s : State) : Out := s.dma true fun c => c.portError port.val

/-- The commands of the family. -/
def hostCmds : List Cmd :=
  [cmdSetFunctions, cmdSetWindow, cmdClearWindow, cmdFreezePort, cmdReleasePort, cmdReadHost, cmdClearHost]

end Sys2Proof.Machine
end

