-- ==== Sys2Proof/Machine/SeamBase.lean ====
section
/-! DEFINITION. What the lanes and the links of the Seam fabric share: link states and their records, PROBE, HELLO, what a
link sends, how it degrades and fails (R384, R386, R390, R391, R395, R401). -/

namespace Sys2Proof.Machine

/-- The code of a link's state (R384). -/
def linkCode : LinkState → Nat
  | .off => 0 | .training => 1 | .up => 2 | .degraded => 3 | .failed => 4 | .wiring => 5

/-- The UP links as a PROBE lists them (R395). -/
def probeLinkBytes (l : Nat) (k : LinkSt) : List Byte :=
  le 1 l ++ le 1 k.width ++ le 8 k.peerSerial ++ le 1 k.peerLink ++ [0]

/-- A header returns credit (R388, R392): U in blocks, the others in units of 16, at most 255 of each. -/
def creditPaid (owed : List Nat) : List Nat :=
  owed.mapIdx fun i n => if i = 0 then n - min 255 n else n - min 255 (n / 16) * 16

/-- CREDITS of a control block, bytes 12 to 15 (R388, R392): class U in blocks, P, B and M in units of 16. -/
def creditBytes (owed : List Nat) : List Byte :=
  (List.range 4).flatMap fun i => le 1 (min 255 (if i = 0 then owed.getD i 0 else owed.getD i 0 / 16))

/-- Bytes 0 to 25 of a flit's header as a link sends it (R388, R391). `again`: it is replayed. -/
def LinkSt.flitHead (k : LinkSt) (s : SentFlit) (again : Bool) : List Byte :=
  let f := s.flit
  le 1 0x80 ++ le 1 (f.cls % 4 + 32 * b2n f.alt + 128 * b2n again) ++ le 1 0 ++ le 2 (f.dest % 1024) ++ le 2 (f.src % 1024) ++
    le 1 f.kind ++ le 1 (f.payload.length / 32) ++ le 1 f.hops ++ le 2 (f.stream % 512) ++ creditBytes k.owed ++
    le 2 (k.rxFsn + 65535) ++ le 4 s.fsn ++ le 4 f.esn

/-- The check of a flit as it is sent (R390): CRC-32C over bytes 0 to 25 of its header and its payload. -/
def LinkSt.flitCheck (k : LinkSt) (s : SentFlit) (again : Bool) : Nat := crc32c (k.flitHead s again ++ s.flit.payload)

/-- A header's first 26 bytes, CRC_PREV, and the HCRC over both (R388, R532). -/
def sealed (head : List Byte) (prev : Nat) : List Byte := framed (head ++ le 4 prev)

/-- A flit's FLIT block (R387, R388). -/
def LinkSt.flitBlock (k : LinkSt) (s : SentFlit) (again : Bool) : List Byte := sealed (k.flitHead s again) k.crcPrev

/-- A LINK block (R387, R388, R391): the FSN of the next new flit, ACK, credit, and NAK where one is due. -/
def LinkSt.linkBlock (k : LinkSt) (nak : Bool) : List Byte :=
  sealed (le 1 0x81 ++ le 1 (64 * b2n nak) ++ le 10 0 ++ creditBytes k.owed ++ le 2 (k.rxFsn + 65535) ++ le 4 k.txFsn ++ le 4 0)
    k.crcPrev

/-- The blocks of flits that follow one another on a link, replayed ones marked (R387, R390): each FLIT block carries the
check of the flit before it. -/
def LinkSt.flitsOut (k : LinkSt) : List (SentFlit × Bool) → List (List Nat)
  | [] => []
  | (s, again) :: l =>
    (blockOf false (k.flitBlock s again) :: (pieces 32 s.flit.payload).map (blockOf true)) ::
      LinkSt.flitsOut { k with crcPrev := k.flitCheck s again, owed := creditPaid k.owed } l

/-- Bytes of the flits in a link's replay buffer (R391). -/
def LinkSt.replayBytes (k : LinkSt) : Nat := (k.replay.map fun s => 32 + s.flit.payload.length).foldl (· + ·) 0

/-- Kinds that reach the next device only, or are flooded by it (R389). -/
def oneHop (kind : Nat) : Bool := kind == 0x01 || kind == 0x02 || kind == 0x03 || kind == 0x40

namespace Chip

/-- The payload of this device's PROBE (R395). -/
def probePayload (c : Chip) : List Byte :=
  le 8 Config.serial.toNat ++ le 4 c.seam.pseq ++ le 2 ((c.seam.fixed <|> c.seam.id).getD 0xFFFF) ++
    le 1 (b2n c.seam.fixed.isSome + 2 * b2n c.seam.conflict) ++ le 1 c.upLinks.length ++
    c.upLinks.flatMap fun l => match c.link? l with | some k => probeLinkBytes l k | none => []

/-- Floods a PROBE (R395). -/
def sendProbe (c : Chip) : Chip :=
  let b := c.probePayload
  ({ c with seam.pseq := (c.seam.pseq + 1) % 2 ^ 32 } : Chip).flood 0x02 b none

/-- A device joins with its first UP link after a reset or after all were down (R397): SEAM.SET_ID takes effect. -/
def seamJoin (c : Chip) : Chip :=
  if c.seam.joined then
    if c.upLinks.isEmpty then { c with seam.joined := false } else c
  else if c.upLinks.isEmpty then c
  else
    let keep := c.seam.fixedNext.isNone || c.seam.fixedNext == c.seam.id
    { c with seam.joined := true, seam.fixed := c.seam.fixedNext, seam.conflict := false,
             seam.id := if keep then c.seam.id else none }

/-- A change of a link's state (R384): its record, the capacity it leaves (R28), and a PROBE (R395). -/
def setLinkState (c : Chip) (l : Nat) (st : LinkState) : Chip :=
  match c.link? l with
  | none => c
  | some k =>
    if k.state = st then c
    else
      let c := c.setLink l { k with state := st }
      let c := (c.emit 0x1D 1 l (linkCode k.state * 256 + linkCode st) 0).seamJoin
      let c := if st = .up then c.dropFault 2 l else c
      (if st = .up then c else c.capacityFell 6 l).sendProbe

/-- Puts a flit on a link with the next FSN (R391): its header returns credit, and its check goes into the CRC_PREV of the
next block (R390). -/
def sendOn (c : Chip) (l : Nat) (f : Flit) : Chip :=
  match c.link? l with
  | none => c
  | some k =>
    let sent : SentFlit := { fsn := k.txFsn, flit := f, replays := 0 }
    let k := { k with txFsn := (k.txFsn + 1) % 2 ^ 32, replay := k.replay ++ [sent], owed := creditPaid k.owed,
                      crcPrev := k.flitCheck sent false }
    ((c.setLink l k).count
      (0xD80 + 16 * l + f.cls) (1 + f.payload.length / 32)).carry 6 l f.payload.length

/-- The HELLO of a link (R384); the places of its fields are not stated (log 29). -/
def helloFlit (c : Chip) (l : Nat) (k : LinkSt) : Flit :=
  { kind := 0x01, cls := 3, src := 0, dest := 0, hops := 0, stream := 0, esn := 0, alt := false,
    payload := blocks (le 8 Config.serial.toNat ++ le 2 (c.seam.id.getD 0xFFFF) ++ le 1 l ++ le 1 k.width) }

/-- Every lane of a link is UP (R384): it sends its HELLO. A link that has failed stays FAILED until it is UP again. -/
def linkLanesUp (c : Chip) (l : Nat) : Chip :=
  match c.link? l with
  | none => c
  | some k =>
    if k.helloSent || k.rxUp != 2 ^ k.width - 1 then c
    else
      let c := if k.state = .failed then c else c.setLinkState l .training
      match c.link? l with
      | none => c
      | some k => (c.setLink l { k with helloSent := true }).sendOn l (c.helloFlit l k)

/-- Both HELLOs have passed (R384, R392): the link is UP and returns its buffers as credit. -/
def seamUp (c : Chip) (l : Nat) : Chip :=
  match c.link? l with
  | none => c
  | some k =>
    if !k.helloSent || !k.helloGot || k.state = .up || k.state = .degraded then c
    else
      (c.setLink l { k with owed := [16, 1024, 6144, 512], active := 2 ^ k.width - 1 }).setLinkState l
        (if k.rxUp = 2 ^ k.width - 1 then .up else .degraded)

/-- The parent of a SEAM time source (R405): the UP link whose peer is LOCKED with the fewest hops to the root, ties to the
lowest number. -/
def chooseParent (c : Chip) : Chip :=
  let ok := c.seam.links.filter fun e => (e.2.state = .up || e.2.state = .degraded) && e.2.peerLocked && e.2.peerHops != 0xFF
  let best := ok.foldl (fun (b : Option (Nat × Nat)) e =>
    match b with
    | some (_, h) => if e.2.peerHops < h then some (e.1, e.2.peerHops) else b
    | none => some (e.1, e.2.peerHops)) none
  match best with
  | none => { c with seam.parent := none, seam.hopsToRoot := if c.isRoot then 0 else 0xFF, seam.thetas := [] }
  | some (l, h) =>
    { c with seam.parent := some l, seam.hopsToRoot := if c.isRoot then 0 else min 0xFF (h + 1),
             seam.thetas := if c.seam.parent = some l then c.seam.thetas else [] }

/-- The link that traffic to a destination leaves on (R399, R401). -/
def RouteSt.inUse (r : RouteSt) : Nat := if r.usingAlt then r.alt else r.primary

/-- Reservations move with the routes (R403), and links that are then short report it (R28). -/
def moveResv (c : Chip) : Chip :=
  let move := fun (s : StreamSt) =>
    if s.place.seam then s.resv.filter (·.res != 6) ++ (c.demands s s.place).filter (·.res == 6) else s.resv
  let c : Chip := { c with
    store.streams := c.store.streams.mapVals fun _ (s : StreamSt) => { s with resv := move s },
    seam.hopResv := c.seam.hopResv.map fun (h : HopResv) =>
      let r := c.seam.routes.getD RouteSt.none h.dest
      if r.valid then { h with link := RouteSt.inUse r } else h }
  c.foldC c.upLinks fun c l => c.capacityFell 6 l

/-- A link whose numbering and credit start again with the next HELLO (R384, R391). -/
def cleared (k : LinkSt) : LinkSt :=
  { k with helloSent := false, helloGot := false, replay := [], crcPrev := 0, credit := [0, 0, 0, 0], owed := [0, 0, 0, 0],
           txFsn := 0, rxFsn := 0, nakSent := false, active := 0, peerLocked := false, peerHops := 0xFF }

/-- What a link was sending goes with it, and a parent is chosen anew where it was the parent (R391, R405). -/
def linkClear (c : Chip) (l : Nat) : Chip :=
  match c.link? l with
  | none => c
  | some k =>
    let c : Chip := { c with seam.queue := c.seam.queue.filter fun (x : QFlit) => x.out != some l }
    let c := c.setLink l (cleared k)
    if c.seam.parent == some l then c.chooseParent else c

/-- A link is OFF: its quad has left the SEAM role or its layout, or its lanes are in L2 (R384). -/
def linkOff (c : Chip) (l : Nat) : Chip := ((c.linkClear l).setLinkState l .off).dropFault 2 l

/-- A link fails (R391, R401): entries with an alternate switch to it, and the flits that it has not had acknowledged leave
there with ALT; those that carry ALT already are discarded and counted. Its numbering and credit start again with the next
HELLO. -/
def linkFail (c : Chip) (l : Nat) : Chip :=
  match c.link? l with
  | none => c
  | some k =>
    if k.state != .up && k.state != .degraded then c
    else
      let moves := fun (r : RouteSt) => r.valid && r.primary == l && !r.usingAlt && r.alt != 0xFF
      let n := (c.seam.routes.filter fun e => moves e.2).length
      let routed := k.replay.filter fun s => !(oneHop s.flit.kind)
      let again := routed.filter fun s =>
        let r := c.seam.routes.getD RouteSt.none s.flit.dest
        r.valid && r.primary == l && r.alt != 0xFF && !s.flit.alt
      let lost := (routed.filter fun s => s.flit.alt).length
      let q := again.map fun s => ({ inLink := none, out := none, flit := { s.flit with alt := true } } : QFlit)
      let c := c.linkClear l
      let c : Chip := { c with
        seam.routes := c.seam.routes.map fun (e : Nat × RouteSt) => if moves e.2 then (e.1, { e.2 with usingAlt := true }) else e,
        seam.queue := q ++ c.seam.queue }
      let c := c.setLink l
        { cleared k with replays := (k.replays + again.length) % 2 ^ 32, reroutes := (k.reroutes + n) % 2 ^ 32 }
      let c := ((c.count (0xD80 + 16 * l + 6) again.length).count (0xD80 + 16 * l + 7) n).count (0xD80 + 16 * l + 8) lost
      let c := (c.setLinkState l .failed).addFault 2 l
      let c := c.foldC (List.replicate (again.length + n) ()) fun c _ => c.traceOpen 7 0
      let c := if n = 0 then c else c.emit 0x1D 2 l 0 n
      if n = 0 then c else c.moveResv

/-- Lanes active for sending and lanes received decide between UP and DEGRADED; with every receive lane DOWN the link has
FAILED (R386). -/
def judgeLink (c : Chip) (l : Nat) : Chip :=
  match c.link? l with
  | none => c
  | some k =>
    if k.state != .up && k.state != .degraded then c
    else if (List.range k.width).all fun i => (c.lane (k.first + i)).state == .down then c.linkFail l
    else if k.rxUp = 2 ^ k.width - 1 ∧ k.active = 2 ^ k.width - 1 then c.setLinkState l .up
    else if k.state = .degraded then c.capacityFell 6 l
    else c.setLinkState l .degraded

/-- A flit in error or a gap of the FSN (R391): a LINK block with NAK goes out (`LinkSt.linkBlock`), and flits are discarded
until the expected one comes with REPLAY. A HELLO may be the flit in error, so a link whose lanes are UP answers too. -/
def nak (c : Chip) (l : Nat) : Chip :=
  match c.link? l with
  | none => c
  | some k =>
    let live := k.state == .up || k.state == .degraded || ((k.state == .training || k.state == .failed) && k.rxUp != 0)
    if k.nakSent || !live then c
    else ((c.setLink l { k with nakSent := true, naks := k.naks + 1 }).count (0xD80 + 16 * l + 5) 1).traceOpen 7 0

/-- The link of a lane and the lane's place in it. -/
def linkOf (c : Chip) (n : Nat) : Option (Nat × LinkSt) :=
  c.seam.links.findSome? fun e => if e.2.first ≤ n ∧ n < e.2.first + e.2.width then some e else none

/-- A lane of a link has gone DOWN: its link is judged (R386). -/
def linkLaneDown (c : Chip) (n : Nat) : Chip := match c.linkOf n with | some (l, _) => c.judgeLink l | none => c

/-- A receive lane of a link is UP, or has left UP (R384, R386). -/
def linkLane (c : Chip) (n : Nat) (up : Bool) : Chip :=
  match c.linkOf n with
  | none => c
  | some (l, k) =>
    let b := n - k.first
    let m := if up then setBit k.rxUp b else clearBits k.rxUp (2 ^ b)
    if m = k.rxUp then c
    else
      let c := c.setLink l { k with rxUp := m }
      if up && m == 2 ^ k.width - 1 && !k.helloSent then c.linkLanesUp l else c.judgeLink l

/-- The peer's RX_READY_MASK gives the lanes to send on (R386). -/
def linkReady (c : Chip) (n mask : Nat) : Chip :=
  match c.linkOf n with
  | none => c
  | some (l, k) =>
    let m := mask % 2 ^ k.width
    if (k.state = .up || k.state = .degraded) && m != k.active then (c.setLink l { k with active := m }).judgeLink l else c

end Chip

end Sys2Proof.Machine
end

