-- ==== Sys2Proof/Machine/LaneOps.lean ====
section
/-! DEFINITION. The line lanes' shared operations: the start budget, bring-up, loss and return of a lane, what its bond or
link makes of them, quads that start and change (R102, R112 to R117, R123 to R132). -/

namespace Sys2Proof.Machine

/-- The code of LN_STATE.STATE (R137). -/
def laneCode : LaneState → Nat
  | .off => 0 | .wait => 1 | .detect => 2 | .acquire => 3 | .blind => 4 | .align => 5 | .train => 6 | .qualify => 7
  | .up => 8 | .l1 => 9 | .l2 => 10 | .down => 11 | .test => 12

/-- The code of a quad's role (R137). -/
def roleCode : QuadRole → Nat | .off => 0 | .camera => 1 | .seam => 2

/-- T_up and T_down of a rate, 0.1 dB (R123). -/
def tUp (rate : Nat) : Nat := if rate < 2 then 170 else 175
def tDown (rate : Nat) : Nat := if rate < 2 then 145 else 150

/-- Symbol rate, GBd (R106). -/
def symbolRate (rate : Nat) : Nat := if rate = 0 then 56 else if rate = 3 then 14 else 28

/-- A swing and taps that an electrical mode admits (R121). -/
def swingOk (mode swing : Nat) (t : List Int) : Bool :=
  decide ((t.map Int.natAbs).foldl (· + ·) 0 ≤ 64) &&
    (if mode = 1 then decide (800 ≤ swing) && decide (swing ≤ 1200)
     else decide (400 ≤ swing) && decide (swing ≤ 900) && t.getD 0 0 == 0 && t.getD 4 0 == 0)

/-- A lane under a new electrical mode (R121): a swing and taps that the mode does not admit give way to the mode's lowest
swing and main tap 64 (log 7). -/
def LaneSt.inMode (l : LaneSt) (mode : Nat) : LaneSt :=
  if swingOk mode l.swing l.taps then l else { l with swing := if mode = 1 then 800 else 400, taps := [0, 0, 64, 0, 0] }

/-- Transmit precoding of a lane (R110): for PAM4 as LANE.SET_TX has set it, else ON in LR and OFF in VSR. -/
def preOf (l : LaneSt) (mode rate : Nat) : Bool := decide (rate < 2) && l.preSet.getD (mode == 1)

/-- Links of a SEAM layout: first lane within the quad, and width (R102, R367). -/
def layoutLinks (layout : Nat) : List (Nat × Nat) :=
  if layout = 0 then [(0, 1), (1, 1), (2, 1), (3, 1)] else if layout = 1 then [(0, 2), (2, 2)]
  else if layout = 2 then [(0, 4)] else [(0, 1), (1, 1), (2, 2)]

namespace Chip

/-- The lanes of a quad. -/
def quadLanes (q : Nat) : List Nat := [4 * q, 4 * q + 1, 4 * q + 2, 4 * q + 3]

/-- A quad holds a place in the start budget (R126): a lane of it is in ACQUIRE, BLIND, ALIGN or TRAIN, in an L1 that holds
TRAIN and so leads back to it, or has been admitted with its signal present. -/
def inBudget (c : Chip) (q : Nat) : Bool :=
  (quadLanes q).any fun n =>
    let l := c.lane n
    l.state == .acquire || l.state == .blind || l.state == .align || l.state == .train ||
      (l.state == .l1 && l.heldState == .train && !l.l1Long) || (l.state == .detect && l.signal)

/-- Quads in the start budget (R126). -/
def budgetUsed (c : Chip) : Nat := ((List.range 16).filter c.inBudget).length

/-- The budget takes a quad now (R126): it is in it, or there is room and no other quad waits. -/
def admits (c : Chip) (q : Nat) : Bool :=
  c.inBudget q || (decide (c.budgetUsed < 4) && (List.range 16).all fun i => i == q || (c.quad i).waitNo.isNone)

/-- A quad begins to wait (R126). -/
def beginWait (c : Chip) (q : Nat) : Chip :=
  let k := c.quad q
  if k.waitNo.isSome then c else c.setQuad q { k with waitNo := some c.up }

/-- A quad with no lane in WAIT no longer waits. -/
def endWait (c : Chip) (q : Nat) : Chip :=
  if (quadLanes q).any fun n => (c.lane n).state == .wait then c else c.setQuad q { c.quad q with waitNo := none }

/-- The place of a lane in its bond or link: index, width, parity (R116). -/
def placeOf (c : Chip) (n : Nat) : Nat × Nat × Bool :=
  match (c.quad (n / 4)).role with
  | .camera =>
    match List.find? (fun (e : Nat × PortSt) => e.2.configured && decide (e.1 ≤ n) && decide (n < e.1 + e.2.width)) c.cam.ports with
    | some e => (n - e.1, e.2.width, e.2.protection == 1)
    | none => (0, 1, false)
  | .seam => match c.linkOf n with | some e => (n - e.2.first, e.2.width, false) | none => (0, 1, false)
  | .off => (0, 1, false)

/-- A lane belongs to an enabled camera port or to a Seam link. -/
def placed (c : Chip) (n : Nat) : Bool := (c.portOf n).isSome || (c.linkOf n).isSome

/-- Lanes 1 to n of a camera bond, whose transmitters stay in L1 (R127). -/
def upperCam (c : Chip) (n : Nat) : Bool := (c.quad (n / 4)).role == .camera && decide (0 < (c.placeOf n).1)

/-- The fields of the alignment block that a transmitter sends now (R112, R115, R127, R173, R386). -/
def alignOut (c : Chip) (n : Nat) : AlignFields :=
  let l := c.lane n
  let q := c.quad (n / 4)
  let pl := c.placeOf n
  let ready := ((List.range pl.2.1).filter fun i => (c.lane (n - pl.1 + i)).state == .up).foldl (fun m i => m + 2 ^ i) 0
  { senderTag := Config.serial.toNat % 2 ^ 32, period := l.txPeriod, rxReady := ready, quiet := l.txQuiet, idle := l.txIdle,
    precode := l.txPre, rate := q.rate, role := roleCode q.role, parity := pl.2.2, width := Nat.log2 pl.2.1, laneIdx := pl.1 }

/-- The device's instant as OH_TIME carries it (R164, R404): T64 with its fraction, 10 bytes. -/
def stamp (c : Chip) : List Byte := le 10 c.time.tb

/-- Overhead slots 1 to 4 of the period that a transmitter starts now (R146, R164, R166, R387, R404): a lane that sends no
OH_TIME has OH_NULL in slot 2 (log 80). -/
def overheadOut (c : Chip) (n : Nat) : List (List Byte) :=
  let l := c.lane n
  let none_ := framed (le 1 0x7F)
  let pl := c.placeOf n
  match (c.quad (n / 4)).role, c.linkOf n with
  | .camera, _ =>
    let t := c.port (n - pl.1)
    [({ psnNext := t.txPsn, activeMask := 1, eqfRx := l.eqfNow, status := 0, protect := t.protection } : OhLane).bytes,
     if pl.1 = 0 then framed (le 1 0x71 ++ c.stamp ++ le 2 0 ++ le 10 (unsigned 80 t.corr) ++ le 1 t.corrSeq) else none_, none_, none_]
  | .seam, some (_, k) =>
    let first := (activeLanes k.active).headD 0
    let h := c.lane n
    [({ psnNext := k.txFsn, activeMask := k.active, eqfRx := l.eqfNow, status := 0, protect := 0 } : OhLane).bytes,
     if pl.1 = first then framed (le 1 0x71 ++ c.stamp ++ le 10 h.rxAt ++ le 2 ((h.far.map (·.period)).getD 0) ++
       le 1 c.seam.hopsToRoot ++ le 1 (discCode c.time.disc)) else none_, none_, none_]
  | _, _ => [none_, none_, none_, none_]

/-- Blocks 0 to 4 of the period that a transmitter starts now (R108). -/
def headOut (c : Chip) (n : Nat) : List Nat := alignBlockOf (c.alignOut n) :: (c.overheadOut n).map (blockOf false)

/-- R117 for one lane that is UP: the sticky flags of what fails, and WIRING of its link. -/
def judgeFit (c : Chip) (n : Nat) : Chip :=
  let l := c.lane n
  let pl := c.placeOf n
  match l.far with
  | none => c
  | some a =>
    let first := n - pl.1
    let same := match (c.lane first).far with | some z => z.senderTag == a.senderTag | none => true
    let wrong := a.laneIdx != pl.1 || a.width != Nat.log2 pl.2.1 || a.parity != pl.2.2 || a.rate != (c.quad (n / 4)).rate || !same
    let skewed := decide (10000 < l.skew.natAbs) || !c.skewOk n first pl.2.1
    let c := c.setLane n { l with flags := (if wrong then setBit l.flags 8 else l.flags) ||| (if skewed then 128 else 0) }
    match c.linkOf n with
    | some (k, s) => if (wrong || skewed) && s.state != .up && s.state != .degraded then c.setLinkState k .wiring else c
    | none => c

/-- A lane that is UP takes its place in its bond or link where R117 holds (R127, R129), and leaves the fault list there
at a period boundary (R445). -/
def joinLane (c : Chip) (n : Nat) (boundary : Bool) : Chip :=
  if (c.lane n).state != .up then c
  else
    let c := c.judgeFit n
    let pl := c.placeOf n
    let c := if boundary && (!c.placed n || c.laneFits n (n - pl.1) pl.2.1 pl.2.2) then c.dropFault 1 n else c
    match (c.quad (n / 4)).role with
    | .camera => match c.portOf n with
      | some p => (if boundary then c.judgeDegraded p else c).tryDiscover p
      | none => c
    | .seam =>
      match c.linkOf n with
      | some (_, k) =>
        let fits := c.laneFits n k.first k.width false
        if fits && (boundary || !(k.state == .up || k.state == .degraded)) then c.linkLane n true else c
      | none => c
    | .off => c

/-- A lane has left UP: its bond or link loses it (R129, R175, R386). -/
def lostLane (c : Chip) (mem : Mem) (n : Nat) : Chip :=
  let c := c.linkLane n false
  match c.portOf n with | some p => c.camLaneLost mem p | none => c

/-- Puts a lane into a state; leaving UP, or L1 for another state than UP, its bond or link
loses it, and a lane that goes DOWN has its link judged. -/
def laneTo (c : Chip) (mem : Mem) (n : Nat) (st : LaneState) : Chip :=
  let l := c.lane n
  let c := if l.state = st then c else (c.setLane n { l with state := st }).traceOpen 6 0
  let c := if st = .wait then c.beginWait (n / 4) else c.endWait (n / 4)
  if (l.state = .up ∨ l.state = .l1) ∧ st ≠ .up then c.lostLane mem n
  else if st = .down ∧ l.state ≠ .down then c.linkLaneDown n else c

/-- Which adaptation an attempt uses, 0 FULL, 1 QUICK, 2 PRESET (R125, R126, R129, R131). -/
def attemptOf (c : Chip) (n : Nat) (down : Bool) : Nat :=
  let l := c.lane n
  let q := c.quad (n / 4)
  let quick := if l.coeffs.contains q.rate && !l.forceFull then 1 else 0
  if c.stageNo < 4 && q.role == .camera then 2
  else if down then quick
  else if l.policy = 2 then 2 else if l.policy = 1 then quick else 0

/-- An attempt begins (R124, R126, R129): ACQUIRE, or WAIT while the start budget is full. `down`: it restarts after DOWN, or
leaves L1 through QUICK. -/
def beginAttempt (c : Chip) (mem : Mem) (n : Nat) (down : Bool) : Chip :=
  let l := c.lane n
  let down := down || l.restart
  let go := c.admits (n / 4)
  let c := c.setLane n
    { l with signal := true, restart := down, attempt := if go then c.attemptOf n down else l.attempt,
             forceFull := l.forceFull && !go, locked := false, matches_ := 0, missed := 0,
             badRun := 0, lowRun := 0, lowWindows := 0 }
  c.laneTo mem n (if go then .acquire else .wait)

/-- A phase overruns or QUALIFY fails (R124): ACQUIRE again, after a failed QUICK with FULL. -/
def attemptFails (c : Chip) (mem : Mem) (n : Nat) : Chip :=
  let l := c.lane n
  (c.setLane n { l with forceFull := l.forceFull || l.attempt == 1 }).beginAttempt mem n false

/-- A lane goes DOWN (R128): 1 signal loss, 2 comma, 3 EQF, 4 BAD codewords. With its signal present it leaves DOWN at
once (R129). -/
def laneDown (c : Chip) (mem : Mem) (n cause : Nat) : Chip :=
  let l := c.lane n
  let c := c.setLane n
    { l with flags := setBit (if cause = 1 then setBit l.flags 2 else l.flags) 0, downCount := sat 16 (l.downCount + 1),
             locked := false, forceFull := false, farReady := false, signal := cause != 1, quietSeen := false, l1Long := false }
  let c := (c.count (0x100 + 16 * n + 3) 1).emit 0xB 2 n cause l.eqfNow
  let c := if l.state = .up ∧ (c.placed n) then c.addFault 1 n else c
  let c := c.laneTo mem n .down
  if cause != 1 && (c.quad (n / 4)).synthLock then c.beginAttempt mem n true else c

/-- A lane starts from the beginning (R124, R126, R127): DETECT, or WAIT where the budget has no room. -/
def startLane (c : Chip) (mem : Mem) (n : Nat) : Chip :=
  let l := c.lane n
  let c := c.setLane n
    { l with signal := false, restart := false, forceFull := false, locked := false, matches_ := 0, missed := 0, far := none, farReady := false, txOn := false,
             txIdle := true, txQuiet := false, quietSeen := false, l1Long := false, badRun := 0, lowRun := 0, lowWindows := 0 }
  c.laneTo mem n (if c.admits (n / 4) then .detect else .wait)

/-- The lanes of a quad that are neither in L2 nor under test. -/
def liveLanes (c : Chip) (q : Nat) : List Nat :=
  (quadLanes q).filter fun n => (c.lane n).power != 2 && (c.lane n).state != .test

/-- A quad starts, or starts again (R118, R126, R130): its synthesiser locks anew, its lanes begin. -/
def startQuad (c : Chip) (mem : Mem) (q : Nat) : Chip :=
  let k := c.quad q
  let c := c.setQuad q { k with synthOn := true, synthLock := false }
  c.foldC (c.liveLanes q) fun c n => c.startLane mem n

/-- The core part of a quad start goes through the pacer (R466) where its synthesiser stood. -/
def requestQuad (c : Chip) (q : Nat) : Chip :=
  if (c.quad q).synthOn then c else c.requestStarts [{ kind := .quad, inst := q }]

/-- A quad goes OFF (R102): all lanes in L2, the synthesiser stopped. -/
def stopQuad (c : Chip) (mem : Mem) (q : Nat) : Chip :=
  let c := c.foldC (quadLanes q) fun c n =>
    let c := c.laneTo mem n .off
    c.setLane n { c.lane n with power := 2, signal := false, locked := false, far := none, farReady := false, txOn := false,
                                txIdle := true, txQuiet := false, quietSeen := false, l1Long := false, pattern := 0, loop := 0,
                                chkSync := false }
  c.setQuad q { c.quad q with synthOn := false, synthLock := false }

/-- The links of a quad go, and free their numbers (R385). -/
def dropLinks (c : Chip) (q : Nat) : Chip :=
  c.foldC (c.seam.links.filter fun e => e.2.quad == q) fun c e =>
    let c := c.linkOff e.1
    { c with seam.links := c.seam.links.drop e.1 }

/-- The links of a layout take the lowest free numbers (R385). -/
def makeLinks (c : Chip) (q layout : Nat) : Chip :=
  c.foldC (layoutLinks layout) fun c f =>
    match (List.range 16).find? fun i => (c.link? i).isNone with
    | none => c
    | some i => (c.setLink i { LinkSt.make q (4 * q + f.1) f.2 with state := .off }).setLinkState i .training

/-- The links of a quad that keeps its role and layout start again under their numbers (R385). -/
def restartLinks (c : Chip) (q : Nat) : Chip :=
  c.foldC (c.seam.links.filter fun e => e.2.quad == q) fun c e => c.setLinkState e.1 .training

/-- A quad takes a role, a mode and a layout (R102, R110, R125, R385, R465). -/
def setRole (c : Chip) (mem : Mem) (q : Nat) (role : QuadRole) (mode layout : Nat) : Chip :=
  let k := c.quad q
  if k.role = role ∧ k.mode = mode ∧ k.layout = layout then c
  else
    let c := if k.role = role ∧ k.mode = mode then c
      else c.foldC (quadLanes q) fun c n => c.setLane n { c.lane n with coeffs := [], forceFull := false }
    let c := if role = .off then c else c.requestQuad q
    let keep := decide (k.role = role ∧ k.layout = layout)
    let c := if keep then c.foldC (c.seam.links.filter fun e => e.2.quad == q) fun c e => c.linkOff e.1 else c.dropLinks q
    let c := c.stopQuad mem q
    let rate := if c.stageNo < 4 && role == .camera then 2 else k.cfgRate
    let c := c.setQuad q { c.quad q with role := role, mode := mode, layout := layout, rate := rate }
    let c := c.foldC (quadLanes q) fun c n =>
      c.setLane n { (c.lane n).inMode mode with power := if role = .off then 2 else 0, txPre := preOf (c.lane n) mode rate }
    let c := if role != .seam then c else if keep then c.restartLinks q else c.makeLinks q layout
    if role = .off then c else c.startQuad mem q

/-- The lanes of a camera quad leave UP at a commanded change of rate (R130): their ports are HELD, not LINKING (R175). -/
def leaveUp (c : Chip) (q : Nat) : Chip :=
  if (c.quad q).role != .camera then c
  else c.foldC (quadLanes q) fun c n =>
    let l := c.lane n
    if l.state = .up ∨ l.state = .l1 then (c.setLane n { l with state := .detect, signal := false }).traceOpen 6 0 else c

/-- Quads change their rate (R130): one LANE_RATE record, the lanes leave UP without a record of their own, camera ports are
held and their frames lost. -/
def changeRate (c : Chip) (mem : Mem) (quads : List Nat) (rate : Nat) : Chip :=
  let mask := (quads.map fun q => 2 ^ q).foldl (· + ·) 0
  let c := c.emit 0xB 3 mask rate 0
  let ports := (c.cam.ports.filter fun e => e.2.configured && (c.bondLanes e.1).any fun n => quads.contains (n / 4)).map (·.1)
  let c := c.foldC ports fun c p => c.portRateChange mem p
  let c := c.foldC quads Chip.leaveUp
  let c := c.foldC (ports.filter fun p => (c.port p).protection != 0) Chip.judgeDegraded
  let c := c.foldC quads fun c q => c.setQuad q { c.quad q with rate := rate }
  c.foldC quads fun c q =>
    if (c.quad q).role = .off then c
    else
      let mode := (c.quad q).mode
      let c := c.foldC (quadLanes q) fun c n => c.setLane n { c.lane n with txPre := preOf (c.lane n) mode rate }
      if (c.quad q).synthOn then c.startQuad mem q else c

end Chip

end Sys2Proof.Machine
end

