-- ==== Sys2Proof/Machine/Lane.lean ====
section
/-! DEFINITION. The line lane commands (R102 to R105, R125, R130 to R136, R367), the events of lanes, quads and the lane
reference clock (R113 to R131, R134, R136, R147) and the lane status page (R137, R138). -/

namespace Sys2Proof.Machine

/-- The block of a lane as words (R137). -/
def laneBlock (c : Chip) (n : Nat) : List Nat :=
  let l := c.lane n
  let q := c.quad (n / 4)
  let pl := c.placeOf n
  [laneCode l.state * 2 ^ 28 + roleCode q.role * 2 ^ 26 + q.rate * 2 ^ 24 + q.mode * 2 ^ 23 + b2n l.rxInv * 2 ^ 22 +
     b2n l.rxPre * 2 ^ 21 + b2n l.txInv * 2 ^ 20 + b2n l.txPre * 2 ^ 19 + l.policy * 2 ^ 17 + b2n l.frozen * 2 ^ 16 +
     pl.1 * 2 ^ 12 + Nat.log2 pl.2.1 * 2 ^ 9 + b2n pl.2.2 * 2 ^ 8 + b2n l.farReady * 2 ^ 7,
   l.eqfMin * 2 ^ 16 + l.eqfNow, l.cw % 2 ^ 32, l.cw / 2 ^ 32, l.corr % 2 ^ 32, l.corr / 2 ^ 32, l.bad % 2 ^ 32,
   l.bad / 2 ^ 32, l.downCount * 2 ^ 16 + l.lockCount, unsigned 16 l.skew, l.flags,
   l.pattern * 2 ^ 28 + l.loop * 2 ^ 26 + b2n l.chkSync * 2 ^ 25 + b2n (l.pattern != 0 && l.loop != 2) * 2 ^ 24 + l.injDone,
   l.chkErr % 2 ^ 32, l.chkErr / 2 ^ 32, l.chkBits % 2 ^ 32, l.chkBits / 2 ^ 32]

namespace Chip

/-- The configured ports whose bond spans more than one quad and holds a lane of a quad (R103). -/
def wideBonds (c : Chip) (q : Nat) : List (Nat × PortSt) :=
  c.cam.ports.filter fun e => e.2.configured && decide (4 < e.2.width) && decide (e.1 / 4 ≤ q) &&
    decide (q < (e.1 + e.2.width) / 4)

/-- A stream, an enabled camera port or a Seam route uses a quad (R105). -/
def quadUsed (c : Chip) (q : Nat) : Bool :=
  let inQuad := fun p => decide (p < 64) && (c.bondLanes p).any fun n => n / 4 == q
  c.store.streams.any (fun e => inQuad e.2.port) ||
    c.cam.ports.any (fun e => e.2.configured && e.2.state != .off && inQuad e.1) ||
    c.seam.links.any fun e => e.2.quad == q && c.seam.routes.any fun r =>
      r.2.valid && (r.2.primary == e.1 || r.2.alt == e.1)

/-- A link carries a route (R132). -/
def carriesRoute (c : Chip) (n : Nat) : Bool :=
  match c.linkOf n with
  | none => false
  | some e => c.seam.routes.any fun r => r.2.valid && (r.2.primary == e.1 || r.2.alt == e.1)

/-- Payload of a port's bond at a rate, kB/s (R106). -/
def bondPayload (t : PortSt) (rate : Nat) : Nat :=
  (if t.protection = 1 then t.width - 1 else t.width) * (lanePayload rate / 10 ^ 6)

end Chip

/-- The quads of a mask. -/
def maskQuads (m : Nat) : List Nat := (List.range 16).filter (bit m)

/-- The role code of LANE.SET_ROLE. -/
def roleOf (v : Nat) : QuadRole := if v = 1 then .camera else if v = 2 then .seam else .off

/-- LANE.SET_ROLE (R102, R103, R105, R367, R385). -/
def cmdSetRole : Cmd :=
  { opcode := 0x0201, roles := [2], size := fun r => r.length == 4, stage := 3, cfg := fun r _ => some (u8 r 0),
    body := fun _ r d =>
      let c := d.chip
      let q := u8 r 0
      let role := roleOf (u8 r 1)
      let layout := u8 r 3
      let held := (c.seam.links.filter fun e => e.2.quad != q).length
      let more := if role = .seam then (layoutLinks layout).length else 0
      let breaks := (c.wideBonds q).any fun e =>
        role != .camera || (List.range (e.2.width / 4)).any fun i => e.1 / 4 + i != q && (c.quad (e.1 / 4 + i)).mode != u8 r 2
      if 15 < q || 2 < u8 r 1 || 1 < u8 r 2 || 3 < layout || (role != .seam && layout != 0) || breaks ||
          decide (16 < held + more) then .no stBADARG
      else if c.quadUsed q || (role == .seam && decide (c.stageNo < 4)) then .no stBADSTATE
      else .commit fun d => (d.onChip fun c => c.setRole d.mem q role (u8 r 2) layout, []) }

def execLaneSetRole (mb : Nat) (req : List Byte) (s : State) : Out :=
  s.onDevIf (validMb mb) (tilpo cmdSetRole mb req)

/-- LANE.SET_RATE (R103, R105, R130, R465). -/
def cmdSetRate : Cmd :=
  { opcode := 0x0202, roles := [2], size := fun r => r.length == 4, stage := 3, cfg := fun r _ => some (u16 r 0),
    body := fun _ r d =>
      let c := d.chip
      let m := u16 r 0
      let rate := u8 r 2
      let part := (maskQuads m).any fun q => (c.wideBonds q).any fun e =>
        (List.range (e.2.width / 4)).any fun i => !bit m (e.1 / 4 + i)
      let small := c.cam.ports.any fun e => e.2.configured && bit m (e.1 / 4) &&
        c.store.streams.any fun s => s.2.port == e.1 && decide (Chip.bondPayload e.2 rate < s.2.rIn)
      if 3 < rate || m == 0 || part then .no stBADARG
      else if small then .no stBADSTATE
      else .commit fun d => (d.onChip fun c =>
        let c : Chip := { c with board.cfg := c.board.cfg.filter fun (i : CfgItem) =>
          !(i.opcode == 0x0202 && clearBits i.key m == 0) }
        let c := c.foldC (maskQuads m) fun c q => c.setQuad q { c.quad q with cfgRate := rate }
        if c.stageNo < 4 then c else c.changeRate d.mem (maskQuads m) rate, []) }

def execLaneSetRate (mb : Nat) (req : List Byte) (s : State) : Out :=
  s.onDevIf (validMb mb) (tilpo cmdSetRate mb req)

/-- The taps of a request, 1/64 of full swing. -/
def tapsOf (r : List Byte) (o : Nat) : List Int := (List.range 5).map fun i => i8 r (o + i)

/-- The maker's limits admit a swing, taps and precoding (R357, R367). -/
def TxLimits.allows (m : TxLimits) (swing : Nat) (taps : List Int) (pre : Bool) : Bool :=
  decide (m.swingMin ≤ swing) && decide (swing ≤ m.swingMax) &&
    (taps.zip m.tapMax).all (fun e => decide (e.1.natAbs ≤ e.2)) &&
    !(m.precode == 1 && pre) && !(m.precode == 2 && !pre)

/-- A lane's limits as a list of numbers, and back (R357): none is the empty list. -/
def limitsList (l : Option TxLimits) : List Nat :=
  match l with | none => [] | some m => [m.swingMin, m.swingMax, m.precode] ++ m.tapMax

def limitsFrom : List Nat → Option TxLimits
  | a :: b :: p :: t => some { swingMin := a, swingMax := b, tapMax := t, precode := p }
  | _ => none

/-- A setting lies within the maker's limits (R105, R357, R367). -/
def withinLimits (l : Option TxLimits) (r : List Byte) : Bool :=
  match l with
  | none => true
  | some m => m.allows (u16 r 4) (tapsOf r 6) (u8 r 3 == 1)

/-- The limits of a request (R367). -/
def limitsOf (r : List Byte) : TxLimits :=
  { swingMin := u16 r 2, swingMax := u16 r 4, tapMax := (List.range 5).map fun i => u8 r (6 + i), precode := u8 r 11 }

/-- A setting of LANE.SET_TX that is in force breaks new limits (R357). -/
def breaksLimits (l : LaneSt) (m : TxLimits) : Bool :=
  match l.preSet with
  | none => false
  | some pre => !m.allows l.swing l.taps pre

/-- A transmitter setting is one of the electrical mode (R110, R121, R367). -/
def settingOk (mode : Nat) (r : List Byte) : Bool :=
  decide (u8 r 2 ≤ 1) && decide (u8 r 3 ≤ 1) && swingOk mode (u16 r 4) (tapsOf r 6)

/-- LANE.SET_TX (R104, R105, R110, R111, R357, R367). -/
def cmdSetTx : Cmd :=
  { opcode := 0x0203, roles := [1, 2], size := fun r => r.length == (if u8 r 1 = 1 then 12 else 11), stage := 2,
    cfg := fun r _ => if u8 r 1 = 1 then some (u8 r 0) else none,
    body := fun x r d =>
      let c := d.chip
      let n := u8 r 0
      let l := c.lane n
      let q := c.quad (n / 4)
      if u8 r 1 = 1 then
        if !x.grantAll && x.role != 1 then .no stNORIGHT
        else if 63 < n || u16 r 4 < u16 r 2 || 2 < u8 r 11 then .no stBADARG
        else if breaksLimits l (limitsOf r) then .no stBADSTATE
        else .doC fun c =>
          (c.noteLimit 0 n (limitsList (c.lane n).limits)).setLane n { c.lane n with limits := some (limitsOf r) }
      else if 63 < n || 1 < u8 r 1 || !settingOk q.mode r then .no stBADARG
      else if !withinLimits (limitsFrom (c.limitFor x.mb 0 n (limitsList l.limits))) r then .no stLIMIT
      else .doC fun c =>
        c.setLane n { c.lane n with txInv := u8 r 2 == 1, txPre := u8 r 3 == 1 && decide (q.rate < 2),
                                    preSet := some (u8 r 3 == 1), swing := u16 r 4, taps := tapsOf r 6 } }

def execLaneSetTx (mb : Nat) (req : List Byte) (s : State) : Out :=
  s.onDevIf (validMb mb) (tilpo cmdSetTx mb req)

/-- A lane's attempt is under way, or it is UP: RESTART sends it back to ACQUIRE (R125). -/
def adapting (st : LaneState) : Bool :=
  st == .acquire || st == .blind || st == .align || st == .train || st == .qualify || st == .up

/-- LANE.SET_ADAPT (R125, R367). -/
def cmdSetAdapt : Cmd :=
  { opcode := 0x0204, roles := [2], size := fun r => r.length == 4, stage := 3,
    body := fun _ r d =>
      let n := u8 r 0
      let a := u8 r 1
      let l := d.chip.lane n
      if 63 < n || 3 < a || (a == 0 && decide (2 < u8 r 2)) then .no stBADARG
      else if l.state = .off ∨ l.state = .test then .no stBADSTATE
      else .commit fun d => (d.onChip fun c =>
        let l := c.lane n
        if a = 0 then c.setLane n { l with policy := u8 r 2 }
        else if a = 1 then (c.setLane n { l with frozen := true, heldDraw := if l.frozen then l.heldDraw else c.draw }).drawn
        else if a = 2 then c.setLane n { l with frozen := false }
        else if adapting l.state then (c.setLane n { l with restart := false, forceFull := false }).beginAttempt d.mem n false
        else c, []) }

def execLaneSetAdapt (mb : Nat) (req : List Byte) (s : State) : Out :=
  s.onDevIf (validMb mb) (tilpo cmdSetAdapt mb req)

namespace Chip

/-- The link of a lane is OFF while all its lanes are in L2, and TRAINING again with the first that leaves L2 (R384). -/
def linkPower (c : Chip) (n : Nat) : Chip :=
  match c.linkOf n with
  | none => c
  | some (l, k) =>
    let dark := (List.range k.width).all fun i => (c.lane (k.first + i)).power == 2
    if dark then (if k.state = .off then c else c.linkOff l) else if k.state = .off then c.setLinkState l .training else c

/-- LANE.SET_POWER takes effect (R118, R131). -/
def setPower (c : Chip) (mem : Mem) (n st : Nat) : Chip :=
  let l := c.lane n
  let q := n / 4
  if st = 2 then
    let c := c.laneTo mem n .l2
    let c := c.setLane n { c.lane n with power := 2, txOn := false, txIdle := true, txQuiet := false, signal := false,
                                         locked := false, far := none, farReady := false, quietSeen := false, l1Long := false,
                                         pattern := 0, loop := 0, chkSync := false, forceFull := false }
    let c := if (quadLanes q).all fun i => (c.lane i).power == 2 then
        c.setQuad q { c.quad q with synthOn := false, synthLock := false } else c
    c.linkPower n
  else
    let c := c.setLane n { l with power := st }
    let c := if l.power != 2 then c
      else
        let c := c.requestQuad q
        let k := c.quad q
        let c := if k.synthOn then c else c.setQuad q { k with synthOn := true, synthLock := false }
        let c := c.startLane mem n
        c.setLane n { c.lane n with restart := true }
    c.linkPower n

end Chip

/-- LANE.SET_POWER (R131, R132, R367). -/
def cmdSetPower : Cmd :=
  { opcode := 0x0205, roles := [2], size := fun r => r.length == 2, stage := 3,
    body := fun _ r d =>
      let c := d.chip
      let n := u8 r 0
      let st := u8 r 1
      if 63 < n || 2 < st then .no stBADARG
      else if c.portOf n == some n || c.carriesRoute n || (c.upperCam n && st != 1) ||
          ((c.quad (n / 4)).role == .off && st != 2) then .no stBADSTATE
      else .commit fun d => (d.onChip fun c => c.setPower d.mem n st, []) }

def execLaneSetPower (mb : Nat) (req : List Byte) (s : State) : Out :=
  s.onDevIf (validMb mb) (tilpo cmdSetPower mb req)

/-- LANE.SET_TEST (R133, R135, R367). -/
def cmdSetTest : Cmd :=
  { opcode := 0x0206, roles := [2], size := fun r => r.length == 4, stage := 3,
    body := fun _ r d =>
      let c := d.chip
      let n := u8 r 0
      let pat := u8 r 1
      let loop := u8 r 2
      let q := c.quad (n / 4)
      if 63 < n || 7 < pat || 2 < loop || 1 < u8 r 3 || (decide (5 < pat) && decide (1 < q.rate)) then .no stBADARG
      else if c.placed n || q.role == .off then .no stBADSTATE
      else .commit fun d => (d.onChip fun c =>
        let was := (c.lane n).state
        let w := (patternTaps pat).1
        let c := (c.setLane n { c.lane n with pattern := pat, loop := loop, checker := u8 r 3 == 1, chkSync := false,
                                              genReg := c.fresh 80 [n] % (2 ^ w - 1) + 1 }).drawn
        if pat != 0 || loop != 0 then
          let c := c.laneTo d.mem n .test
          c.setLane n { c.lane n with txOn := false, txSym := 0, locked := false, far := none, farReady := false }
        else if was = .test then c.startLane d.mem n else c, []) }

def execLaneSetTest (mb : Nat) (req : List Byte) (s : State) : Out :=
  s.onDevIf (validMb mb) (tilpo cmdSetTest mb req)

/-- LANE.INJECT (R136, R367). -/
def cmdInject : Cmd :=
  { opcode := 0x0207, roles := [2], size := fun r => r.length == 12, stage := 3,
    body := fun _ r d =>
      let n := u8 r 0
      let k := u8 r 1
      let size := u16 r 8
      let sizeOk := if k = 1 then decide (2 ≤ size) && decide (size ≤ 64)
        else if k = 3 then decide (1 ≤ size) && decide (size ≤ 10000) else size == 0
      if 63 < n || 3 < k || u16 r 2 == 0 || u32 r 4 == 0 || decide (1000000 < u32 r 4) || !sizeOk then .no stBADARG
      else if k = 3 ∧ d.chip.portOf n = some n then .no stBADSTATE
      else .doC fun c =>
        c.setLane n { c.lane n with injDone := 0,
                                    inj := some { kind := k, left := u16 r 2, interval := u32 r 4, size := size } } }

def execLaneInject (mb : Nat) (req : List Byte) (s : State) : Out :=
  s.onDevIf (validMb mb) (tilpo cmdInject mb req)

/-- LANE.READ_COEFFS (R104, R125, R367): what an equaliser holds is not stated (log 12); a frozen one holds it. -/
def cmdReadCoeffs : Cmd :=
  { opcode := 0x0208, roles := [], size := fun r => r.length == 1, stage := 3,
    body := fun _ r d =>
      let c := d.chip
      let n := u8 r 0
      if 63 < n then .no stBADARG
      else
        let l := c.lane n
        .ends stOK 0 ((List.range 58).map (Config.coeffByte n (if l.frozen then l.heldDraw else c.draw)) ++ le 2 l.eqfNow)
          fun d => d.onChip fun c => if (c.lane n).frozen then c else c.drawn }

def execLaneReadCoeffs (mb : Nat) (req : List Byte) (s : State) : Out :=
  s.onDevIf (validMb mb) (tilpo cmdReadCoeffs mb req)

/-- LANE.READ_STATUS (R363, R367). -/
def cmdReadLane : Cmd :=
  { opcode := 0x0209, roles := [], size := fun r => r.length == 1, stage := 3,
    body := fun _ r d => if 63 < u8 r 0 then .no stBADARG else .say (wordBytes (laneBlock d.chip (u8 r 0))) }

def execLaneReadStatus (mb : Nat) (req : List Byte) (s : State) : Out :=
  s.onDevIf (validMb mb) (tilpo cmdReadLane mb req)

/-- A lane with its counters and sticky flags cleared (R104, R137). -/
def LaneSt.cleared (l : LaneSt) : LaneSt :=
  { l with cw := 0, corr := 0, bad := 0, downCount := 0, lockCount := 0, flags := 0, chkErr := 0, chkBits := 0 }

/-- LANE.CLEAR_COUNTS (R104, R137, R367). -/
def cmdClearLane : Cmd :=
  { opcode := 0x020A, roles := [2, 3], size := fun r => r.length == 1, stage := 3,
    body := fun _ r _ =>
      let n := u8 r 0
      if 63 < n && n != 0xFF then .no stBADARG
      else .doC fun c =>
        { c with lanes.lanes := c.lanes.lanes.map fun (e : Nat × LaneSt) =>
            if n = 0xFF ∨ e.1 = n then (e.1, e.2.cleared) else e } }

def execLaneClearCounts (mb : Nat) (req : List Byte) (s : State) : Out :=
  s.onDevIf (validMb mb) (tilpo cmdClearLane mb req)

/-- LN_STATE is read (R138): the reader's latch takes the block. -/
def Chip.readLane (c : Chip) (view n : Nat) : Chip :=
  let b := laneBlock c n
  { c with rd := le 4 (b.getD 0 0), lanes.latches := c.lanes.latches.put (view * 64 + n) b }

def execLnStateRead (view : Nat) (lane : Fin 64) (s : State) : Out :=
  s.onRead (validView view) view fun c => c.readLane view lane.val

namespace Chip

/-- A quad synthesiser locks (R118, R126, R127, R130): its transmitters start alignment periods, and lanes whose signal came
before the lock go on. -/
def synthLocked (c : Chip) (mem : Mem) (q : Nat) : Chip :=
  let k := c.quad q
  if !k.synthOn || k.synthLock || !c.lanes.refOk || c.startWaits .quad q then c
  else
    let c := c.setQuad q { k with synthLock := true }
    let c := c.foldC (quadLanes q) fun c n =>
      let l := c.lane n
      if l.power = 0 ∧ l.state ≠ .test ∧ !c.upperCam n then c.setLane n { l with txOn := true, txIdle := true, txHead := [] } else c
    c.foldC (quadLanes q) fun c n =>
      let l := c.lane n
      if l.signal ∧ (l.state = .detect ∨ l.state = .down) then c.beginAttempt mem n (l.state == .down) else c

/-- The start budget admits the quad that has waited longest, of those that began together the lowest (R126). -/
def budgetAdmit (c : Chip) (mem : Mem) : Chip :=
  if 4 ≤ c.budgetUsed then c
  else
    let first := (List.range 16).foldl (fun (b : Option (Nat × Nat)) q =>
      match (c.quad q).waitNo, b with
      | none, _ => b
      | some t, none => some (t, q)
      | some t, some (u, r) => if t < u then some (t, q) else some (u, r)) none
    match first with
    | none => c
    | some (_, q) => c.foldC (quadLanes q) fun c n => if (c.lane n).state = .wait then c.laneTo mem n .detect else c

/-- The amplitude has exceeded 60 mV for 1 µs (R124, R126, R129, R131). Before its synthesiser locks a lane stays in DETECT
with a place in the start budget, or waits for one. -/
def signalIn (c : Chip) (mem : Mem) (n : Nat) : Chip :=
  let l := c.lane n
  if !(c.quad (n / 4)).synthLock then
    if l.state = .detect then
      let go := c.admits (n / 4)
      let c := c.setLane n { l with signal := true }
      if go then c else c.laneTo mem n .wait
    else if l.state = .wait ∨ l.state = .down then c.setLane n { l with signal := true } else c
  else if l.state = .detect then c.beginAttempt mem n false
  else if l.state = .down then c.beginAttempt mem n true
  else if l.state = .wait then c.setLane n { l with signal := true }
  else if l.state = .l1 then
    if l.l1Long then c.beginAttempt mem n true
    else (c.setLane n { l with quietSeen := false, signal := true, state := l.heldState }).traceOpen 6 0
  else c

/-- ACQUIRE ends (R124): BLIND under FULL, else ALIGN. -/
def acquired (c : Chip) (mem : Mem) (n : Nat) : Chip :=
  if (c.lane n).state = .acquire then c.laneTo mem n (if (c.lane n).attempt = 0 then .blind else .align) else c

/-- BLIND ends (R124). -/
def blindDone (c : Chip) (mem : Mem) (n : Nat) : Chip :=
  if (c.lane n).state = .blind then c.laneTo mem n .align else c

/-- TRAIN ends (R124, R126). -/
def trained (c : Chip) (mem : Mem) (n : Nat) : Chip :=
  if (c.lane n).state = .train then (c.setLane n { c.lane n with qualWindow := false }).laneTo mem n .qualify else c

/-- QUALIFY ends (R124, R125, R127): UP, and its place in the bond or link; it has failed where no window has closed in it. -/
def qualified (c : Chip) (mem : Mem) (n : Nat) (skew : Int) : Chip :=
  let l := c.lane n
  let rate := (c.quad (n / 4)).rate
  if l.state != .qualify then c
  else if !l.qualWindow then c.attemptFails mem n
  else
    let c := c.setLane n { l with coeffs := if l.coeffs.contains rate then l.coeffs else l.coeffs ++ [rate], skew := skew,
                                  eqfMin := l.eqfNow, forceFull := false, restart := false, quietSeen := false, l1Long := false, lowWindows := 0,
                                  lowRun := 0, badRun := 0 }
    ((c.laneTo mem n .up).emit 0xB 1 n 0 l.eqfNow).joinLane n false

/-- A phase overruns (R124); in ACQUIRE its input has not been tracked (R119). -/
def phaseLate (c : Chip) (mem : Mem) (n : Nat) : Chip :=
  let l := c.lane n
  if adapting l.state && l.state != .up then
    (if l.state = .acquire then c.setLane n { l with flags := setBit l.flags 9 } else c).attemptFails mem n
  else c

/-- An EQF window closes (R122 to R124, R128). -/
def eqfWindow (c : Chip) (mem : Mem) (n eqf : Nat) : Chip :=
  let eqf := min eqf 400
  let l := c.lane n
  let q := c.quad (n / 4)
  if !(adapting l.state || l.state == .test) then c
  else
    let low := decide (eqf < tDown q.rate) && (l.state == .train || l.state == .qualify || l.state == .up)
    let under := decide (eqf < tUp q.rate)
    let k := if under then l.lowWindows + 1 else 0
    let spans := fun (i : Nat) => decide (10 ^ 7 * symbolRate q.rate ≤ i * 2 ^ 20)
    let worn := l.state == .up && spans k && !spans (k - 1)
    let eqfMin := if l.state = .up then min l.eqfMin eqf else l.eqfMin
    let c := c.setLane n { l with eqfNow := eqf, eqfMin := eqfMin, lowRun := if low then l.lowRun + 1 else 0,
                                  lowWindows := if l.state = .up then k else 0,
                                  qualWindow := l.qualWindow || (l.state == .qualify && !under),
                                  flags := if worn then setBit l.flags 6 else l.flags }
    let c := if worn then c.emit 0xC 1 n 0 eqfMin else c
    if l.state = .qualify ∧ under then c.attemptFails mem n
    else if low ∧ 4 ≤ l.lowRun + 1 then c.laneDown mem n 3
    else c

/-- Signal loss has lasted 1 µs (R128, R131). -/
def signalOut (c : Chip) (mem : Mem) (n : Nat) : Chip :=
  let l := c.lane n
  let runs := l.state == .up || l.state == .train || l.state == .qualify
  if runs && l.quietSeen then
    let c := (c.setLane n { l with state := .l1, heldState := l.state, signal := false }).traceOpen 6 0
    if l.state = .up then c.linkLane n false else c
  else if runs then c.laneDown mem n 1
  else c.setLane n { l with signal := false }

/-- A codeword is decoded (R109, R123, R124, R128). -/
def codeword (c : Chip) (mem : Mem) (n symbols : Nat) : Chip :=
  let l := c.lane n
  if !l.delivers then c
  else
    let k := 0x100 + 16 * n
    if symbols ≤ 15 then
      ((c.setLane n { l with cw := l.cw + 1, corr := l.corr + symbols, badRun := 0 }).count k 1).count (k + 1) symbols
    else
      let up := l.state == .up
      let c := c.setLane n { l with cw := l.cw + 1, badRun := l.badRun + 1, bad := if up then l.bad + 1 else l.bad,
                                    flags := if up then setBit l.flags 5 else l.flags }
      let c := (c.count k 1).count (k + 2) 1
      if l.state = .qualify then c.attemptFails mem n
      else if 64 ≤ l.badRun + 1 then c.laneDown mem n 4
      else c

/-- The fields of an alignment block come into force (R112, R113, R127, R131, R174, R177, R386). IDLE follows the far end's
RX_READY bit, so that it is set again when that bit falls, on which R127 says nothing (log 52). -/
def alignFields (c : Chip) (mem : Mem) (n : Nat) (a : AlignFields) : Chip :=
  let l := c.lane n
  let pl := c.placeOf n
  let ready := bit a.rxReady pl.1
  let changed := match l.far with | some z => z.senderTag != a.senderTag | none => false
  let c := c.setLane n { l with far := some a, farReady := ready, txIdle := !ready, quietSeen := a.quiet, rxAt := c.time.tb }
  let c := c.linkReady n a.rxReady
  let c := match c.portOf n with
    | none => c
    | some p =>
      let t := c.port p
      -- the bond's new period ends what a wrong ACTIVE_MASK damaged (R177)
      let c := if c.headLane p = some n ∧ t.badPeriod then c.setPort p { t with badPeriod := false } else c
      let t := c.port p
      if changed then
        let old := portCode t.state
        let c := (c.setPort p { t with flags := setBit t.flags 2 }).toLinking mem p
        c.emit 0xD 3 p (old * 4096 + portCode (c.port p).state * 256 + t.cause) t.camTag
      else if n = p ∧ !ready then c.toLinking mem p
      else c
  c.joinLane n true

/-- What stands at an alignment position (R113, R114). The fields of a block with an invalid ROLE are not taken (log 80). -/
def alignBlock (c : Chip) (mem : Mem) (n : Nat) (o : AlignObs) : Chip :=
  let l := c.lane n
  let hit := decide (o.errors ≤ 6) && !(o.precoded && decide (1 < (c.quad (n / 4)).rate))
  let hyp := 2 * b2n o.inverted + b2n o.precoded
  if l.locked then
    let hit := hit && decide (hyp = l.hypothesis)
    let missed := if hit then 0 else l.missed + 1
    let c := c.setLane n { l with missed := missed, flags := if o.crcOk then l.flags else setBit l.flags 4 }
    if 4 ≤ missed then
      (c.setLane n { c.lane n with flags := setBit (c.lane n).flags 3, locked := false }).laneDown mem n 2
    else if o.crcOk && o.roleOk then c.alignFields mem n o.fields else c
  else if l.state = .align then
    let m := if hit then (if l.matches_ = 0 || l.hypothesis = hyp then l.matches_ + 1 else 1) else 0
    let l := { l with matches_ := m, hypothesis := hyp, flags := if hit && !o.crcOk then setBit l.flags 4 else l.flags }
    if m < 3 then c.setLane n l
    else
      let c := c.setLane n { l with matches_ := 0, missed := 0, locked := true, badRun := 0, rxInv := o.inverted,
                                    rxPre := o.precoded, lockCount := sat 16 (l.lockCount + 1) }
      let c := (c.count (0x100 + 16 * n + 4) 1).laneTo mem n .train
      if o.crcOk && o.roleOk then c.alignFields mem n o.fields else c
  else c

/-- The alignment periods of a bond or link start together (R115): with lane 0's all its lanes take the next PERIOD. -/
def nextPeriod (c : Chip) (n : Nat) : Chip :=
  let pl := c.placeOf n
  let p := ((c.lane n).txPeriod + 1) % 2 ^ 16
  if pl.1 != 0 then c
  else c.foldC (List.range pl.2.1) fun c i => c.setLane (n + i) { c.lane (n + i) with txPeriod := p }

/-- A transmitter starts an alignment period (R108, R110, R112, R115, R127, R129, R131, R146, R164, R173). -/
def periodStart (c : Chip) (n : Nat) : Chip :=
  let c := if (c.quad (n / 4)).role = .off then c else c.nextPeriod n
  let l := c.lane n
  let wasOn := l.txOn
  if !(c.quad (n / 4)).synthLock || l.power = 2 || l.state = .test || l.state = .off then c
  else
    let quietNow := l.power == 1 || c.upperCam n
    let l := if !quietNow then { l with txOn := true, txQuiet := false }
      else if l.txOn && !l.txQuiet && !c.upperCam n then { l with txQuiet := true }
      else { l with txOn := false, txQuiet := false }
    let c := c.setLane n
      { l with txSym := if wasOn && !l.txHead.isEmpty then Config.openValue 110 c.up [n, l.txPeriod] % 4 else 0 }
    let c := if l.txOn then
        let c := c.setLane n { l with txHead := c.headOut n, readySent := ((c.alignOut n).rxReady :: l.readySent).take 3 }
        match c.portOf n with
        | some p => if n = p then
            c.setPort p { c.port p with stamps := ((l.txPeriod, c.time.tb) :: (c.port p).stamps).take 16 } else c
        | none => c
      else c
    c.joinLane n true

/-- A receiver has been in L1 for more than 10 ms (R131). -/
def l1Timeout (c : Chip) (n : Nat) : Chip :=
  let l := c.lane n
  if l.state = .l1 then c.setLane n { l with l1Long := true } else c

/-- REFCLK_L leaves its range (R120, R436); where it has stopped, so has the timebase (R39, R381). -/
def refOut (c : Chip) (mem : Mem) (freq : Nat) : Chip :=
  if !c.lanes.refOk then c
  else
    let c : Chip := { c with lanes.refOk := false }
    let c := c.foldC (List.range 16) fun c q =>
      if (c.quad q).synthLock then c.setQuad q { c.quad q with synthLock := false } else c
    let c := c.foldC (List.range 64) fun c n =>
      if (c.lane n).state = .off then c
      else
        let entered := (c.lane n).state != .down
        let c := c.laneTo mem n .down
        let l := c.lane n
        let c := c.setLane n { l with flags := setBit (setBit l.flags 0) 1,
                                      downCount := if entered then sat 16 (l.downCount + 1) else l.downCount, locked := false,
                                      farReady := false, txOn := false, quietSeen := false, l1Long := false }
        if entered then c.count (0x100 + 16 * n + 3) 1 else c
    let c := (c.emit 0xC 2 0xFFFF 0 freq).detectAll 0x0F01 0
    if freq = 0 then c.timeStops Chip.ticketMissed else c

/-- REFCLK_L is back in its range (R120). -/
def refIn (c : Chip) (mem : Mem) : Chip :=
  if c.lanes.refOk then c
  else
    let c : Chip := { c with lanes.refOk := true }
    let c := c.foldC (List.range 64) fun c n =>
      let l := c.lane n
      if l.state != .down then c
      else if l.power = 2 then c.laneTo mem n .l2
      else if l.pattern != 0 || l.loop != 0 then c.laneTo mem n .test
      else c
    let c := c.foldC ((List.range 16).filter fun q => (c.quad q).role != .off && (c.quad q).synthOn) fun c q => c.startQuad mem q
    c.clearAll 0x0F01 0

/-- The checker has seen 1,024 bits without an error (R134). -/
def checkerIn (c : Chip) (n : Nat) : Chip :=
  let l := c.lane n
  if l.checker then c.setLane n { l with chkSync := true } else c

/-- The checker leaves sync (R134, R498); how many of the 1,024 bits were in error is free, above 256 (log 31). -/
def checkerOut (c : Chip) (n : Nat) : Chip :=
  let l := c.lane n
  if !l.chkSync then c
  else
    let e := 257 + c.fresh 31 [n] % 768
    let c := (c.setLane n { l with chkSync := false, chkErr := l.chkErr + e, chkBits := l.chkBits + 1024 }).drawn
    ((c.count (0x100 + 16 * n + 5) 1024).count (0x100 + 16 * n + 6) e).emit 0x2D 1 n 0 (l.chkErr + e)

/-- One injected event is sent (R136); what it makes of the symbols is `injectedLevels`. -/
def injected (c : Chip) (n : Nat) : Chip :=
  let l := c.lane n
  match l.inj with
  | none => c
  | some i =>
    c.setLane n { l with injDone := sat 16 (l.injDone + 1), inj := if i.left ≤ 1 then none else some { i with left := i.left - 1 },
                         silentUntil := if i.kind = 3 then some (c.up + i.size * usU) else l.silentUntil }

/-- OH_LANE arrives (R146, R147, R387, R391). -/
def ohLane (c : Chip) (mem : Mem) (n : Nat) (b : List Byte) : Chip :=
  match c.portOf n with
  | some p => c.camOhIn mem p n b
  | none =>
    match c.linkOf n with
    | some (l, k) =>
      let d := (u32 b 10 + 2 ^ 32 - k.rxFsn % 2 ^ 32) % 2 ^ 32
      if !framedOk b || u8 b 0 != 0x70 then c.nak l
      else
      let c := c.setLane n { c.lane n with oh := some (ohLaneOf b) }
      if 0 < d ∧ d < 2 ^ 31 then c.nak l else c
    | none => c

end Chip

def execSynthLock (quad : Fin 16) (s : State) : Out := s.runDev fun d => d.onChip fun c => c.synthLocked d.mem quad.val

def execStartBudgetAdmit (s : State) : Out := s.runDev fun d => d.onChip fun c => c.budgetAdmit d.mem

def execLaneSignalDetect (lane : Fin 64) (s : State) : Out := s.runDev fun d => d.onChip fun c => c.signalIn d.mem lane.val

def execLaneAcquireDone (lane : Fin 64) (s : State) : Out := s.runDev fun d => d.onChip fun c => c.acquired d.mem lane.val

def execLaneBlindDone (lane : Fin 64) (s : State) : Out := s.runDev fun d => d.onChip fun c => c.blindDone d.mem lane.val

def execLaneTrainDone (lane : Fin 64) (s : State) : Out := s.runDev fun d => d.onChip fun c => c.trained d.mem lane.val

def execLaneQualifyDone (lane : Fin 64) (skew : Int) (s : State) : Out :=
  s.runDev fun d => d.onChip fun c => c.qualified d.mem lane.val skew

def execLanePhaseOverrun (lane : Fin 64) (s : State) : Out := s.runDev fun d => d.onChip fun c => c.phaseLate d.mem lane.val

def execEqfWindowClose (lane : Fin 64) (eqf : Nat) (s : State) : Out :=
  s.runDev fun d => d.onChip fun c => c.eqfWindow d.mem lane.val eqf

def execLaneSignalLoss (lane : Fin 64) (s : State) : Out := s.runDev fun d => d.onChip fun c => c.signalOut d.mem lane.val

def execCodewordReceived (lane : Fin 64) (symbols : Nat) (s : State) : Out :=
  s.runDev fun d => d.onChip fun c => c.codeword d.mem lane.val symbols

def execAlignmentBlockReceived (lane : Fin 64) (obs : AlignObs) (s : State) : Out :=
  s.runDev fun d => d.onChip fun c => c.alignBlock d.mem lane.val obs

def execAlignmentPeriodBoundary (lane : Fin 64) (s : State) : Out := s.run fun c => c.periodStart lane.val

def execRxL1Timeout (lane : Fin 64) (s : State) : Out := s.run fun c => c.l1Timeout lane.val

def execRefclkOutOfRange (freq : Nat) (s : State) : Out := s.runDev fun d => d.onChip fun c => c.refOut d.mem freq

def execRefclkInRange (s : State) : Out := s.runDev fun d => d.onChip fun c => c.refIn d.mem

def execCheckerSyncGain (lane : Fin 64) (s : State) : Out := s.run fun c => c.checkerIn lane.val

def execCheckerSyncLoss (lane : Fin 64) (s : State) : Out := s.run fun c => c.checkerOut lane.val

def execInjectEvent (lane : Fin 64) (s : State) : Out := s.run fun c => c.injected lane.val

def execOhLaneReceived (lane : Fin 64) (body : List Byte) (s : State) : Out :=
  s.runDev fun d => d.onChip fun c => c.ohLane d.mem lane.val body

/-- The commands of the family. -/
def laneCmds : List Cmd :=
  [cmdSetRole, cmdSetRate, cmdSetTx, cmdSetAdapt, cmdSetPower, cmdSetTest, cmdInject, cmdReadCoeffs, cmdReadLane, cmdClearLane]

end Sys2Proof.Machine
end

