-- ==== Sys2Proof/Machine/Observe.lean ====
section
/-! DEFINITION. The observation and event family of the command set (R379), the router, the trace, snapshots, event
ring releases, and the JTAG port (R497 to R513). -/

namespace Sys2Proof.Machine

/-- OBS.SET_TRACE (R379, R506, R508): restarts TSEQ and clears STOPPED. -/
def cmdSetTrace : Cmd :=
  { opcode := 0x0D01, roles := [2], size := fun r => r.length == 20,
    body := fun _ r d =>
      let sink := u8 r 0
      let log2 := u8 r 1
      let f := u64 r 4
      if 2 < sink || (sink == 1 && !(20 ≤ log2 && log2 ≤ 30)) || (sink == 2 && !validFn (u8 r 2)) then .no stBADARG
      else if d.chip.mbx.lockedPart && bits f 32 16 != 0 then .no stBADSTATE
      else .doC fun c =>
        let c := c.flushTrace
        { c with ev.trace := { TraceSt.reset with
            sink := sink, sizeLog2 := if sink = 1 then log2 else 0, fn := u8 r 2, hostLog2 := u8 r 3,
            filter := f &&& 0x0000FFFF000001FF, hostBase := u64 r 12 } } }

def execObsSetTrace (mb : Nat) (req : List Byte) (s : State) : Out :=
  s.onDevIf (validMb mb) (tilpo cmdSetTrace mb req)

/-- The bytes of the frame-store trace ring from `o` on (R508); a place not yet written reads 0 (log 3). -/
def traceRead (c : Chip) (o n : Nat) : List Byte :=
  let slots := (List.range (n / 64 + 2)).map fun i =>
    match c.ev.trace.ring.find? (o / 64 + i) with | some r => Chip.traceBytes r | none => List.replicate 64 0
  (slots.flatten.drop (o % 64)).take n

/-- OBS.READ_TRACE (R379, R508). -/
def cmdReadTrace : Cmd :=
  { opcode := 0x0D02, roles := [], size := fun r => r.length == 12,
    body := fun _ r d =>
      let n := u32 r 8
      if n = 0 || 4064 < n || (d.chip.ev.trace.sink == 1 && decide (2 ^ d.chip.ev.trace.sizeLog2 < u64 r 0 + n)) then
        .no stBADARG
      else if d.chip.ev.trace.sink != 1 then .no stBADSTATE
      else .ends stOK 0 (traceRead d.chip.flushTrace (u64 r 0) n) (Dev.onChip Chip.flushTrace) }

def execObsReadTrace (mb : Nat) (req : List Byte) (s : State) : Out :=
  s.onDevIf (validMb mb) (tilpo cmdReadTrace mb req)

/-- Counters `first` to `first + n - 1` of a set, 8 bytes each. -/
def counterBytes (t : Tab Nat) (first n : Nat) : List Byte :=
  ((List.range n).map fun i => le 8 (t.getD 0 (first + i))).flatten

/-- OBS.READ_COUNTERS (R379, R510). -/
def cmdReadCounters : Cmd :=
  { opcode := 0x0D03, roles := [], size := fun r => r.length == 4,
    body := fun _ r d =>
      let n := u16 r 2
      if n = 0 ∨ 511 < n ∨ 4096 < u16 r 0 + n then .no stBADARG
      else .say (le 8 d.chip.t64 ++ counterBytes d.chip.ev.counters (u16 r 0) n) }

def execObsReadCounters (mb : Nat) (req : List Byte) (s : State) : Out :=
  s.onDevIf (validMb mb) (tilpo cmdReadCounters mb req)

/-- A snapshot that is scheduled for an instant. -/
def scheduledSnap (number instant : Nat) (ticket : Option Nat) : Snapshot :=
  { number := number, instant := instant, done := false, missed := false, incomplete := false, fabric := false,
    ticket := ticket, values := [], origin := none, originNumber := number, peers := [], peerMissed := [] }

/-- OBS.SNAPSHOT_AT (R379, R511): at least 1 ms ahead of the doorbell, four held at most. -/
def cmdSnapshotAt : Cmd :=
  { opcode := 0x0D04, roles := [2, 3], size := fun r => r.length == 8,
    body := fun x r d =>
      if u64 r 0 < x.doorbell + 1000000 then .no stBADSTATE
      else if 4 ≤ (d.chip.ev.snaps.filter fun (t : Snapshot) => t.origin.isNone).length then .no stBUSY
      else .later (fun _ => .snapshot d.chip.ev.snapNext) (u64 r 0) fun id d =>
        let n := d.chip.ev.snapNext
        (d.onChip fun c => { c with ev.snaps := c.ev.snaps ++ [scheduledSnap n (u64 r 0) (some id)],
                                    ev.snapNext := Chip.nextSnap n }, le 4 n) }

def execObsSnapshotAt (mb : Nat) (req : List Byte) (s : State) : Out :=
  s.onDevIf (validMb mb) (tilpo cmdSnapshotAt mb req)

/-- OBS.READ_SNAPSHOT (R379, R416, R511): a missed one has no values. -/
def cmdReadSnapshot : Cmd :=
  { opcode := 0x0D05, roles := [], size := fun r => r.length == 12,
    body := fun _ r d =>
      let c := d.chip
      let seam := u16 r 4
      let first := u16 r 6
      let n := u16 r 8
      if n = 0 ∨ 510 < n ∨ 4096 < first + n then .no stBADARG
      else
        match c.ev.snaps.find? fun s => s.number == u32 r 0 && s.done with
        | none => .no stBADSTATE
        | some s =>
          let own := (seam = 0x3FF && !s.fabric) || some seam == c.seam.id
          let missed := if own then s.missed else s.peerMissed.contains seam
          let head := le 1 (b2n missed + 2 * b2n s.incomplete) ++ List.replicate 7 0 ++ le 8 s.instant
          if missed then .say head
          else if own then .say (head ++ counterBytes s.values first n)
          else
            match s.peers.find? seam with
            | some t => .say (head ++ counterBytes t first n)
            | none => .no stBADARG }

def execObsReadSnapshot (mb : Nat) (req : List Byte) (s : State) : Out :=
  s.onDevIf (validMb mb) (tilpo cmdReadSnapshot mb req)

/-- A record for the function's ring that is not yet in host memory (R503). -/
def ringBusy (c : Chip) (f : Nat) : Bool :=
  let h := c.host (f / 128)
  (h.qU ++ h.uWait ++ h.tx).any fun t => t.fn == f && t.kind == .event

/-- EVT.SET_RING (R379, R460, R503). -/
def cmdSetRing : Cmd :=
  { opcode := 0x0D10, roles := [2, 3], size := fun r => r.length == 12, scope := fun _ f r => u8 r 0 == f,
    body := fun _ r d =>
      let f := u8 r 0
      let log2 := u8 r 1
      let base := u64 r 4
      if !validFn f || log2 < 6 || 16 < log2 || base % 4096 != 0 || decide (d.chip.vectors f ≤ u16 r 2) then
        .no stBADARG
      else if ringBusy d.chip f then .no stBADSTATE
      else .doC fun c =>
        if base = 0 then { c with ev.rings := c.ev.rings.drop f }
        else
          let g : EventRing := { base := base, log2 := log2, vector := u16 r 2, wr := 0, rel := 0, overrun := false }
          let c := { c with ev.rings := c.ev.rings.put f g }
          if c.power.causeGiven.contains f then c
          else
            let img := if c.board.running = 0 then c.board.imageA else c.board.imageB
            let e : EventRec :=
              { line := 0x27, kind := 1, inst := c.power.cause, detail := c.power.wakeSource, value := img.version,
                time := c.t64, source := 0x3FF }
            (({ c with power.causeGiven := f :: c.power.causeGiven } : Chip).count 0x27 1).ringWrite f e }

def execEvtSetRing (mb : Nat) (req : List Byte) (s : State) : Out :=
  s.onDevIf (validMb mb) (tilpo cmdSetRing mb req)

/-- EVT.SET_ROUTE (R379, R500). -/
def cmdSetRoute : Cmd :=
  { opcode := 0x0D11, roles := [2], size := fun r => r.length == 3,
    body := fun _ r _ =>
      if 0x2F < u8 r 0 || !wired (u8 r 0) (u8 r 1) || 1 < u8 r 2 then .no stBADARG
      else .doC fun c => c.setRoute (u8 r 0) (u8 r 1) (u8 r 2 == 1) }

def execEvtSetRoute (mb : Nat) (req : List Byte) (s : State) : Out :=
  s.onDevIf (validMb mb) (tilpo cmdSetRoute mb req)

def execRouterTake (line : Fin 48) (s : State) : Out := s.run fun c => c.routerTake line.val

def execConsumerOverrunRecord (consumer : Fin 24) (s : State) : Out :=
  s.run fun c => c.overrunRecord consumer.val

def execTraceDropReport (s : State) : Out := s.run Chip.traceDropReport

def execEvrRelWrite (view value : Nat) (s : State) : Out :=
  s.onWrite (validView view) view fun c => c.ringRelease view value

/-- The commanded instant of a local snapshot (R511): every counter is latched, its ticket ends OK. -/
def Chip.snapInstant (c : Chip) (number : Nat) : Chip :=
  match c.ev.snaps.find? fun s => s.number == number && !s.done && !s.fabric with
  | none => c
  | some s =>
    let v := { c.latch number s.instant with ticket := s.ticket }
    let c := { c with ev.snaps := c.ev.snaps.map fun (t : Snapshot) => if t.number = number then v else t }
    let c := c.emitAt 0x2A 1 0 1 (number * 2 ^ 32) s.instant
    match s.ticket with | some t => c.endTicket t stOK | none => c

def execSnapshotInstant (number : Nat) (s : State) : Out := s.run fun c => c.snapInstant number

/-- A held snapshot expires 60 s after its instant (R416). -/
def execSnapshotExpiry (number : Nat) (s : State) : Out :=
  s.run fun c => { c with ev.snaps := c.ev.snaps.filter fun (t : Snapshot) => !(t.number == number && t.done) }

/-- IDCODE (R512). -/
def idcode : Nat := 0x1 * 2 ^ 28 + 0x0672 * 2 ^ 12 + Config.idcodeMaker.toNat * 2 + 1

/-- A JTAG instruction takes effect (R512, R513): the instructions that drive the pins only while RESET# is low,
DBG_READ only on a part that is not locked, and as BYPASS otherwise. What SAMPLE and DBG_READ shift out is left open
(log 12). -/
def Chip.jtag (c : Chip) (i : JtagInstr) : Chip :=
  let drives := i == .extest || i == .extestPulse || i == .extestTrain || i == .clamp || i == .highz
  let eff := if (drives && !c.power.resetLow) || (i == .dbgRead && c.mbx.lockedPart) then JtagInstr.bypass else i
  let c := { c with board.jtag := eff }
  match eff with
  | .idcode => { c with rd := le 4 idcode }
  | .sample | .dbgRead =>
    ({ c with rd := (List.range 8).map fun i => BitVec.ofNat 8 (b2n (Config.debugBit c.draw i)) } : Chip).drawn
  | _ => c

def execJtagInstruction (instr : JtagInstr) (s : State) : Out := .next (s.onChip fun c => c.jtag instr)

def observeCmds : List Cmd :=
  [cmdSetTrace, cmdReadTrace, cmdReadCounters, cmdSnapshotAt, cmdReadSnapshot, cmdSetRing, cmdSetRoute]

end Sys2Proof.Machine
end

