-- ==== Sys2Proof/Machine/Panel.lean ====
section
/-! DEFINITION. The panel port: its modes, tiles, overlays, freshness and readback check (R418 to R431), its commands (R376). -/

namespace Sys2Proof.Machine

/-- Codes of R420. -/
def panelCode : PanelState → Nat | .off => 0 | .noSink => 1 | .training => 2 | .running => 3 | .changing => 4

/-- Total lines of a mode by CVT reduced blanking version 2 (R419): 460 µs of blanking or more. -/
def totalLines (m : PanelMode) : Nat := m.height + 460 * m.height * m.refresh / (10 ^ 9 - 460 * m.refresh) + 1

/-- Pixel clock of a mode, kHz (R419): 80 pixels of horizontal blanking, clock step 1 kHz. -/
def pixelKhz (m : PanelMode) : Nat := m.refresh * totalLines m * (m.width + 80) / 10 ^ 6

/-- Bands of a mode (R428). -/
def bandCount (m : PanelMode) : Nat := (m.height + 63) / 64

/-- A tile is STALE (R426). -/
def TileSt.stale (t : TileSt) : Bool := t.staleAge || t.staleCrc || t.staleTiming

/-- A freshness limit in ms is at least one panel frame period plus 1 ms (R421). -/
def floorOk (refresh limit : Nat) : Bool := decide (10 ^ 6 + refresh ≤ limit * refresh)

namespace Chip

/-- The mode in force, or the one that the change in progress leads to. -/
def presentMode (c : Chip) : Option PanelMode := if c.panel.pending.isSome then c.panel.pending else c.panel.mode

/-- The video stream has a gap (R431). -/
def panelGap (c : Chip) : Bool := c.panel.state == .changing || c.panel.state == .training || c.panel.state == .noSink

/-- A change of the panel's state (R420): its record, and MODE of the fresh image function (R431). -/
def setPanelState (c : Chip) (st : PanelState) : Chip :=
  if c.panel.state = st then c
  else
    let m := c.presentMode.getD { width := 0, height := 0, refresh := 0, bpc := 0 }
    let old := panelCode c.panel.state
    let c : Chip := { c with panel.state := st, panel.wholeGood := false }
    let c := c.emit 0x20 1 0 (old * 256 + panelCode st) (m.refresh * 2 ^ 32 + m.width * 2 ^ 16 + m.height)
    if c.panelGap && c.coversPanel then c.detect 0 0x0104 0 else c

/-- Age and STALE of an enabled tile (R426). A tile without an image has no age that the spec states (log 32). -/
def tileEval (c : Chip) (n : Nat) : Chip :=
  let t := c.tile n
  if !t.enabled then c
  else
    let img := if c.panel.state = .running then t.shown else t.newest
    let limit := ((c.stream? t.stream).map (·.fresh)).getD 0
    let late := match img with | some i => decide (limit * 10 ^ 6 < c.t64 - i.eofT) | none => true
    let age := match img with
      | some i => min 65535 ((c.t64 - i.eofT) / 10 ^ 6)
      | none => Config.openValue 32 0 [n] % 65536
    let entry := late && !t.stale
    let c := c.setTile n { t with age := age, staleAge := late }
    let c := if entry then c.emit 0x21 1 n 1 age else c
    if c.covers 0 n then c.judge late 0 0x0101 n else c

/-- Every tile's age (R426), and the end of a gap (R431). -/
def panelEval (c : Chip) : Chip :=
  let c := c.foldC (List.range 16) fun c n => c.tileEval n
  if c.panelGap && c.coversPanel then c.detect 0 0x0104 0
  else if c.panel.state = .running ∧ c.panel.wholeGood then c.clearCause 0 0x0104 0
  else c

/-- A tile of the panel as its pixel at column `i`, line `j`, R, G and B (R424, R425). The first 8 lines are the freshness
stripe of R427: while fresh, grey at a quarter of full scale with a white block 32 pixels wide at column
16 × (SEQUENCE mod 64) mod (w − 31); while STALE, red at full scale, and every component below it is shown >> 2. -/
def tilePixel (t : TileSt) (bpc i j : Nat) : List Nat :=
  let full := 2 ^ bpc - 1
  if j < 8 then
    if t.stale then [full, 0, 0]
    else
      let at_ := 16 * (((t.shown.map (·.seq)).getD 0) % 64) % (t.w - 31)
      let v := if at_ ≤ i ∧ i < at_ + 32 ∧ t.shown.isSome then full else full / 4
      [v, v, v]
  else
    let p := match t.shown with | some im => im.pixels.getD (j * t.w + i) 0 | none => 0
    let img := fun k => p / 2 ^ (16 * k) % 2 ^ 16
    let comp := fun k =>
      match t.overlay with
      | none => img k
      | some o =>
        if o.w ≤ i ∨ o.h ≤ j then img k
        else
          let b := fun q => (o.shown.getD ((j * o.w + i) * 4 + q) 0).toNat
          let v := if bpc = 10 then img k / 4 else img k
          let r := (b 3 * b (2 - k) + (255 - b 3) * v + 127) / 255
          if bpc = 10 then r * 4 else r
    [0, 1, 2].map fun k => if t.stale then comp k / 4 else comp k

/-- The panel pixel shows tile `n`: it lies in it and in no enabled tile of a higher number (R425). -/
def visibleIn (c : Chip) (n x y : Nat) : Bool :=
  let within := fun (t : TileSt) => t.enabled && decide (t.x ≤ x) && decide (x < t.x + t.w) && decide (t.y ≤ y) && decide (y < t.y + t.h)
  within (c.tile n) && (List.range 16).all fun m => decide (m ≤ n) || !within (c.tile m)

/-- The expected CRC of a tile in a band (R428). -/
def expectedCrc (c : Chip) (m : PanelMode) (n band : Nat) : Nat :=
  let t := c.tile n
  let lines := (List.range 64).map (band * 64 + ·)
  let bytes := lines.flatMap fun y => (List.range t.w).flatMap fun i =>
    if t.y ≤ y ∧ y < m.height ∧ c.visibleIn n (t.x + i) y then (tilePixel t m.bpc i (y - t.y)).flatMap (le 2) else []
  crc32c bytes

/-- A band of a tile does not match (R428, R436). -/
def tileCrcBad (c : Chip) (n band : Nat) : Chip :=
  let t := c.tile n
  let entry := !t.stale
  let c := c.setTile n { t with crcFail := sat 32 (t.crcFail + 1), staleCrc := true, crcBad := true }
  let c := ({ c with panel.frameGood := false } : Chip).count 0xF8D 1
  let c := c.emit 0x21 2 n band t.age
  let c := if entry then c.emit 0x21 1 n 2 t.age else c
  if c.covers 0 n then c.detect 0 0x0102 n else c

/-- A band's comparison (R428). -/
def bandCompare (c : Chip) (band : Nat) (actual : List (Nat × Nat)) : Chip :=
  match c.panel.state, c.panel.mode with
  | .running, some m =>
    let c := c.foldC (actual.filter fun e => decide (e.1 < 16) && (c.tile e.1).enabled) fun c e =>
      if c.expectedCrc m e.1 band = e.2 % 2 ^ 32 then c else c.tileCrcBad e.1 band
    ({ c with panel.bandsDone := c.panel.bandsDone + 1 } : Chip).panelEval
  | _, _ => c

/-- A band's comparison is more than 1 ms late (R429). -/
def bandLate (c : Chip) : Chip :=
  if c.panel.state != .running then c
  else
    let c : Chip := { c with panel.lateBand := true, panel.frameGood := false }
    let c := c.foldC (List.range 16) fun c n =>
      let t := c.tile n
      if !t.enabled then c
      else
        let entry := !t.stale
        let c := c.setTile n { t with staleTiming := true }
        if entry then c.emit 0x21 1 n 3 t.age else c
    if c.coversPanel then c.detect 0 0x0103 0 else c

/-- What the frame that ends here has shown (R428, R429, R431): a whole frame without a mismatch clears CRC, a whole frame on
time clears TIMING. -/
def frameEnds (c : Chip) (m : PanelMode) : Chip :=
  if !(decide (bandCount m ≤ c.panel.bandsDone) && !c.panel.lateBand) then c
  else
    let c : Chip := { c with panel.wholeGood := c.panel.wholeGood || c.panel.frameGood }
    let c := c.clearCause 0 0x0103 0
    c.foldC (List.range 16) fun c n =>
      let t := c.tile n
      let c := c.setTile n { t with staleTiming := false, staleCrc := t.staleCrc && t.crcBad }
      if t.staleCrc && !t.crcBad then c.clearCause 0 0x0102 n else c

/-- A tile at a panel frame start (R421, R423, R424, R476): its new place, the newest image, its overlay. -/
def tileStart (c : Chip) (n : Nat) (take : Bool) : Chip :=
  let t := c.tile n
  let t := match t.next with
    | none => t
    | some (on, sid, x, y, w, h) =>
      let same := t.enabled && on && t.stream == sid && t.w == w && t.h == h
      let t := { t with next := none, enabled := on, stream := sid, x := x, y := y, w := w, h := h,
                        overlay := if on then t.overlay else none }
      if same then t
      else { t with shown := none, newest := none, age := 0, staleAge := false, staleCrc := false, staleTiming := false }
  let c := c.setTile n { t with shown := if take then t.newest else t.shown, crcBad := false,
                                overlay := t.overlay.map fun o => { o with shown := o.ready } }
  if t.enabled then c else ((c.clearCause 0 0x0101 n).clearCause 0 0x0102 n)

/-- A panel frame starts (R421 to R425, R428 to R431, R476). -/
def panelFrame (c : Chip) : Chip :=
  let go := c.panel.state == .running || (c.panelGap && c.panel.ready)
  match c.presentMode with
  | none => c
  | some m =>
    if !go then c
    else
      let c := if c.panel.state = .running then c.frameEnds m
        else ({ c with panel.mode := some m, panel.pending := none, panel.ready := false } : Chip).setPanelState .running
      let take := c.panel.frame % 2 ^ c.power.preview == 0
      let c : Chip := { c with panel.frame := c.panel.frame + 1, panel.bandsDone := 0, panel.lateBand := false,
                               panel.frameGood := true }
      let c := c.foldC ((List.range 16).filter fun n => (c.panel.tiles.find? n).isSome) fun c n => c.tileStart n take
      (c.count 0xF8C 1).panelEval

/-- HPD falls (R430). -/
def hpdLost (c : Chip) : Chip :=
  let m := c.presentMode
  let c : Chip := { c with panel.hpd := false, panel.ready := false, panel.linkRate := 0, panel.lanes := 0 }
  if m.isNone then c
  else (({ c with panel.mode := m, panel.pending := none } : Chip)).setPanelState .noSink

/-- HPD rises (R430): the link is trained again. -/
def hpdBack (c : Chip) : Chip :=
  let c : Chip := { c with panel.hpd := true }
  if c.panel.state = .noSink then c.setPanelState .training else c

/-- The sink asks for retraining (R430). -/
def sinkIrq (c : Chip) : Chip :=
  if c.panel.state = .running then
    ({ c with panel.pending := c.panel.mode, panel.ready := false } : Chip).setPanelState .changing
  else c

/-- Link training ends (R418, R430). -/
def linkTrained (c : Chip) (rate lanes : Nat) : Chip :=
  if rate = 0 ∨ !(c.panel.state == .changing || c.panel.state == .training) then c
  else { c with panel.linkRate := rate, panel.lanes := lanes, panel.ready := true }

end Chip

/-- PANEL.SET_MODE (R376, R419, R421, R430, R431). -/
def cmdSetMode : Cmd :=
  { opcode := 0x0A01, roles := [2, 3], size := fun r => r.length == 12, stage := 3, cfg := fun _ _ => some 0,
    body := fun x r d =>
      let c := d.chip
      let m : PanelMode := { width := u16 r 0, height := u16 r 2, refresh := u32 r 4, bpc := u8 r 8 }
      let p := pixelKhz m
      let outside := c.panel.tiles.any fun e =>
        let (on, sid, tx, ty, tw, th) := e.2.want
        on && (decide (m.width < tx + tw) || decide (m.height < ty + th) ||
          !floorOk m.refresh (((c.stream? sid).map (·.fresh)).getD 0))
      if m.width < 640 || 3840 < m.width || m.height < 480 || 2160 < m.height || m.refresh < 24000 || 144000 < m.refresh ||
          !(m.bpc == 8 || m.bpc == 10) || 600000 < p ||
          (c.panel.linkRate != 0 && decide (776 * c.panel.lanes * c.panel.linkRate * 10 < p * 3 * m.bpc)) || outside then
        .no stBADARG
      else if c.panel.state = .changing then .no stBADSTATE
      else if c.panel.forbid && x.role == 3 && c.coversPanel then .no stLIMIT
      else .doC fun c =>
        if c.panel.hpd then ({ c with panel.pending := some m, panel.ready := false } : Chip).setPanelState .changing
        else ({ c with panel.mode := some m } : Chip).setPanelState .noSink }

def execPanelSetMode (mb : Nat) (req : List Byte) (s : State) : Out :=
  s.onDevIf (validMb mb) (tilpo cmdSetMode mb req)

/-- PANEL.SET_TILE (R376, R421, R476). -/
def cmdSetTile : Cmd :=
  { opcode := 0x0A02, roles := [2], size := fun r => r.length == 12, stage := 3, cfg := fun r _ => some (u8 r 0),
    body := fun _ r d =>
      let c := d.chip
      let n := u8 r 0
      let on := u8 r 1 == 1
      let sid := u16 r 2
      let x := u16 r 4
      let y := u16 r 6
      let w := u16 r 8
      let h := u16 r 10
      let new := (on, sid, x, y, w, h)
      let go : Res := .doC fun c => c.setTile n { c.tile n with next := some new }
      if 15 < n || 1 < u8 r 1 then .no stBADARG
      else if !on then go
      else
        match c.presentMode with
        | none => .no stBADARG
        | some m =>
          let area := ((c.panel.tiles.filter fun e => e.1 != n && e.2.want.1).map fun e =>
            e.2.want.2.2.2.2.1 * e.2.want.2.2.2.2.2).foldl (· + ·) 0
          if m.width < x + w || m.height < y + h || w < 64 || h < 32 || 16777216 < area + w * h then .no stBADARG
          else
            match c.stream? sid with
            | none => .no stBADSTATE
            | some s =>
              let roi := (roisOf s.out s.w s.h 1).headD { x := 0, y := 0, w := s.w, h := s.h }
              let ow := outW s.out roi
              let oh := outH s.out roi
              let resv : List Resv := [{ res := 9, inst := 0, demand := scale }, { res := 7, inst := 1, demand := 16 * scale }]
              let old := if (c.tile n).want.1 then resv else []
              if s.place.placement = .passBy || w * 64 < ow || 4 * ow < w || h * 64 < oh || 4 * oh < h ||
                  !floorOk m.refresh s.fresh then .no stBADARG
              else if c.admitStopped && Chip.addsDemand old resv then .no stBADSTATE
              else
                match resv.findSome? (c.shortOf none old) with
                | some d => .refuse stNOCAP d
                | none => go }

def execPanelSetTile (mb : Nat) (req : List Byte) (s : State) : Out :=
  s.onDevIf (validMb mb) (tilpo cmdSetTile mb req)

/-- PANEL.SET_OVERLAY (R376, R424). -/
def cmdSetOverlay : Cmd :=
  { opcode := 0x0A03, roles := [2], size := fun r => r.length == 8, stage := 3,
    body := fun _ r d =>
      let c := d.chip
      let n := u8 r 0
      if 15 < n || 1 < u8 r 1 || (u8 r 1 == 1 && (u16 r 4 == 0 || u16 r 6 == 0)) then .no stBADARG
      else if !(c.tile n).want.1 then .no stBADSTATE
      else .doR fun c =>
        if u8 r 1 = 0 then (c.setTile n { c.tile n with overlay := none }, le 4 0)
        else
          let h := c.panel.nextHandle
          let o : OverlaySt := { handle := h, w := u16 r 4, h := u16 r 6, shown := [], ready := [] }
          let c : Chip := { c with panel.nextHandle := (h + 1) % 2 ^ 32 }
          (c.setTile n { c.tile n with overlay := some o }, le 4 h) }

def execPanelSetOverlay (mb : Nat) (req : List Byte) (s : State) : Out :=
  s.onDevIf (validMb mb) (tilpo cmdSetOverlay mb req)

/-- PANEL.SET_POLICY (R376, R431). -/
def cmdPanelPolicy : Cmd :=
  { opcode := 0x0A04, roles := [2], size := fun r => r.length == 1, stage := 3, cfg := fun _ _ => some 0,
    body := fun _ r _ => if 1 < u8 r 0 then .no stBADARG else .doC fun c => { c with panel.forbid := u8 r 0 == 1 } }

def execPanelSetPolicy (mb : Nat) (req : List Byte) (s : State) : Out :=
  s.onDevIf (validMb mb) (tilpo cmdPanelPolicy mb req)

/-- PANEL.READ_STATUS (R376, R420). -/
def cmdReadPanel : Cmd :=
  { opcode := 0x0A05, roles := [], size := fun r => r.length == 0, stage := 3,
    body := fun _ _ d =>
      let c := d.chip
      let m := c.presentMode.getD { width := 0, height := 0, refresh := 0, bpc := 0 }
      .say (le 2 m.width ++ le 2 m.height ++ le 4 m.refresh ++ le 1 (panelCode c.panel.state) ++ le 3 0 ++
        (List.range 16).flatMap fun n =>
          let t := c.tile n
          le 1 (b2n t.enabled) ++ le 1 (b2n (t.enabled && t.stale)) ++ le 2 t.age ++ le 4 t.crcFail) }

def execPanelReadStatus (mb : Nat) (req : List Byte) (s : State) : Out :=
  s.onDevIf (validMb mb) (tilpo cmdReadPanel mb req)

def execPanelFrameStart (s : State) : Out := s.run Chip.panelFrame

def execPanelBandCompare (band : Nat) (actual : List (Nat × Nat)) (s : State) : Out := s.run fun c => c.bandCompare band actual

def execPanelBandLate (_band : Nat) (s : State) : Out := s.run Chip.bandLate

def execTileAgeEval (s : State) : Out := s.run Chip.panelEval

def execHpdLoss (s : State) : Out := s.run Chip.hpdLost

def execHpdReturn (s : State) : Out := s.run Chip.hpdBack

def execIrqHpd (s : State) : Out := s.run Chip.sinkIrq

def execPanelLinkTrained (rate lanes : Nat) (s : State) : Out := s.run fun c => c.linkTrained rate lanes

/-- The commands of the family. -/
def panelCmds : List Cmd := [cmdSetMode, cmdSetTile, cmdSetOverlay, cmdPanelPolicy, cmdReadPanel]

end Sys2Proof.Machine
end

