-- ==== Sys2Proof/Machine/Pos.lean ====
section
/-! DEFINITION. The position family of the command set and the events of the encoder channels (R70 to R101, R371). -/

namespace Sys2Proof.Machine

/-- The mode that a code names (R71, R362). -/
def encMode (m : Nat) : EncMode :=
  if m = 1 then .quadX1 else if m = 2 then .quadX2 else if m = 3 then .quadX4 else if m = 4 then .pulseDir
  else if m = 5 then .upDown else if m = 6 then .hall else if m = 7 then .bissC else if m = 8 then .ssi else .off

/-- The settings of POS.SET_CHANNEL on a channel (R71): a new mode starts its readings afresh (R88), and a pair that
is no longer monitored has no condition. -/
def applyChannel (e : EncChan) (r : List Byte) : EncChan :=
  let e := { e with mode := encMode (u8 r 1), filterN := u8 r 2, term := u8 r 3, wbTime := u16 r 4, wbMask := u8 r 6,
                    qerrLimit := u8 r 7, invert := u8 r 8 == 1, indexAction := u8 r 9, qualifier := u8 r 10,
                    home := i64 r 12, serPrev := none, serFails := 0 }
  { e with wbNow := e.wbNow &&& wbPairs e }

/-- POS.SET_CHANNEL (R70 to R73, R76, R435). -/
def cmdSetChannel : Cmd :=
  { opcode := 0x0501, roles := [2], size := fun r => r.length == 20, cfg := fun r _ => some (u8 r 0),
    body := fun _ r d =>
      let c := d.chip
      let ch := u8 r 0
      if 7 < ch || 8 < u8 r 1 || u8 r 2 = 0 || 7 < u8 r 3 || u16 r 4 < 5 || 7 < u8 r 6 || 1 < u8 r 8 || 2 < u8 r 9 ||
          1 < u8 r 10 || !posOk (i64 r 12) then .no stBADARG
      else if c.chanArmed ch || (c.covers 3 ch && Chip.encUnsafe (applyChannel (c.enc ch) r)) then .no stBADSTATE
      else .doC fun c => c.setEnc ch (applyChannel (c.enc ch) r) }

def execPosSetChannel (mb : Nat) (req : List Byte) (s : State) : Out :=
  s.onDevIf (validMb mb) (tilpo cmdSetChannel mb req)

/-- POS.SET_SPEED (R72, R93): K starts at K_min under auto range, and is K_max without it. The auto-ranging byte is a flag, 1 for
ON (log 82). -/
def cmdSetSpeed : Cmd :=
  { opcode := 0x0502, roles := [2], size := fun r => r.length == 12, cfg := fun r _ => some (u8 r 0),
    body := fun _ r d =>
      let ch := u8 r 0
      let target := u32 r 4
      let stop := u32 r 8
      if 7 < ch || 10 < u8 r 1 || 10 < u8 r 2 || u8 r 2 < u8 r 1 || 1 < u8 r 3 || target < 1000 || 10000000 < target ||
          target % 10 != 0 || stop = 0 || 1000000 < stop then .no stBADARG
      else if d.chip.chanArmed ch then .no stBADSTATE
      else .doC fun c =>
        let e := c.enc ch
        c.setEnc ch { e with kminLog2 := u8 r 1, kmaxLog2 := u8 r 2, auto := u8 r 3 == 1, targetNs := target,
                             stopUs := stop, kLog2 := if u8 r 3 = 1 then u8 r 1 else u8 r 2 } }

def execPosSetSpeed (mb : Nat) (req : List Byte) (s : State) : Out :=
  s.onDevIf (validMb mb) (tilpo cmdSetSpeed mb req)

/-- Clock periods of a frame (R86): P + 2 for SSI, else P + 12. -/
def frameClocks (m : EncMode) (p : Nat) : Nat := if m = .ssi then p + 2 else p + 12

/-- POS.SET_SERIAL (R72, R85): the frame time is that of the channel's mode, BISS_C's outside the serial modes. -/
def cmdSetSerial : Cmd :=
  { opcode := 0x0503, roles := [2], size := fun r => r.length == 32, cfg := fun r _ => some (u8 r 0),
    body := fun _ r d =>
      let ch := u8 r 0
      let rate := u8 r 1
      let p := u8 r 2
      let period := u32 r 8
      let pause := u32 r 12
      let delay := u32 r 16
      let start := u32 r 20
      let jump := u64 r 24
      if 7 < ch || rate = 0 || 100 < rate || p < 8 || 40 < p || 1 < u8 r 3 || 2 < u8 r 4 ||
          period < 2000 || 1000000 < period || period % 10 != 0 || pause < 1000 || 100000 < pause || pause % 10 != 0 ||
          100000 < delay || delay % 10 != 0 || start < 1000 || 100000 < start || jump = 0 || 2 ^ 39 < jump then
        .no stBADARG
      else if period * rate < frameClocks (d.chip.enc ch).mode p * 10000 + pause * rate then .no stBADARG
      else if d.chip.chanArmed ch then .no stBADSTATE
      else .doC fun c =>
        c.setEnc ch { c.enc ch with
          serRate := rate, serBits := p, serCode := u8 r 3, serParity := u8 r 4, serPeriod := period,
          serPause := pause, serDelay := delay, serStart := start, serJump := jump, serPrev := none, serFails := 0 } }

def execPosSetSerial (mb : Nat) (req : List Byte) (s : State) : Out :=
  s.onDevIf (validMb mb) (tilpo cmdSetSerial mb req)

/-- POS.SET_DIVIDER (R97): a changed N or source clears the accumulator and the backlog. -/
def cmdSetDivider : Cmd :=
  { opcode := 0x0504, roles := [2], size := fun r => r.length == 12, cfg := fun r _ => some (u8 r 0),
    body := fun _ r d =>
      let p := u8 r 0
      let m := u32 r 4
      let n := u32 r 8
      if 3 < p || 7 < u8 r 1 || u16 r 2 < 4 || 1000 < u16 r 2 || m = 0 || n = 0 || 16777215 < n || n < m then
        .no stBADARG
      else if serial (d.chip.enc (2 * p)).mode || serial (d.chip.enc (2 * p + 1)).mode then .no stBADSTATE
      else .doC fun c =>
        let v := c.divider p
        let fresh := v.n != n || v.source != some (u8 r 1)
        c.setDivider p { v with source := some (u8 r 1), gap := u16 r 2, m := m, n := n,
                                acc := if fresh then 0 else v.acc, backlog := if fresh then 0 else v.backlog } }

def execPosSetDivider (mb : Nat) (req : List Byte) (s : State) : Out :=
  s.onDevIf (validMb mb) (tilpo cmdSetDivider mb req)

/-- POS.PRESET (R72, R91): DIR and the speed history stay. -/
def cmdPreset : Cmd :=
  { opcode := 0x0505, roles := [2, 3], size := fun r => r.length == 16,
    body := fun _ r d =>
      let ch := u8 r 0
      if 7 < ch || !posOk (i64 r 8) then .no stBADARG
      else if d.chip.chanArmed ch then .no stBADSTATE
      else .doC fun c => (c.setEnc ch (Chip.loadPos (c.enc ch) (i64 r 8))).pushHistory ch
  }

def execPosPreset (mb : Nat) (req : List Byte) (s : State) : Out := s.onDevIf (validMb mb) (tilpo cmdPreset mb req)

/-- POS.CLEAR_FAULT (R70, R76, R88, R445): FAULT and its entry of the fault list, the sticky flags and the error counts;
function 3's causes of the channel clear with the fault (R439). -/
def cmdClearFault : Cmd :=
  { opcode := 0x0506, roles := [2, 3], size := fun r => r.length == 1,
    body := fun _ r d =>
      let ch := u8 r 0
      if 7 < ch then .no stBADARG
      else if (d.chip.enc ch).wbNow != 0 || d.chip.chanArmed ch then .no stBADSTATE
      else .doC fun c =>
        let c := c.setEnc ch { c.enc ch with fault := false, sticky := 0, qerrCount := 0, serrCount := 0,
                                             serPrev := none, serFails := 0 }
        (c.dropFault 0x09 ch).foldC [0x0401, 0x0402, 0x0403] fun c k => c.clearCause 3 k ch }

def execPosClearFault (mb : Nat) (req : List Byte) (s : State) : Out :=
  s.onDevIf (validMb mb) (tilpo cmdClearFault mb req)

/-- POS.READ_STATUS (R70, R363): the block as one latched set, no latch disturbed. -/
def cmdReadPos : Cmd :=
  { opcode := 0x0507, roles := [], size := fun r => r.length == 1,
    body := fun _ r d => if 7 < u8 r 0 then .no stBADARG else .say (blockBytes (d.chip.posBlock (u8 r 0))) }

def execPosReadStatus (mb : Nat) (req : List Byte) (s : State) : Out :=
  s.onDevIf (validMb mb) (tilpo cmdReadPos mb req)

/-- A read of POS_CNT_LO (R101). -/
def Chip.readPosCnt (c : Chip) (view ch : Nat) : Chip :=
  let b := c.posBlock ch
  { c with rd := le 4 (b.getD 0 0), pos.latches := c.pos.latches.put (view * 8 + ch) b }

def execPosCntLoRead (view : Nat) (chan : Fin 8) (s : State) : Out :=
  s.onRead (validView view) view fun c => c.readPosCnt view chan.val

/-- The place of AB in the forward sequence 00, 10, 11, 01 (R79). -/
def abPlace (ab : Nat) : Nat := if ab = 2 then 1 else if ab = 3 then 2 else if ab = 1 then 3 else 0

/-- The place of UVW in the forward sequence 100, 110, 010, 011, 001, 101; none for 000 and 111 (R83). -/
def hallPlace (u : Nat) : Option Nat :=
  if u = 4 then some 0 else if u = 6 then some 1 else if u = 2 then some 2 else if u = 3 then some 3
  else if u = 1 then some 4 else if u = 5 then some 5 else none

/-- The channel has seen filtered inputs U, V, W, which are A, B, Z (R75, R79, R83): in every mode the decoder holds their
true state. -/
def sawInputs (e : EncChan) (u : Nat) : EncChan :=
  { e with ab := u / 2 % 4, hallNow := u, hallRef := if (hallPlace u).isSome then u else e.hallRef }

/-- A mode that decodes quadrature (R79). -/
def quadMode (m : EncMode) : Bool := m == .quadX1 || m == .quadX2 || m == .quadX4

/-- The quadrature decoder at a new filtered state of A and B (R79, R80); another mode but HALL only follows them. -/
def Chip.quad_ (c : Chip) (ch : Nat) (a b : Bool) : Chip :=
  let e := c.enc ch
  let new := b2n a * 2 + b2n b
  let c' := c.setEnc ch (sawInputs e (new * 2 + e.hallNow % 2))
  let turn := (abPlace new + 4 - abPlace e.ab) % 4
  let sense : Int := if turn = 1 then 1 else -1
  let aMoved := bit new 1 != bit e.ab 1
  let first := (e.ab == 0 && new == 2) || (e.ab == 2 && new == 0)
  let counts := e.mode == .quadX4 || (e.mode == .quadX2 && aMoved) || (e.mode == .quadX1 && first)
  if e.mode == .hall || new == e.ab then c
  else if !quadMode e.mode then c'
  else if turn = 2 then c'.decodeError ch 1 e.ab new
  else if counts then c'.countBy ch (oriented e sense) (c.edgeTime ch)
  else c'

def execQuadDecode (chan : Fin 8) (a b : Bool) (s : State) : Out := s.run fun c => c.quad_ chan.val a b

/-- A rising edge of A in PULSE_DIR (R81): `b` is the level of B before it, `changed` a set-up violation. -/
def Chip.pulse (c : Chip) (ch : Nat) (b changed : Bool) : Chip :=
  let e := c.enc ch
  let c' := c.setEnc ch (sawInputs e (4 + 2 * b2n (b != changed) + e.hallNow % 2))
  if e.mode != .pulseDir then c
  else if changed then c'.decodeError ch 1 (b2n b) (2 + b2n (!b))
  else c'.countBy ch (oriented e (if b then 1 else -1)) (c.edgeTime ch)

def execPulseDirEdge (chan : Fin 8) (b changed : Bool) (s : State) : Out := s.run fun c => c.pulse chan.val b changed

/-- Rising edges of A and B in UP_DOWN (R82): both in one sample give a net 0. -/
def Chip.upDown (c : Chip) (ch : Nat) (a b : Bool) : Chip :=
  let e := c.enc ch
  let c' := c.setEnc ch (sawInputs e (e.hallNow ||| (4 * b2n a + 2 * b2n b)))
  if e.mode != .upDown then c
  else c'.countBy ch (oriented e ((b2n a : Int) - b2n b)) (c.edgeTime ch)

def execUpDownEdge (chan : Fin 8) (a b : Bool) (s : State) : Out := s.run fun c => c.upDown chan.val a b

/-- The Hall decoder at a new filtered state (R83, R84): the reference is the last valid state. Every other mode follows the
state too; in the quadrature modes A and B are the decoder's, and W alone is taken. -/
def Chip.hall (c : Chip) (ch u : Nat) : Chip :=
  let e := c.enc ch
  if u == e.hallNow then c
  else if quadMode e.mode then c.setEnc ch (sawInputs e (e.ab * 2 + u % 2))
  else if e.mode != .hall then c.setEnc ch (sawInputs e u)
  else
    match hallPlace u, hallPlace e.hallRef with
    | none, _ => (c.setEnc ch (sawInputs e u)).decodeError ch 2 e.hallNow u
    | some p, some q =>
      let c' := c.setEnc ch (sawInputs e u)
      let turn := (p + 6 - q) % 6
      if turn = 0 then c'
      else if turn = 1 then c'.countBy ch (oriented e 1) (c.edgeTime ch)
      else if turn = 5 then c'.countBy ch (oriented e (-1)) (c.edgeTime ch)
      else c'.decodeError ch 1 e.hallNow u
    | some _, none => c.setEnc ch (sawInputs e u)

def execHallStateChange (chan : Fin 8) (uvw : Fin 8) (s : State) : Out := s.run fun c => c.hall chan.val uvw.val

/-- A Z rising edge (R90), which the Hall reference follows as W: in FAULT the counter and the compare position are frozen (R75), the latch is made, and HOME_ONCE,
which cannot load, stays (log 49). -/
def Chip.indexEdge (c : Chip) (ch : Nat) (abHigh : Bool) : Chip :=
  let e := c.enc ch
  let e := if e.mode == .hall then e else sawInputs e (e.hallNow ||| 1)
  let c := c.setEnc ch e
  if !incremental e.mode || (e.qualifier == 1 && !abHigh) then c
  else
    let c := c.count (Chip.encCtr ch + 5) 1
    if e.indexAction = 0 then c
    else
      let e' := { e with zCnt := e.raw, zTime := c.edgeTime ch / 65536 }
      let e' := if e.indexAction = 2 && !e.fault then { loadPos e' e.home with reverse := false, indexAction := 0 } else e'
      ((c.setEnc ch e').pushHistory ch).emit 0xA 2 ch 0 (unsigned 64 e.raw)

def execIndexEdge (chan : Fin 8) (abHigh : Bool) (s : State) : Out := s.run fun c => c.indexEdge chan.val abHigh

/-- A monitored pair's wires have agreed for WB_TIME (R74, R75). -/
def Chip.wireBreak (c : Chip) (ch pair : Nat) : Chip :=
  let e := c.enc ch
  if !bit (wbPairs e) pair || bit e.wbNow pair then c
  else
    let c := c.setEnc ch { e with wbNow := setBit e.wbNow pair, sticky := setBit e.sticky 0 }
    c.encFault ch 1 0 (2 ^ pair) false

def execWireBreakSet (chan : Fin 8) (pair : Fin 3) (s : State) : Out := s.run fun c => c.wireBreak chan.val pair.val

/-- The pair's wires have disagreed for WB_TIME (R74): FAULT persists (R76). -/
def execWireBreakClear (chan : Fin 8) (pair : Fin 3) (s : State) : Out :=
  s.run fun c => c.setEnc chan.val { c.enc chan.val with wbNow := clearBits (c.enc chan.val).wbNow (2 ^ pair.val) }

/-- The bits of a number, most significant first. -/
def msbBits (w v : Nat) : List Bool := (List.range w).map fun i => bit v (w - 1 - i)

/-- Binary from Gray code (R88): each bit is the parity of the Gray bits from it upward. -/
def ofGray (w g : Nat) : Nat := (List.range w).foldl (fun a i => a ^^^ (g / 2 ^ i)) 0 % 2 ^ w

/-- What a frame gives (R86, R87), the CRC-6 started at 0 (log 82): the position, or the number of the failure in the order of R87; each with its warning. -/
def readFrame (e : EncChan) : SerialFrame → Option ((Nat ⊕ Nat) × Bool)
  | .noStart => if e.mode = .bissC then some (.inr 1, false) else none
  | .heldLow => some (.inr 5, false)
  | .biss p nE nW crc =>
    if e.mode != .bissC then none
    else
      let p := p % 2 ^ e.serBits
      let sum := crcBits 6 0x03 0 (msbBits e.serBits p ++ [nE, nW]) ^^^ 0x3F
      some (if crc % 64 != sum then .inr 2 else if !nE then .inr 3 else .inl p, !nW)
  | .ssi v par =>
    if e.mode != .ssi then none
    else
      let v := v % 2 ^ e.serBits
      let ones := ((msbBits e.serBits v).filter id).length + b2n par
      if (e.serParity = 1 ∧ ones % 2 = 1) ∨ (e.serParity = 2 ∧ ones % 2 = 0) then some (.inr 4, false)
      else some (.inl (if e.serCode = 1 then ofGray e.serBits v else v), false)

/-- A failed reading (R87): counted, flagged and reported; the third in a row is FAULT. -/
def Chip.readingFailed (c : Chip) (ch fail : Nat) (warn : Bool) : Chip :=
  let e := c.enc ch
  let n := e.serFails + 1
  let c := c.setEnc ch { e with serrCount := sat 16 (e.serrCount + 1), sticky := setBit e.sticky 3, serFails := n }
  let c := (c.count (Chip.encCtr ch + 3) 1).encFaultRec ch 3 fail 0 warn
  if 3 ≤ n ∧ ¬ e.fault then c.encFault ch 4 fail 0 warn else c

/-- A good reading (R88): the first loads the counter, which the compare position follows under R92, a later one moves it by
d, or fails past the jump limit. Its edge time is the first falling edge of DO, one frame time ago, plus the sample
delay. -/
def Chip.reading (c : Chip) (ch r : Nat) (warn : Bool) : Chip :=
  let e := c.enc ch
  let frame := (quot ((frameClocks e.mode e.serBits : Nat) * 655360000) e.serRate).toNat
  let t := c.time.tb - frame + e.serDelay * nsU
  match e.serPrev with
  | none =>
    if e.fault then c
    else
      let e' := hysteresis { e with raw := wrap48 (e.home + r), serPrev := some r, serFails := 0 } t
      ((c.setEnc ch e').pushHistory ch).windowCrossings ch e.xc e'.xc t
  | some p =>
    let d := signed e.serBits (unsigned e.serBits ((r : Int) - p))
    if e.serJump < d.natAbs then c.readingFailed ch 6 warn
    else (c.setEnc ch { e with serPrev := some r, serFails := 0 }).countBy ch (oriented e d) t

def execSerialReading (chan : Fin 8) (reading : SerialFrame) (s : State) : Out :=
  s.run fun c =>
    match readFrame (c.enc chan.val) reading with
    | none => c
    | some (.inl r, warn) => c.reading chan.val r warn
    | some (.inr f, warn) => if serial (c.enc chan.val).mode then c.readingFailed chan.val f warn else c

/-- The divider emits one step of its backlog (R98, R99). -/
def Chip.dividerStep (c : Chip) (p : Nat) : Chip :=
  let v := c.divider p
  match v.source with
  | none => c
  | some ch =>
    if v.backlog = 0 then c
    else
      let s : Int := if 0 < v.backlog then 1 else -1
      (c.setDivider p { v with backlog := v.backlog - s, emitted := v.emitted + s }).count (Chip.encCtr ch + 6) 1

def execDividerOutputStep (pair : Fin 4) (s : State) : Out := s.run fun c => c.dividerStep pair.val

def posCmds : List Cmd :=
  [cmdSetChannel, cmdSetSpeed, cmdSetSerial, cmdSetDivider, cmdPreset, cmdClearFault, cmdReadPos]

end Sys2Proof.Machine
end

