-- ==== Sys2Proof/Machine/Power.lean ====
section
/-! DEFINITION. The power family of the command set (R377), and the events of meters, voltage following, the controllers and
the thermal step-down (R29 to R35, R474 to R480, R493 to R496). -/

namespace Sys2Proof.Machine

/-- POWER.SET_VF_MODE (R35, R377): FOLLOW from FIXED waits on a reading of the regulator; while VCORE_SAFE# holds the output
that reading may also lie where R33 puts it. -/
def cmdVfMode : Cmd :=
  { opcode := 0x0B01, roles := [2], size := fun r => r.length == 1, stage := 4,
    body := fun _ r d =>
      if 1 < u8 r 0 then .no stBADARG
      else if u8 r 0 = 1 then .doC fun c => c.enterFixed 0
      else if d.chip.power.fixed then .park .pmbus id
      else .doC id,
    resume := fun _ _ a d =>
      let c := d.chip
      let mv := u16 a.2 0
      let ok := a.1 == 0 && (c.voutFits mv || (c.power.vcoreSafe && decide (780 ≤ mv) && decide (mv ≤ 850)))
      if !ok then .no stBADSTATE
      else .doC fun c => { c with power.fixed := false, power.vcoreSafe := false, power.wide := 0, power.settling := false,
                                  power.pmbusFails := 0, power.voutFails := 0 } }

def execPowerSetVfMode (mb : Nat) (req : List Byte) (s : State) : Out := s.onDevIf (validMb mb) (tilpo cmdVfMode mb req)

/-- POWER.READ_VF_STATE (R37, R377). -/
def cmdVfState : Cmd :=
  { opcode := 0x0B02, roles := [], size := fun r => r.length == 0,
    body := fun _ _ d =>
      let p := d.chip.power
      .say (le 1 (b2n p.fixed) ++ le 1 p.vfCause ++ le 2 0 ++ le 2 p.setpoint ++ le 2 p.vout ++ le 2 p.margin ++ le 2 0 ++
        le 4 p.raises ++ le 4 p.lowers) }

def execPowerReadVfState (mb : Nat) (req : List Byte) (s : State) : Out := s.onDevIf (validMb mb) (tilpo cmdVfState mb req)

/-- peak_left_ms (R478). -/
def peakLeft (c : Chip) : Nat :=
  if c.power.step != 0 then 0
  else if c.power.rise ≤ 0 then 0xFFFFFFFF
  else min 0xFFFFFFFE (quot ((1010 - c.tjLogic) * 1000) c.power.rise.toNat).toNat

/-- POWER.READ_THERMAL (R377, R474, R475, R478). -/
def cmdThermal : Cmd :=
  { opcode := 0x0B03, roles := [], size := fun r => r.length == 0,
    body := fun _ _ d =>
      let c := d.chip
      .say (le 2 (unsigned 16 c.tjLogic) ++ ((List.range 4).flatMap fun i => le 2 (unsigned 16 (c.power.temps.getD (32 + i) 0))) ++
        le 1 c.power.step ++ le 1 0 ++ le 4 (peakLeft c)) }

def execPowerReadThermal (mb : Nat) (req : List Byte) (s : State) : Out := s.onDevIf (validMb mb) (tilpo cmdThermal mb req)

/-- POWER.ENTER_STANDBY (R377, R468): standby follows once the response is out. -/
def cmdStandby : Cmd :=
  { opcode := 0x0B04, roles := [2], size := fun r => r.length == 0,
    body := fun _ _ d =>
      if !d.chip.mbx.tickets.isEmpty then .no stBADSTATE
      else .doC fun c => { c with power.standby := true } }

def execPowerEnterStandby (mb : Nat) (req : List Byte) (s : State) : Out := s.onDevIf (validMb mb) (tilpo cmdStandby mb req)

def powerCmds : List Cmd := [cmdVfMode, cmdVfState, cmdThermal, cmdStandby]

def execMeterWindowClose (paces : List Nat) (s : State) : Out := s.run fun c => c.closeWindow paces

def execVfEvaluate (margin : Nat) (s : State) : Out := s.run fun c => c.evaluate margin

def execReadVoutCheck (mv : Nat) (s : State) : Out := s.run fun c => c.checkVout mv

def execMcTransaction (mc : Fin 4) (req : McReq) (clear : McClear) (result : McEnd) (s : State) : Out :=
  s.run fun c => (c.transact mc.val req clear result).enterSteps

/-- A module's poll (R493, R498): a fault it shows anew, or its removal. -/
def Chip.modulePolled (c : Chip) (site : Nat) (flags : Option Nat) : Chip :=
  let m := c.module site
  if !m.present then c
  else match flags with
  | none => (c.setModule site ModuleSt.reset).emit 0x28 1 site 2 0
  | some f =>
    let c := c.setModule site { m with ready := true, flags := f }
    if f != 0 && f != m.flags then c.emit 0x28 1 site 1 f else c

def execModulePoll (site : Fin 16) (flags : Option Nat) (s : State) : Out := s.run fun c => c.modulePolled site.val flags

/-- The poll of an empty site (R493). -/
def Chip.sitePolled (c : Chip) (site : Nat) (ack : Bool) : Chip :=
  if (c.module site).present || !ack then c
  else (c.setModule site { present := true, ready := true, flags := 0 }).emit 0x28 1 site 3 0

def execSiteInsertionPoll (site : Fin 16) (ack : Bool) (s : State) : Out := s.run fun c => c.sitePolled site.val ack

def execThermalSensorRead (readings : List Int) (s : State) : Out := s.run fun c => c.readSensors readings

def execStepdownExit (s : State) : Out := s.run Chip.leaveStep

/-- PREVIEW level 2 (R476). -/
def Chip.previewRaise (c : Chip) : Chip :=
  if c.power.preview = 1 ∧ c.reached 2 = true then { c with power.preview := 2 } else c

def execPreviewLevelRaise (s : State) : Out := s.run Chip.previewRaise

def execThrottleTick (s : State) : Out := s.run Chip.throttleStep

/-- The thermal trip (R480). -/
def Chip.tripNow (c : Chip) : Chip :=
  if c.tjLogic < 1120 ∧ c.tjStack < 1000 then c
  else ({ c with power.trip := true, power.pwrEn := false, power.nextCause := 4 } : Chip).holdReset

def execThermalTrip (s : State) : Out := s.run Chip.tripNow

/-- Boot ROM after a trip (R480): start-up goes on once every logic sensor is below 90 °C. -/
def Chip.bootWait (c : Chip) (readings : List Int) : Chip :=
  if !c.power.tripWait then c
  else
    let c : Chip := { c with power.temps := (List.range 32).map (readings.getD · 0) ++ c.power.temps.drop 32 }
    { c with power.tripWait := decide (900 ≤ c.tjLogic) }

def execBootThermalWait (readings : List Int) (s : State) : Out := s.run fun c => c.bootWait readings

/-- A core hold (R472): no handshake of the core passes, and nothing is lost. -/
def execCoreHoldStart (s : State) : Out := s.run fun c => { c with power.coreHold := true }

def execCoreHoldEnd (s : State) : Out := s.run fun c => { c with power.coreHold := false }

/-- A core hold of more than 1 ms (R472): a device reset with cause BROWNOUT. -/
def execBrownoutReset (s : State) : Out :=
  s.run fun c => if c.power.coreHold then ({ c with power.nextCause := 5 } : Chip).holdReset else c

def execStartPacerGrant (s : State) : Out := s.run fun c => c.pacerRun c.power.pacer.length

/-- A stack has started, or has been retrained at full rate (R461). -/
def execStackReady (stack : Fin 4) (s : State) : Out :=
  s.run fun c =>
    if c.stageNo < 2 then c
    else { c with power.fsStacks := c.power.fsStacks.upd 0 stack.val fun n => min 2 (n + 1) }

end Sys2Proof.Machine
end

