-- ==== Sys2Proof/Machine/Roles.lean ====
section
/-! DEFINITION. The role family of the command set (R354 to R360, R375) and the expiries of sessions and challenges. -/

namespace Sys2Proof.Machine

namespace Chip

/-- A key slot (R354). -/
def key (c : Chip) (role slot : Nat) : KeySlot := c.mbx.keys.getD { state := 0, key := [] } (slotIndex role slot)

def setKey (c : Chip) (role slot : Nat) (v : KeySlot) : Chip :=
  { c with mbx.keys := c.mbx.keys.put (slotIndex role slot) v }

/-- The 48 bytes that ROLE.OPEN_SESSION's MAC covers (R355). -/
def sessionMessage (nonce : List Byte) (mb role slot id : Nat) : List Byte :=
  nonce ++ le 8 Config.serial.toNat ++ le 2 mb ++ le 1 role ++ le 1 slot ++ le 4 id

/-- A failed ROLE.OPEN_SESSION (R355, R356): the challenge is spent, ROLE_FAIL, the failures of the last 60 s. -/
def openFail (c : Chip) (mb role slot : Nat) : Chip :=
  let recent := fun (l : List Nat) => l.filter fun t => decide (c.up < t + 60 * secU)
  let b := c.box mb
  let fs := recent b.fails ++ [c.up]
  let ds := recent c.mbx.devFails ++ [c.up]
  let c := c.setBox mb { b with chal := none, fails := fs, locked := b.locked || decide (4 ≤ fs.length) }
  let c := { c with mbx.devFails := ds, mbx.devLocked := c.mbx.devLocked || decide (32 ≤ ds.length) }
  c.emit 0x1C 1 mb (role * 256 + slot) 0

end Chip

/-- ROLE.GET_CHALLENGE (R355, R375): BUSY under R356. -/
def cmdGetChallenge : Cmd :=
  { opcode := 0x0901, roles := [], size := fun r => r.length == 0,
    body := fun x _ d =>
      let c := d.chip
      if (c.box x.mb).locked || c.mbx.devLocked then .no stBUSY
      else
        let rnd := c.random 36
        let id := leNat (rnd.drop 32)
        .ends stOK 0 (le 4 id ++ rnd.take 32) (Dev.onChip fun c =>
          (c.setBox x.mb { c.box x.mb with chal := some { id := id, nonce := rnd.take 32, issued := c.up } }).drawn) }

def execRoleGetChallenge (mb : Nat) (req : List Byte) (s : State) : Out :=
  s.onDevIf (validMb mb) (tilpo cmdGetChallenge mb req)

/-- ROLE.OPEN_SESSION (R355, R375), recorded whether it succeeds or fails (R358). -/
def cmdOpenSession : Cmd :=
  { opcode := 0x0902, roles := [], size := fun r => r.length == 40,
    body := fun x r d =>
      let c := d.chip
      let role := u8 r 0
      let slot := u8 r 1
      let mac := r.drop 8
      if !Chip.slotOk role slot then .no stBADARG
      else
        let k := c.key role slot
        let open_ := x.mb ≥ 256 || x.mb % 128 == 0 || role == 3
        let good := match (c.box x.mb).chal with
          | some h => h.id == u32 r 4 && decide (c.up ≤ h.issued + 10 * secU) && k.state == 1 && open_ &&
              hmac k.key (Chip.sessionMessage h.nonce x.mb role slot h.id) == mac
          | none => false
        let dg := Chip.reqDigest (c.box x.mb) r
        if good then
          .doR fun c =>
            let handle := c.newHandle
            let c := c.endSession x.mb 0
            let s : Session := { handle := handle, role := role, slot := slot, used := c.up }
            ((c.setBox x.mb { c.box x.mb with chal := none, sess := some s }).drawn,
              le 4 handle ++ hmac k.key (mac ++ le 4 handle))
        else
          .ends stNORIGHT 1 [] (Dev.onChip fun c =>
            (c.openFail x.mb role slot).audit 1 0x0902 stNORIGHT role slot x.mb 0 dg) }

def execRoleOpenSession (mb : Nat) (req : List Byte) (s : State) : Out :=
  s.onDevIf (validMb mb) (tilpo cmdOpenSession mb req)

/-- ROLE.CLOSE_SESSION (R356, R375). -/
def cmdCloseSession : Cmd :=
  { opcode := 0x0903, roles := [1, 2, 3], size := fun r => r.length == 0, scope := fun _ _ _ => true,
    body := fun x _ _ => .doC fun c => c.endSession x.mb 0 }

def execRoleCloseSession (mb : Nat) (req : List Byte) (s : State) : Out :=
  s.onDevIf (validMb mb) (tilpo cmdCloseSession mb req)

/-- MAKER acts on MAKER and INSTALLER slots, INSTALLER on OPERATOR slots (R354). -/
def slotRight (x : Ctx) (role : Nat) : Bool := x.grantAll || x.role == (if role = 3 then 2 else 1)

/-- ROLE.PROGRAM_KEY (R354, R375): writes a key to a BLANK slot; whether the read-back fails is free (log 42). -/
def cmdProgramKey : Cmd :=
  { opcode := 0x0904, roles := [1, 2], size := fun r => r.length == 36,
    body := fun x r d =>
      let role := u8 r 0
      let slot := u8 r 1
      if !slotRight x role then .no stNORIGHT
      else if !Chip.slotOk role slot then .no stBADARG
      else if (d.chip.key role slot).state != 0 then .no stBADSTATE
      else if d.chip.fresh 42 [role, slot] % 2 = 1 then
        .refuseC stINTERNAL [] fun c => (c.setKey role slot { state := 2, key := r.drop 4 }).drawn
      else .doC fun c => (c.setKey role slot { state := 1, key := r.drop 4 }).drawn }

def execRoleProgramKey (mb : Nat) (req : List Byte) (s : State) : Out :=
  s.onDevIf (validMb mb) (tilpo cmdProgramKey mb req)

/-- Closes every session opened with a slot (R354). -/
def Chip.closeSlot (c : Chip) (role slot : Nat) : Chip :=
  c.foldC (c.mbx.boxes.filter fun p => (c.box p.1).sess.any fun s => s.role == role && s.slot == slot) fun c p =>
    c.endSession p.1 0x12

/-- ROLE.REVOKE_KEY (R354, R375). -/
def cmdRevokeKey : Cmd :=
  { opcode := 0x0905, roles := [1, 2], size := fun r => r.length == 2,
    body := fun x r d =>
      let role := u8 r 0
      let slot := u8 r 1
      let c := d.chip
      let makers := ([0, 1, 2, 3].filter fun i => (c.key 1 i).state == 1).length
      if !slotRight x role then .no stNORIGHT
      else if !Chip.slotOk role slot then .no stBADARG
      else if (c.key role slot).state != 1 || (role == 1 && makers == 1) then .no stBADSTATE
      else .doC fun c => (c.setKey role slot { c.key role slot with state := 2 }).closeSlot role slot }

def execRoleRevokeKey (mb : Nat) (req : List Byte) (s : State) : Out :=
  s.onDevIf (validMb mb) (tilpo cmdRevokeKey mb req)

/-- ROLE.LOCK_PART (R354, R513). -/
def cmdLockPart : Cmd :=
  { opcode := 0x0906, roles := [1], size := fun r => r.length == 0,
    body := fun _ _ d =>
      let c := d.chip
      let act := fun role n => (List.range n).any fun i => (c.key role i).state == 1
      if !(act 1 4 && act 2 8) || c.mbx.lockedPart then .no stBADSTATE
      else .doC fun c => { c with mbx.lockedPart := true } }

def execRoleLockPart (mb : Nat) (req : List Byte) (s : State) : Out :=
  s.onDevIf (validMb mb) (tilpo cmdLockPart mb req)

/-- Idle time of a role, s (R356). -/
def Chip.idleOf (c : Chip) (role : Nat) : Nat := c.mbx.idle.getD 900 role

/-- ROLE.SET_POLICY (R356, R357, R375). -/
def cmdSetPolicy : Cmd :=
  { opcode := 0x0907, roles := [2], size := fun r => r.length == 8,
    cfg := fun r _ => some (u8 r 0),
    body := fun _ r d =>
      let role := u8 r 0
      let idle := u32 r 4
      if !(1 ≤ role && role ≤ 3) || idle < 60 || 86400 < idle then .no stBADARG
      else if d.chip.mbx.boxes.any fun p => (d.chip.box p.1).sess.any fun s =>
          s.role == role && decide (s.used + idle * secU < d.chip.up) then .no stBADSTATE
      else .doC fun c => { c with mbx.idle := c.mbx.idle.put role idle } }

def execRoleSetPolicy (mb : Nat) (req : List Byte) (s : State) : Out :=
  s.onDevIf (validMb mb) (tilpo cmdSetPolicy mb req)

/-- The 64 bytes of an audit entry (R359). -/
def auditBytes (e : AuditEntry) : List Byte := Chip.auditHead e ++ e.hash

/-- ROLE.READ_AUDIT (R360, R375): without a session's key HEAD_MAC is left open (log 20). -/
def cmdReadAudit : Cmd :=
  { opcode := 0x0908, roles := [1, 2], size := fun r => r.length == 40,
    body := fun x r d =>
      let c := d.chip
      let n := c.mbx.auditNext
      let first := u32 r 0
      let count := u8 r 4
      let oldest := n - 8192
      if count = 0 ∨ 56 < count ∨ n ≤ first ∨ first < oldest then .no stBADARG
      else
        let l := (List.range (min count (n - first))).map fun i =>
          match c.mbx.audit.find? ((first + i) % 8192) with | some e => auditBytes e | none => []
        let head := c.mbx.auditHash.take 24 ++ le 4 (n - 1)
        let mac := match x.sess with
          | some s => hmac (c.key s.role s.slot).key (r.drop 8 ++ head)
          | none => (List.range 32).map fun i => BitVec.ofNat 8 (c.fresh 20 [i])
        .say (l.flatten ++ le 4 oldest ++ le 4 (n - 1) ++ c.mbx.auditHash.take 24 ++ mac) }

def execRoleReadAudit (mb : Nat) (req : List Byte) (s : State) : Out :=
  s.onDevIf (validMb mb) (tilpo cmdReadAudit mb req)

/-- ROLE.READ_KEYS (R375): the states of the 28 slots. -/
def cmdReadKeys : Cmd :=
  { opcode := 0x0909, roles := [], size := fun r => r.length == 0,
    body := fun _ _ d =>
      .say ((List.range 28).map fun i => BitVec.ofNat 8 (d.chip.mbx.keys.getD { state := 0, key := [] } i).state) }

def execRoleReadKeys (mb : Nat) (req : List Byte) (s : State) : Out :=
  s.onDevIf (validMb mb) (tilpo cmdReadKeys mb req)

/-- A session ends after its idle time (R356). -/
def execSessionIdleExpiry (mb : Nat) (s : State) : Out :=
  s.onChipIf (validMb mb) fun c => c.endSession mb 0x15

/-- A challenge expires (R355). -/
def execChallengeExpiry (mb : Nat) (s : State) : Out :=
  s.onChipIf (validMb mb) fun c => c.setBox mb { c.box mb with chal := none }

/-- The 60 s of BUSY end (R356). -/
def execChallengeLockoutEnd (mb : Option Nat) (s : State) : Out :=
  match mb with
  | some m => s.onChipIf (validMb m) fun c => c.setBox m { c.box m with locked := false, fails := [] }
  | none => s.run fun c => { c with mbx.devLocked := false, mbx.devFails := [] }

def roleCmds : List Cmd :=
  [cmdGetChallenge, cmdOpenSession, cmdCloseSession, cmdProgramKey, cmdRevokeKey, cmdLockPart, cmdSetPolicy,
   cmdReadAudit, cmdReadKeys]

end Sys2Proof.Machine
end

