-- ==== Sys2Proof/Machine/SeamOps.lean ====
section
/-! DEFINITION. The Seam fabric at work: flits received and sent (R388 to R394), discovery, root and Seam IDs (R395 to
R398), routes (R399, R400), and frames between devices (R407 to R409). -/

namespace Sys2Proof.Machine

/-- The flit that a header and its payload blocks give (R388). -/
def flitOf (h payload : List Byte) : Flit :=
  { kind := u8 h 7, cls := u8 h 1 % 4, src := u16 h 5 % 1024, dest := u16 h 3 % 1024, hops := u8 h 9,
    stream := u16 h 10 % 512, esn := u32 h 22, alt := bit (u8 h 1) 5, payload := payload }

/-- Blocks of a flit: its header and its payload (R388). -/
def flitBlocks (f : Flit) : Nat := 1 + f.payload.length / 32

namespace Chip

/-- Blocks leave the buffer of a class on a link: their credit is to be returned (R392). -/
def owe (c : Chip) (l cls n : Nat) : Chip :=
  match c.link? l with
  | none => c
  | some k => c.setLink l { k with owed := k.owed.mapIdx fun i m => if i = cls then m + n else m }

/-- ACK of a control block (R388, R391): what it covers leaves the replay buffer, and its advance clears the count of
replays. -/
def takeAck (c : Chip) (l ack : Nat) : Chip :=
  match c.link? l with
  | none => c
  | some k =>
    let done := fun (s : SentFlit) => decide ((ack + 65536 - s.fsn % 65536) % 65536 < 32768)
    let left := k.replay.filter (!done ·)
    if left.length = k.replay.length then c
    else c.setLink l { k with replay := left.map fun s => { s with replays := 0 } }

/-- CREDITS of a control block (R388, R392). -/
def takeCredit (c : Chip) (l : Nat) (h : List Byte) : Chip :=
  match c.link? l with
  | none => c
  | some k => c.setLink l { k with credit := k.credit.mapIdx fun i n => n + u8 h (12 + i) * (if i = 0 then 1 else 16) }

/-- Everything not yet acknowledged is sent again (R391); the fourth replay of one FSN fails the link. -/
def replayLink (c : Chip) (l : Nat) : Chip :=
  match c.link? l with
  | none => c
  | some k =>
    if k.replay.isEmpty then c
    else
      let again := k.replay.map fun (s : SentFlit) => { s with replays := s.replays + 1 }
      let n := again.length
      let check := match again.getLast? with | some s => k.flitCheck s true | none => k.crcPrev
      let c := c.setLink l { k with replay := again, crcPrev := check, replays := (k.replays + n) % 2 ^ 32 }
      let c := (c.count (0xD80 + 16 * l + 6) n).foldC again fun c _ => c.traceOpen 7 0
      if again.any fun s => decide (4 ≤ s.replays) then c.linkFail l else c

/-- What a device does to a link may fail it: its lanes then start again (R384, R391). -/
def onLink (c : Chip) (mem : Mem) (l : Nat) (f : Chip → Chip) : Chip :=
  let was := c.upLinks.contains l
  let c := f c
  match c.link? l with
  | none => c
  | some k =>
    if was && k.state == .failed then
      c.foldC ((List.range k.width).map (k.first + ·)) fun c n =>
        if (c.lane n).state = .up then c.beginAttempt mem n true else c
    else c

/-- A flit has been delivered here, and waits for the row of its kind (R389). -/
def land (c : Chip) (from_ : Nat) (f : Flit) : Chip := { c with seam.landed := c.seam.landed ++ [(from_, f)] }

/-- The row of a delivered flit has come: it is no longer waiting. -/
def unland (c : Chip) (from_ kind : Nat) : Chip :=
  let me := fun (p : Nat × Flit) => p.1 == from_ && p.2.kind == kind
  let before := c.seam.landed.takeWhile (!me ·)
  { c with seam.landed := before ++ (c.seam.landed.dropWhile (!me ·)).drop 1 }

/-- The receive order of one source and class (R394). -/
def esnOf (c : Chip) (src cls : Nat) : EsnRx := c.seam.esnRx.getD { expect := 0, waiting := [] } (src * 4 + cls)

/-- Bytes that wait in the reorder buffer (R394). -/
def reorderBytes (c : Chip) : Nat :=
  ((c.seam.esnRx.flatMap fun e => e.2.waiting).map fun f => 32 * flitBlocks f).foldl (· + ·) 0

/-- Flits that wait and are now in turn are delivered (R394). -/
def drainEsn (c : Chip) (src cls : Nat) : Chip :=
  let e := c.esnOf src cls
  let run := (e.waiting.zipIdx.takeWhile fun p => p.1.esn == (e.expect + p.2) % 2 ^ 32).map (·.1)
  let r : EsnRx := { expect := (e.expect + run.length) % 2 ^ 32, waiting := e.waiting.drop run.length }
  let c : Chip := { c with seam.esnRx := c.seam.esnRx.put (src * 4 + cls) r }
  c.foldC run fun c f => c.land src f

/-- The ESNs up to the oldest waiting flit are lost (R394). -/
def loseEsn (c : Chip) (src cls : Nat) : Chip :=
  let e := c.esnOf src cls
  match e.waiting with
  | [] => c
  | f :: _ =>
    let n := (f.esn + 2 ^ 32 - e.expect) % 2 ^ 32
    let c : Chip := { c with seam.esnRx := c.seam.esnRx.put (src * 4 + cls) { e with expect := f.esn } }
    (c.emit 0x1F 1 src (cls * 256 + 1) n).drainEsn src cls

/-- A routed flit has reached its destination (R394). -/
def accept (c : Chip) (f : Flit) : Chip :=
  let e := c.esnOf f.src f.cls
  let ahead := fun (g : Flit) => (g.esn + 2 ^ 32 - e.expect) % 2 ^ 32
  if 2 ^ 31 ≤ ahead f || e.waiting.any (·.esn == f.esn) then c
  else
    let w := e.waiting.takeWhile (fun g => decide (ahead g < ahead f)) ++ f :: e.waiting.dropWhile fun g => decide (ahead g < ahead f)
    let c : Chip := { c with seam.esnRx := c.seam.esnRx.put (f.src * 4 + f.cls) { e with waiting := w } }
    let c := c.drainEsn f.src f.cls
    if 4 * 2 ^ 20 < c.reorderBytes then c.loseEsn f.src f.cls else c

/-- A flit intact and in order on its link goes on (R389, R393, R394). -/
def route (c : Chip) (l : Nat) (f : Flit) : Chip :=
  if oneHop f.kind then (c.owe l f.cls (flitBlocks f)).land l f
  else if some f.dest == c.seam.id then (c.owe l f.cls (flitBlocks f)).accept { f with via := l }
  else if 64 ≤ f.hops + 1 then (c.owe l f.cls (flitBlocks f)).count (0xD80 + 16 * l + 8) 1
  else { c with seam.queue := c.seam.queue ++ [{ inLink := some l, out := none, flit := { f with hops := f.hops + 1 } }] }

/-- A FLIT or LINK block and its payload arrive (R387 to R391). `trail`: the CRC_PREV that follows; `bad`: a codeword that
carried it was BAD. -/
def flitIn (c : Chip) (l : Nat) (h payload : List Byte) (trail : Nat) (bad : Bool) : Chip :=
  match c.link? l with
  | none => c
  | some k =>
    if k.state = .off || k.state = .wiring then c
    else
      let type := u8 h 0
      let c := c.count (0xD80 + 16 * l + 4) (1 + payload.length / 32)
      if bad || h.length != 32 || (type != 0x80 && type != 0x81) || lineCrc (h.take 30) != u16 h 30 then c.nak l
      else
        let c := (c.takeAck l (u16 h 16)).takeCredit l h
        let fsn := u32 h 18
        if type = 0x81 then
          let c := if bit (u8 h 1) 6 then c.replayLink l else c
          if fsn != k.rxFsn && !k.nakSent then c.nak l else c
        else if payload.length != 32 * u8 h 8 then c.nak l
        else
          let check := crc32c (h.take 26 ++ payload)
          let stomped := decide (trail = check ^^^ (2 ^ 32 - 1))
          let go := fsn == k.rxFsn && (!k.nakSent || bit (u8 h 1) 7)
          if trail != check && !stomped then c.nak l
          else if !go then (if k.nakSent then c else c.nak l)
          else
            match c.link? l with
            | none => c
            | some k =>
              let c := c.setLink l { k with rxFsn := (fsn + 1) % 2 ^ 32, nakSent := false }
              if stomped then c.owe l (u8 h 1 % 4) (1 + payload.length / 32) else c.route l (flitOf h payload)

/-- Where a waiting flit leaves (R389, R400, R401): the link and ALT, or none where it is discarded. -/
def outOf (c : Chip) (q : QFlit) : Option (Nat × Bool) :=
  match q.out with
  | some l => some (l, false)
  | none =>
    let r := c.seam.routes.getD RouteSt.none q.flit.dest
    if !r.valid then none
    else if q.flit.alt then
      if q.inLink.isSome then (if c.upLinks.contains r.primary then some (r.primary, true) else none)
      else if r.alt = 0xFF then none else some (r.alt, true)
    else if r.usingAlt then some (r.alt, true)
    else some (r.primary, false)

/-- Discards the flits that no link takes, and counts them (R401); the count stands at the link they came in on, or at
link 0. -/
def dropStray (c : Chip) : Chip :=
  let stray := c.seam.queue.filter fun (q : QFlit) => (c.outOf q).isNone
  let c : Chip := { c with seam.queue := c.seam.queue.filter fun (q : QFlit) => (c.outOf q).isSome }
  c.foldC stray fun c q =>
    let r := c.seam.routes.getD RouteSt.none q.flit.dest
    let c := c.count (0xD80 + 16 * (if r.valid then r.primary else q.inLink.getD 0) + 8) 1
    match q.inLink with | some l => c.owe l q.flit.cls (flitBlocks q.flit) | none => c

/-- The next flit for a link within a class: sources take turns, the oldest of a source first (R393). -/
def pickSource (turn : Nat) (l : List QFlit) : Option QFlit :=
  let up := l.filter fun q => decide (turn ≤ q.flit.src)
  let low := fun (l : List QFlit) => (l.map (·.flit.src)).min?
  match low up with
  | some s => up.find? (·.flit.src == s)
  | none => match low l with | some s => l.find? (·.flit.src == s) | none => none

/-- The payload of a flit of a frame: at most 255 blocks, whole blocks unless the frame ends (R408). -/
def flitBytes (s : StreamSt) (f : Frame) : List Byte :=
  let n := deliverable s f - f.issued
  let n := if f.phase = .finished then n else n / 32 * 32
  (f.bytes.drop f.issued).take (min n 8160)

/-- The peg template of a frame (R408): CHANNEL, LOCATION and PEG_CRC 0. -/
def templateOf (c : Chip) (sid : Nat) (s : StreamSt) (f : Frame) : List Byte :=
  let fl := c.pegFlags s f
  let inter := decide (1 < f.count) && f.piped && !(bit (u8 (c.setOf s.port f.set) 5) 1)
  let sh := pegShape f inter
  let b :=
    if bit fl 0 then
      pegBytes f sid fl 0 0 0 0 (if bit fl 9 then f.lines else 0) (if bit fl 9 then 0 else f.lines) 0
    else pegBytes f sid fl 0 0 sh.1 sh.2.1 sh.2.2 f.bytes.length (crc32c f.bytes)
  b.take 60 ++ List.replicate 4 0

/-- The next flit of a stream that goes to the Seam (R408): payload in order, then FRAME_END, with which the frame has
left. -/
def streamFlit (c : Chip) (sid : Nat) : Chip :=
  match c.stream? sid with
  | none => c
  | some s =>
    match headFrame s with
    | none => c
    | some f =>
      if !f.place.seam || f.phase = .judging || !c.reachable f.place.seamId || c.seam.id.isNone then c
      else
        let me := f.same
        let b := flitBytes s f
        if f.phase != .lost && !b.isEmpty then
          (c.originate s.cls 0x10 f.place.seamId sid b).mapFrames sid me fun x => { x with issued := x.issued + b.length }
        else if f.phase = .lost || f.phase = .finished then
          let c := c.originate s.cls 0x11 f.place.seamId sid (c.templateOf sid s f)
          (c.setStream sid { s with pegEpoch := if laterEpoch s.pegEpoch f.epoch then f.epoch else s.pegEpoch,
                                    frames := s.frames.filter (!me ·) }).settle_ sid
        else c

/-- Every stream that goes to the Seam has its next flit waiting (R408). -/
def seamFlush (c : Chip) : Chip :=
  c.foldC (c.store.streams.map (·.1)) fun c sid =>
    if c.seam.queue.any fun (q : QFlit) => q.inLink.isNone && q.flit.stream == sid &&
        (q.flit.kind == 0x10 || q.flit.kind == 0x11) then c
    else c.streamFlit sid

/-- The flits of a link's queue that may be next (R393): of one source, destination and class only the oldest. -/
def heads (l : List QFlit) : List QFlit :=
  let same := fun (a b : QFlit) => a.flit.src == b.flit.src && a.flit.dest == b.flit.dest && a.flit.cls == b.flit.cls
  l.zipIdx.filterMap fun q => if (l.take q.2).any (same q.1) then none else some q.1

/-- A link takes its next flit (R391, R392, R393, R401, R402): one that its class holds credit for and the replay buffer has
room for. -/
def forward (c : Chip) (l : Nat) : Chip :=
  if !c.upLinks.contains l then c
  else
    let c := c.seamFlush.dropStray
    match c.link? l with
    | none => c
    | some k =>
      let mine := c.seam.queue.filter fun (q : QFlit) => (c.outOf q).map (·.1) == some l
      let ready := fun (q : QFlit) => decide (flitBlocks q.flit ≤ k.credit.getD q.flit.cls 0) &&
        decide (k.replayBytes + 32 * flitBlocks q.flit ≤ 2 ^ 20)
      let fits := (heads mine).filter ready
      let c := if mine.all ready then c else c.waits 6 l
      let cls := if fits.any (·.flit.cls == 0) then some 0 else (fits.head?).map (·.flit.cls)
      match cls with
      | none => c
      | some cl =>
        match pickSource (c.seam.turn.getD cl 0) (fits.filter (·.flit.cls == cl)) with
        | none => c
        | some q =>
          let alt := ((c.outOf q).map (·.2)).getD false
          let n := flitBlocks q.flit
          let c : Chip := { c with
            seam.queue := c.seam.queue.erase q,
            seam.turn := c.seam.turn.mapIdx fun i t => if i = cl then q.flit.src + 1 else t }
          let c := c.setLink l { k with credit := k.credit.mapIdx fun i m => if i = cl then m - n else m }
          let c := c.sendOn l { q.flit with alt := alt }
          -- its slots return (R246)
          let c := if q.inLink.isNone && q.flit.kind == 0x10 then
              c.mapFrames q.flit.stream (fun f => f.place.seam && decide (f.left < f.issued)) fun f => { f with left := f.issued }
            else c
          match q.inLink with | some i => c.owe i cl n | none => c

/-- A device and its links as its PROBE gives them (R395). -/
structure Node where
  serial : Nat
  links : List (Nat × Nat)

/-- The fabric as this device knows it: itself and the stored PROBEs. -/
def nodes (c : Chip) : List Node :=
  let own := c.upLinks.filterMap fun l => (c.link? l).map fun k => (l, k.peerSerial)
  { serial := Config.serial.toNat, links := own } ::
    c.seam.probes.map fun p => { serial := p.serial, links := p.links.map fun k => (k.link, k.peer) }

/-- The distances from a device, in hops: the devices at distance `d` are known, those beyond follow. -/
def spread (g : List Node) : Nat → Nat → List Nat → List (Nat × Nat) → List (Nat × Nat)
  | 0, _, _, seen => seen
  | fuel + 1, d, front, seen =>
    let next := ((g.filter fun n => front.contains n.serial).flatMap fun n => n.links.map (·.2)).filter fun s =>
      !(seen.any (·.1 == s)) && g.any (·.serial == s)
    let next := next.eraseDups
    if next.isEmpty then seen else spread g fuel (d + 1) next (seen ++ next.map fun s => (s, d + 1))

def hopsFrom (g : List Node) (s : Nat) : List (Nat × Nat) := spread g g.length 0 [s] [(s, 0)]

def hopsTo (t : List (Nat × Nat)) (s : Nat) : Option Nat := (t.find? (·.1 == s)).map (·.2)

/-- The primary link of a device to the destination that `t` measures from, and the neighbour at its end (R400). -/
def primary (g : List Node) (t : List (Nat × Nat)) (x : Nat) : Option (Nat × Nat) :=
  match g.find? (·.serial == x), hopsTo t x with
  | some n, some (d + 1) =>
    (n.links.filter fun e => hopsTo t e.2 == some d).foldl (fun (b : Option (Nat × Nat)) e =>
      match b with | some (l, _) => if e.1 < l then some e else b | none => some e) none
  | _, _ => none

/-- The devices of the primary path of `x`, itself first. -/
def pathOf (g : List Node) (t : List (Nat × Nat)) : Nat → Nat → List Nat
  | 0, x => [x]
  | fuel + 1, x => match primary g t x with | some (_, y) => x :: pathOf g t fuel y | none => [x]

/-- The routing table entry of a destination's serial (R399, R400). -/
def routeTo (g : List Node) (me dest : Nat) : RouteSt :=
  let t := hopsFrom g dest
  match primary g t me, hopsTo t me with
  | some (l, n), some d =>
    if 63 < d then RouteSt.none
    else
      let links := match g.find? (·.serial == me) with | some x => x.links | none => []
      let ok := fun (e : Nat × Nat) =>
        let p := pathOf g t g.length e.2
        e.1 != l && (hopsTo t e.2).isSome && !p.contains me && (n == dest || !p.contains n)
      let best := (links.filter ok).foldl (fun (b : Option (Nat × Nat)) e =>
        let h := (hopsTo t e.2).getD 0
        match b with
        | some (m, k) => if h < k || (h == k && decide (e.1 < m)) then some (e.1, h) else b
        | none => some (e.1, h)) none
      { valid := true, usingAlt := false, hops := d, alt := (best.map (·.1)).getD 0xFF, primary := l }
  | _, _ => RouteSt.none

/-- A device as its PROBE shows it: serial, Seam ID, FIXED, CONFLICT. -/
def members (c : Chip) : List (Nat × Option Nat × Bool × Bool) :=
  let own := (Config.serial.toNat, c.seam.fixed <|> c.seam.id, c.seam.fixed.isSome, c.seam.conflict)
  own :: c.seam.probes.map fun p => (p.serial, if p.seamId < 1024 then some p.seamId else none, p.fixed, p.conflict)

/-- Ascending serial. -/
def bySerial (l : List (Nat × Option Nat × Bool × Bool)) : List (Nat × Option Nat × Bool × Bool) :=
  l.mergeSort fun a b => decide (a.1 ≤ b.1)

/-- Gives each device of a list its own ID where nobody has it yet. -/
def giveOwn (got : List (Nat × Nat)) (l : List (Nat × Option Nat × Bool × Bool)) : List (Nat × Nat) :=
  l.foldl (fun got m =>
    match m.2.1 with
    | some i => if got.any fun g => g.2 == i || g.1 == m.1 then got else got ++ [(m.1, i)]
    | none => got) got

/-- The list of R397: an ID in use stays with its holder, fixed IDs come before those that devices already hold, the rest
take the lowest free ones by hops from the root. IDs of devices that have gone stay reserved (R398). -/
def assignList (c : Chip) : List (Nat × Nat) :=
  let all := bySerial c.members
  let held := c.seam.assigned.filter fun a => all.any fun m => m.1 == a.1 && m.2.1 == some a.2
  let got := giveOwn (giveOwn held (all.filter (·.2.2.1))) (all.filter (!·.2.2.1))
  let gone := c.seam.assigned.filter fun a => !(all.any fun m => m.1 == a.1) && !(got.any fun g => g.2 == a.2)
  let t := hopsFrom c.nodes Config.serial.toNat
  let rest := (all.filter fun m => !m.2.2.1 && !(got.any fun g => g.1 == m.1)).mergeSort fun a b =>
    let x := (hopsTo t a.1).getD 1024
    let y := (hopsTo t b.1).getD 1024
    decide (x < y) || (x == y && decide (a.1 ≤ b.1))
  rest.foldl (fun got m =>
    match (List.range 1024).find? fun i => !((got ++ gone).any fun g => g.2 == i) with
    | some i => got ++ [(m.1, i)]
    | none => got) got

/-- An assignment takes effect (R397): the own ID, and ESN from 0 for every ID that has another device now (R394). -/
def applyAssign (c : Chip) (epoch : Nat) (l : List (Nat × Nat)) : Chip :=
  let old := c.seam.assigned
  let idOf := fun (l : List (Nat × Nat)) => (l.find? (·.1 == Config.serial.toNat)).map (·.2)
  let fresh := fun (i : Nat) => (old.find? (·.2 == i)).map (·.1) != (l.find? (·.2 == i)).map (·.1)
  let mine := idOf l
  let renew := decide (mine ≠ c.seam.id)
  let gone := old.filter fun a => !(l.any fun b => b.1 == a.1 || b.2 == a.2)
  let taken := match c.seam.fixed with | some f => mine.isNone && l.any (·.2 == f) | none => false
  { c with seam.assigned := l ++ gone, seam.epoch := epoch, seam.parts := (epoch, []), seam.id := mine, seam.conflict := taken,
           seam.esnTx := if renew then [] else c.seam.esnTx.filter fun e => !fresh (e.1 / 4),
           seam.esnRx := if renew then [] else c.seam.esnRx.filter fun e => !fresh (e.1 / 4) }

/-- The payload of an ASSIGN flit (R397). -/
def assignPart (epoch part parts : Nat) (l : List (Nat × Nat)) : List Byte :=
  le 4 epoch ++ le 1 part ++ le 1 parts ++ le 2 l.length ++ le 8 Config.serial.toNat ++
    l.flatMap fun e => le 8 e.1 ++ le 2 e.2

/-- The root floods its assignment (R397) and applies it. -/
def sendAssign (c : Chip) : Chip :=
  let l := c.assignList
  let e := (c.seam.epoch + 1) % 2 ^ 32
  let c :=
    if l.length ≤ 814 then c.flood 0x03 (assignPart e 0 1 l) none
    else (c.flood 0x03 (assignPart e 0 2 (l.take 814)) none).flood 0x03 (assignPart e 1 2 (l.drop 814)) none
  c.applyAssign e l

/-- The topology of R398: this device, the stored PROBEs, and the devices that have gone. -/
def topology (c : Chip) : List TopoSt :=
  let t := hopsFrom c.nodes Config.serial.toNat
  let idOf := fun (s : Nat) => ((c.seam.assigned.find? (·.1 == s)).map (·.2)).getD 0xFFFF
  let now := (bySerial c.members).map fun m =>
    let i := if m.1 = Config.serial.toNat then c.seam.id.getD 0xFFFF else if m.2.2.2 then 0xFFFF else idOf m.1
    let n := match c.nodes.find? (·.serial == m.1) with | some n => n.links.length | none => 0
    ({ serial := m.1, seamId := i, hops := (hopsTo t m.1).getD 0xFF, links := n,
       state := if m.2.2.2 then 2 else if i = 0xFFFF then 3 else if c.seam.root = some m.1 then 1
                else if (hopsTo t m.1).isNone then 4 else 0 } : TopoSt)
  let gone := c.seam.topo.filter fun x => !(now.any fun y => y.serial == x.serial)
  (now ++ gone.map fun (x : TopoSt) => { x with hops := 0xFF, links := 0, state := 4 }).mergeSort fun a b =>
    decide (a.serial ≤ b.serial)

/-- The topology as the device now sees it, with the records of what has changed (R398). -/
def retopo (c : Chip) : Chip :=
  let old := c.seam.topo
  let new := c.topology
  let stateOf := fun (x : TopoSt) => (old.find? (·.serial == x.serial)).map (·.state)
  let changed := new.filter fun x => stateOf x != some x.state
  let c : Chip := { c with seam.topo := new }
  let c := match changed with
    | [] => c
    | x :: _ => c.emit 0x1E 1 x.seamId 0 (new.filter fun (y : TopoSt) => decide (y.state ≤ 1)).length
  c.foldC (changed.filter fun (x : TopoSt) => x.state == 2) fun c x =>
    let f := ((c.members.find? (·.1 == x.serial)).bind (·.2.1)).getD 0xFFFF
    c.emit 0x1E 2 f 0 x.serial

/-- No stored PROBE has changed for 5 ms (R395, R396, R397): the root is elected, and floods its assignment. -/
def converge (c : Chip) : Chip :=
  let root := (c.members.map (·.1)).min?
  let c : Chip := { c with seam.root := root }
  let c := if c.isRoot then c.sendAssign else c
  let c := if c.isRoot && c.time.source == .seam then ({ c with seam.hopsToRoot := 0 } : Chip).setDisc .locked else c
  c.retopo

/-- The frame that a landing stream is receiving is the last that it has taken. -/
def landFrame (c : Chip) (sid : Nat) (f : Frame → Frame) : Chip :=
  match c.stream? sid with
  | none => c
  | some s => c.setStream sid { s with frames := s.frames.mapIdx fun i x => if i + 1 = s.frames.length then f x else x }

/-- A frame flit finds its landing stream (R407): started, of the fabric, and of the source that came first. Otherwise
what is counted. -/
def landingOk (c : Chip) (src sid : Nat) : Option StreamSt :=
  match c.stream? sid with
  | none => none
  | some s =>
    let l := c.seam.landings.getD LandSt.reset sid
    if s.port = 0xFE && s.started && (l.source.isNone || l.source == some src) then some s else none

/-- A frame begins on a landing stream: storage at its first byte (R251, R409). -/
def landOpen (c : Chip) (src sid : Nat) (s : StreamSt) : Chip :=
  let l := c.seam.landings.getD LandSt.reset sid
  if l.open_ then c
  else
    let got := c.reserve s (fFold s.fold s.out s.w s.h s.e)
    let f : Frame := { Frame.blank with
      seq := s.seqNext, epoch := s.epoch, place := s.place, phase := .processing, fold := s.fold, out := s.out,
      stored := got.map (·.1), slots := (got.map (·.2)).getD 0 }
    let c := c.setStream sid { s with frames := s.frames ++ [f] }
    let r : LandSt := { l with source := some src, data := [], open_ := true, dropped := got.isNone }
    { c with seam.landings := c.seam.landings.put sid r }

/-- Payload of a frame from a peer (R409): it goes on to the write channel one flit behind, since the last may be padded;
a folded stream waits for the whole frame. -/
def frameData (c : Chip) (src sid : Nat) (data : List Byte) : Chip :=
  match c.landingOk src sid with
  | none => c
  | some s0 =>
    let c := c.landOpen src sid s0
    let l := c.seam.landings.getD LandSt.reset sid
    let s := (c.stream? sid).getD s0
    if l.dropped then c
    else if s.fold.1 = 0 then
      let more := fun (f : Frame) => c.landed s false f (f.bytes ++ l.data)
      let dead := ((s.frames.getLast?).map fun f => c.slotsDead (more f)).getD false
      let c := c.carry 2 0 (((s.frames.getLast?).map fun f => c.landedBytes s f (more f)).getD 0)
      let c := c.landFrame sid fun f => if dead then { f with bytes := [], stored := none, slots := 0, fsRuns := [] } else more f
      { c with seam.landings := c.seam.landings.put sid { l with data := data, dropped := dead } }
    else { c with seam.landings := c.seam.landings.put sid { l with data := l.data ++ data } }

/-- Frames that a gap in SEQUENCE shows to be missing (R409): LOST, in one record where more than 16. -/
def landGap (c : Chip) (sid first n : Nat) : Chip :=
  match c.stream? sid with
  | none => c
  | some s =>
    let one := fun (q k : Nat) => ({ Frame.blank with
      seq := q, epoch := s.epoch, place := s.place, out := s.out, flags := fLOST ||| (if 1 < k then fMULTI else 0),
      lines := if 1 < k then k else 0, endAt := c.up } : Frame)
    let new := if 16 < n then [one first n] else (List.range n).map fun i => one ((first + i) % 2 ^ 32) 1
    let k := s.frames.length - 1
    (c.setStream sid { s with frames := s.frames.take k ++ new ++ s.frames.drop k, cLost := sat 32 (s.cLost + n) }).count
      (0xB00 + sid) n

/-- The folded payload of a received image (R277), its shape from the template; one with more lines than the stream declares has its
exposures interleaved. -/
def landFold (s : StreamSt) (fmt w h : Nat) (b : List Byte) : List Byte :=
  if s.fold.1 = 0 then b else joinParts (foldParts s.fold fmt w h (if s.h < h && h % max 1 s.e == 0 then s.e else 1) b)

/-- The peg template of a frame arrives (R408, R409): the frame is judged, finished, and its peg will follow. -/
def frameEnd (c : Chip) (src sid : Nat) (t : List Byte) : Chip :=
  match c.landingOk src sid with
  | none =>
    let seen := match c.stream? sid with | some s => s.port == 0xFE && s.started | none => false
    if seen then { c with seam.misdirected := c.seam.misdirected.upd 0 sid (· + 1) }
    else
      let cls := match c.seam.landed.find? fun (p : Nat × Flit) => p.1 == src && p.2.kind == 0x11 with | some p => p.2.cls | none => 2
      ({ c with seam.unlanded := c.seam.unlanded.upd 0 sid (· + 1) } : Chip).emit 0x1F 2 src (cls * 256 + 2) sid
  | some s0 =>
    let c := c.landOpen src sid s0
    let l := c.seam.landings.getD LandSt.reset sid
    let seq := u32 t 4
    let flags := u16 t 2
    let n := u64 t 32
    let gap := match l.next with | some q => (seq + 2 ^ 32 - q) % 2 ^ 32 | none => 0
    let gap := if gap < 2 ^ 31 then gap else 0
    match c.stream? sid with
    | none => c
    | some s =>
      let f0 := (s.frames.getLast?).getD Frame.blank
      let raw := (f0.bytes ++ l.data).take n
      let bytes := landFold s (u16 t 46) (u16 t 40) (u32 t 42) raw
      let dead := c.slotsDead (c.landed s false f0 bytes)
      let bad := bit flags 0 || l.dropped || raw.length != n || crc32c raw != u32 t 56 || dead
      let multi := bit flags 9
      let k := if multi then max 1 (u32 t 42) else 1
      let blank := fun (f : Frame) => { f with bytes := [], stored := none, slots := 0, fsRuns := [], endAt := c.up }
      let c := if bad then c else c.carry 2 0 (c.landedBytes s f0 (c.landed s false f0 bytes))
      let c := c.landFrame sid fun f => { (if bad then blank f else c.landed s false f bytes) with
        seq := seq, trigT := u64 t 8, eofT := u64 t 16, pos := signed 48 (u48 t 24), unit := u8 t 30, enc := u8 t 31,
        flags := if bad then flags ||| fLOST else flags, phase := if bad then .lost else .finished,
        lines := if multi then k else if bad then f.issued else 0,
        shape := some (u16 t 46, u16 t 40, u32 t 42, u8 t 48) }
      let c := match c.stream? sid with
        | some s => c.setStream sid { s with seqNext := (seq + k) % 2 ^ 32, cLost := if bad then sat 32 (s.cLost + k) else s.cLost }
        | none => c
      let c := if bad then c.count (0xB00 + sid) k else c
      let c := if gap = 0 then c else c.landGap sid ((l.next).getD 0) gap
      let r : LandSt := { source := l.source, data := [], open_ := false, dropped := false, next := some ((seq + k) % 2 ^ 32) }
      { c with seam.landings := c.seam.landings.put sid r }

/-- The position of a fire instant has come over the fabric, or has not (R412); a trigger that was not sent gets its LOST peg
now (R58). -/
def latchEnds (c : Chip) (unit instant : Nat) (pos : Int) (none_ : Bool) : Chip :=
  let hit := fun (w : LatchWait) => w.unit == unit && w.instant == instant
  let lost := (c.seam.waits.filter hit).filterMap fun w => w.lost.map fun p => (p, w.chan)
  let c : Chip := { c with seam.waits := c.seam.waits.filter fun (w : LatchWait) => !hit w }
  let c := c.foldC lost fun c e => c.lostTrigger e.1
    { time := instant, frac := 0, unit := unit, enc := e.2, pos := pos, flags := if none_ then fDEGRADED else 0 }
  let mine := fun (o : FireOut) => o.unit == unit && o.instant / 65536 == instant
  let upd := fun (x : FireOut) => if mine x then { x with pos := some pos, noLatch := none_ } else x
  let c : Chip := { c with cam.ports := c.cam.ports.mapVals fun _ (q : PortSt) => { q with fires := q.fires.map upd } }
  c.foldC (c.store.streams.map (·.1)) fun c sid =>
    c.mapFrames sid (fun f => f.unit == unit && f.trigT == instant && f.phase != .pegged) fun f =>
      { f with pos := pos, flags := if none_ then f.flags ||| fDEGRADED else f.flags }

end Chip

end Sys2Proof.Machine
end

