-- ==== Sys2Proof/Machine/Seam.lean ====
section
/-! DEFINITION. The Seam family of the command set (R372) and the events of the fabric (R384 to R416) but for its mailbox
messages. -/

namespace Sys2Proof.Machine

/-- SEAM.SET_ID (R372, R397): for the next join. -/
def cmdSeamSetId : Cmd :=
  { opcode := 0x0601, roles := [2], size := fun r => r.length == 4, cfg := fun _ _ => some 0,
    body := fun _ r _ =>
      if 1 < u8 r 0 || (u8 r 0 == 1 && decide (0x3FF < u16 r 2)) then .no stBADARG
      else .doC fun c => { c with seam.fixedNext := if u8 r 0 = 1 then some (u16 r 2) else none } }

def execSeamSetId (mb : Nat) (req : List Byte) (s : State) : Out := s.onDevIf (validMb mb) (tilpo cmdSeamSetId mb req)

/-- SEAM.REDISCOVER (R372, R395). -/
def cmdRediscover : Cmd :=
  { opcode := 0x0602, roles := [2], size := fun r => r.length == 0,
    body := fun _ _ d =>
      if (List.range 16).any fun q => (d.chip.quad q).role == .seam then .doC Chip.sendProbe else .no stBADSTATE }

def execSeamRediscover (mb : Nat) (req : List Byte) (s : State) : Out := s.onDevIf (validMb mb) (tilpo cmdRediscover mb req)

/-- One device as SEAM.READ_TOPOLOGY lists it (R372). -/
def topoBytes (t : TopoSt) : List Byte :=
  le 2 t.seamId ++ le 8 t.serial ++ le 1 t.hops ++ le 1 t.links ++ le 1 t.state ++ le 3 0

/-- SEAM.READ_TOPOLOGY (R372, R398), by ascending serial. -/
def cmdReadTopology : Cmd :=
  { opcode := 0x0603, roles := [], size := fun r => r.length == 4,
    body := fun _ r d =>
      let n := u16 r 2
      if n = 0 || 255 < n then .no stBADARG
      else
        let l := (d.chip.seam.topo.drop (u16 r 0)).take n
        .say (le 1 l.length ++ List.replicate 15 0 ++ l.flatMap topoBytes) }

def execSeamReadTopology (mb : Nat) (req : List Byte) (s : State) : Out :=
  s.onDevIf (validMb mb) (tilpo cmdReadTopology mb req)

/-- SEAM.READ_ROUTE (R372, R400). -/
def cmdReadRoute : Cmd :=
  { opcode := 0x0604, roles := [], size := fun r => r.length == 2,
    body := fun _ r d =>
      let e := d.chip.seam.routes.getD RouteSt.none (u16 r 0)
      if !e.valid then .no stBADARG
      else .say (le 1 e.primary ++ le 1 e.alt ++ le 1 e.hops ++ le 1 (b2n e.usingAlt)) }

def execSeamReadRoute (mb : Nat) (req : List Byte) (s : State) : Out := s.onDevIf (validMb mb) (tilpo cmdReadRoute mb req)

/-- SEAM.READ_LINK (R372, R384); a number that no link holds is OFF. -/
def cmdReadSeamLink : Cmd :=
  { opcode := 0x0605, roles := [], size := fun r => r.length == 1,
    body := fun _ r d =>
      if 15 < u8 r 0 then .no stBADARG
      else match d.chip.link? (u8 r 0) with
      | none => .say (List.replicate 4 0 ++ le 2 0xFFFF ++ List.replicate 10 0)
      | some k =>
        .say (le 1 (linkCode k.state) ++ le 1 k.width ++ le 1 k.first ++ le 1 k.peerLink ++ le 2 k.peerId ++ le 2 0 ++
          le 4 k.replays ++ le 4 k.reroutes) }

def execSeamReadLink (mb : Nat) (req : List Byte) (s : State) : Out := s.onDevIf (validMb mb) (tilpo cmdReadSeamLink mb req)

/-- What SNAP_REQ carries (R415). -/
def snapReqBytes (number origin instant : Nat) : List Byte := le 4 number ++ le 2 origin ++ le 2 0 ++ le 8 instant

/-- SEAM.SNAPSHOT_AT (R372, R379, R415). -/
def cmdSeamSnapshot : Cmd :=
  { opcode := 0x0606, roles := [2, 3], size := fun r => r.length == 8,
    body := fun x r d =>
      let c := d.chip
      if c.time.disc != .locked || c.time.source != .seam || decide (u64 r 0 < x.doorbell + 10000000) then .no stBADSTATE
      else if 4 ≤ (c.ev.snaps.filter fun (t : Snapshot) => t.origin.isNone).length then .no stBUSY
      else .later (fun _ => .seamSnapshot c.ev.snapNext) (u64 r 0) fun id d =>
        let n := d.chip.ev.snapNext
        let v : Snapshot := { scheduledSnap n (u64 r 0) (some id) with fabric := true }
        (d.onChip fun c =>
          ({ c with ev.snaps := c.ev.snaps ++ [v], ev.snapNext := Chip.nextSnap n } : Chip).flood 0x40
            (snapReqBytes n (c.seam.id.getD 0xFFFF) (u64 r 0)) none, le 4 n) }

def execSeamSnapshotAt (mb : Nat) (req : List Byte) (s : State) : Out :=
  s.onDevIf (validMb mb) (tilpo cmdSeamSnapshot mb req)

def seamCmds : List Cmd :=
  [cmdSeamSetId, cmdRediscover, cmdReadTopology, cmdReadRoute, cmdReadSeamLink, cmdSeamSnapshot]

/-- An event of one link; a link that it fails has its lanes start again. -/
def seamRow (l : Nat) (f : Chip → Chip) (s : State) : Out :=
  s.runDev fun d => { d with chip := d.chip.onLink d.mem l f }

/-- A HELLO (R384): the link comes UP, or WIRING where the width differs or the peer is this device. -/
def Chip.hello (c : Chip) (l serial seamId peerLink width : Nat) : Chip :=
  let c := c.unland l 0x01
  match c.link? l with
  | none => c
  | some k =>
    if k.state = .off then c
    else if width != k.width || serial == Config.serial.toNat then c.setLinkState l .wiring
    else
      (c.setLink l { k with helloGot := true, peerSerial := serial % 2 ^ 64, peerId := seamId % 65536,
                            peerLink := peerLink % 256 }).seamUp l

def execSeamHelloReceived (link : Fin 16) (serial seamId peerLink width : Nat) (s : State) : Out :=
  s.run fun c => c.hello link.val serial seamId peerLink width

def execSeamFlitReceived (link : Fin 16) (header payload : List Byte) (trail : Nat) (bad : Bool) (s : State) : Out :=
  seamRow link.val (fun c => c.flitIn link.val header payload trail bad) s

def execSeamNakReceived (link : Fin 16) (ack : Nat) (s : State) : Out :=
  seamRow link.val (fun c => (c.takeAck link.val (ack % 65536)).replayLink link.val) s

def execSeamReplayTimeout (link : Fin 16) (s : State) : Out := seamRow link.val (fun c => c.replayLink link.val) s

def execSeamLinkSilence (link : Fin 16) (s : State) : Out := seamRow link.val (fun c => c.linkFail link.val) s

def execSeamFlitForward (link : Fin 16) (s : State) : Out := s.run fun c => c.forward link.val

def execSeamReorderTimeout (source : Nat) (cls : Fin 4) (s : State) : Out :=
  s.run fun c => c.loseEsn (source % 1024) cls.val

/-- A PROBE (R395): the links that it lists. -/
def probeLinks (p : List Byte) : List ProbeLink :=
  (List.range (min 16 (u8 p 15))).map fun k =>
    { link := u8 p (16 + 12 * k), width := u8 p (17 + 12 * k), peer := u64 p (18 + 12 * k), peerLink := u8 p (26 + 12 * k) }

/-- A PROBE newer than the stored one is stored and sent on (R395). -/
def Chip.probeIn (c : Chip) (l : Nat) (p : List Byte) : Chip :=
  let c := c.unland l 0x02
  let serial := u64 p 0
  let n := u32 p 8
  let held := c.seam.probes.find? (·.serial == serial)
  let newer := match held with
    | some h => (let d := (n + 2 ^ 32 - h.pseq) % 2 ^ 32
                 d != 0 && decide (d < 2 ^ 31))
    | none => true
  if serial == Config.serial.toNat || !newer then c
  else
    let r : ProbeSt :=
      { serial := serial, pseq := n, seamId := u16 p 12, fixed := bit (u8 p 14) 0, conflict := bit (u8 p 14) 1,
        links := probeLinks p, heard := c.up }
    let id := if r.fixed && r.conflict then 0xFFFF else r.seamId
    let c : Chip := { c with
      seam.probes := c.seam.probes.filter (·.serial != serial) ++ [r],
      seam.links := c.seam.links.mapVals fun _ (k : LinkSt) => if k.peerSerial = serial && k.helloGot then { k with peerId := id } else k }
    c.flood 0x02 p (some l)

def execSeamProbeReceived (link : Fin 16) (payload : List Byte) (s : State) : Out :=
  s.run fun c => c.probeIn link.val payload

def execSeamProbePeriodic (s : State) : Out := s.run Chip.sendProbe

def execSeamSerialTimeout (serial : Nat) (s : State) : Out :=
  s.run fun c => { c with seam.probes := c.seam.probes.filter (·.serial != serial) }

def execSeamConvergence (s : State) : Out := s.run Chip.converge

/-- An ASSIGN part (R397): kept and sent on; applied once every part of its epoch is here. -/
def Chip.assignIn (c : Chip) (l : Nat) (p : List Byte) : Chip :=
  let c := c.unland l 0x03
  let e := u32 p 0
  let ahead := (e + 2 ^ 32 - c.seam.epoch) % 2 ^ 32
  let have_ := if c.seam.parts.1 = e then c.seam.parts.2 else []
  let older := c.seam.parts.1 != e && decide (2 ^ 31 ≤ (e + 2 ^ 32 - c.seam.parts.1) % 2 ^ 32)
  if ahead = 0 || 2 ^ 31 ≤ ahead || older || have_.any (·.part == u8 p 4) || c.seam.root != some (u64 p 8) then c
  else
    let entries := (List.range (u16 p 6)).map fun i => (u64 p (16 + 10 * i), u16 p (24 + 10 * i))
    let parts := have_ ++ [{ part := u8 p 4, entries := entries }]
    let c := ({ c with seam.parts := (e, parts) } : Chip).flood 0x03 p (some l)
    if parts.length < u8 p 5 then c
    else
      let all := (parts.filter (·.part == 0) ++ parts.filter (·.part != 0)).flatMap fun (a : AssignPart) => a.entries
      (c.applyAssign e all).retopo

def execSeamAssignReceived (link : Fin 16) (payload : List Byte) (s : State) : Out :=
  s.run fun c => c.assignIn link.val payload

/-- New routing tables (R399, R400): every destination with an ID but this device; USING_ALT clears, reservations move
(R401, R403). -/
def Chip.installRoutes (c : Chip) : Chip :=
  let g := c.nodes
  let me := Config.serial.toNat
  let one := fun (a : Nat × Nat) =>
    let r := Chip.routeTo g me a.1
    if a.1 != me && r.valid then some (a.2, r) else none
  let t := (c.seam.assigned.filterMap one).foldl (fun (t : Tab RouteSt) e => t.put e.1 e.2) []
  ({ c with seam.routes := t } : Chip).moveResv

def execSeamRoutingTableInstall (s : State) : Out := s.run Chip.installRoutes

/-- A device checks its outgoing link for a stream of another one (R403). -/
def Chip.admissionHop (c : Chip) (source stream dest demand : Nat) : Chip :=
  let r := c.seam.routes.getD RouteSt.none dest
  let mine := fun (h : HopResv) => h.source == source && h.stream == stream
  let rest := c.seam.hopResv.filter (!mine ·)
  let l := RouteSt.inUse r
  let d : Chip := { c with seam.hopResv := rest }
  if demand = 0 || some dest == c.seam.id then d
  else if r.valid && decide (demand * scale ≤ d.capacity 6 l - d.admitted 6 l) then
    { d with seam.hopResv := rest ++ [{ source := source, stream := stream, dest := dest, link := l, demand := demand }] }
  else c.emit 0x1E 3 (c.seam.id.getD 0xFFFF) (if r.valid then l else 0xFF) 0

def execSeamAdmissionHop (source stream dest demand : Nat) (s : State) : Out :=
  s.run fun c => c.admissionHop source stream dest demand

/-- A valid exchange with the parent (R47, R405): θ, the judgement of each, and the mean of 16. -/
def Chip.exchange (c : Chip) (theta : Int) : Chip :=
  let c := if c.time.disc = .holdover then c.setDisc .acquire else c
  let inside := decide (theta.natAbs ≤ 2 * nsU)
  let n := if inside then c.time.good + 1 else 0
  let l := c.seam.thetas ++ [theta]
  let ps := fun (x : Int) => quot (x * 1000) nsU
  let c : Chip := if c.time.disc = .acquire then { c with time.good := n } else c
  let c : Chip :=
    if l.length < 16 then { c with seam.thetas := l }
    else
      let mean := quot (l.foldl (· + ·) 0) 16
      { c with seam.thetas := [], time.phaseErr := ps mean,
               time.acqStep := if c.time.disc = .acquire ∧ usU < mean.natAbs then some (ps mean) else none }
  if c.time.disc = .acquire ∧ 16 ≤ n then c.setDisc .locked else c

/-- An exchange of OH_TIME on a link (R404, R405). -/
def Chip.seamExchange (c : Chip) (l hops tstate t1 t2 t3 t4 : Nat) : Chip :=
  match c.link? l with
  | none => c
  | some k =>
    let c := c.setLink l { k with peerHops := hops % 256, peerLocked := tstate == 2 }
    if c.time.source != .seam then c
    else
      let c := c.chooseParent
      if c.isRoot then c.setDisc .locked
      else if c.seam.parent = some l then
        c.exchange (quot (((t2 : Int) - t1) - ((t4 : Int) - t3)) 2)
      else c

def execSeamTimeExchange (link : Fin 16) (hops tstate t1 t2 t3 t4 : Nat) (s : State) : Out :=
  s.run fun c => c.seamExchange link.val hops tstate t1 t2 t3 t4

/-- The samples of a mirrored channel, at the latest 10 µs after the last (R411). -/
def Chip.keepalive (c : Chip) (chan : Nat) : Chip :=
  let hit := c.seam.mirrors.filter (·.chan == chan)
  let c : Chip := { c with
    seam.mirrors := c.seam.mirrors.map fun m => if m.chan = chan then { m with sentX := some (c.enc chan).xc } else m }
  c.foldC hit fun c m => c.sendSample m

def execPosSampleKeepalive (chan : Fin 8) (s : State) : Out := s.run fun c => c.keepalive chan.val

/-- A sample of a peer's channel (R411). -/
def Chip.sampleIn (c : Chip) (src : Nat) (p : List Byte) : Chip :=
  let c := c.unland src 0x21
  let v : SampleSt :=
    { speedState := u8 p 1, reverse := u8 p 2 == 1, x := i64 p 8, t := u64 p 16, v := i64 p 24, at_ := c.t64, stale := false }
  if 7 < u8 p 0 then c else { c with seam.samples := c.seam.samples.put (src * 8 + u8 p 0) v }

def execPosSampleReceived (source : Nat) (payload : List Byte) (s : State) : Out :=
  s.run fun c => c.sampleIn (source % 1024) payload

def execPosSampleStale (source : Nat) (chan : Fin 8) (s : State) : Out :=
  s.run fun c =>
    match c.seam.samples.find? (source % 1024 * 8 + chan.val) with
    | some v => { c with seam.samples := c.seam.samples.put (source % 1024 * 8 + chan.val) { v with stale := true } }
    | none => c

/-- A LATCH request (R412): answered with the raw count at the instant, where it is held. -/
def Chip.latchRequest (c : Chip) (src unit instant chan : Nat) : Chip :=
  let c := c.unland src 0x22
  match c.countAt chan instant with
  | some v =>
    c.originate 0 0x22 src 0
      (le 1 1 ++ le 1 chan ++ le 1 unit ++ List.replicate 5 0 ++ le 8 instant ++ le 8 (unsigned 64 v))
  | none => c

def execLatchRequestReceived (source unit instant : Nat) (chan : Fin 8) (s : State) : Out :=
  s.run fun c => c.latchRequest (source % 1024) unit instant chan.val

/-- A LATCH answer (R412) that is still awaited. -/
def Chip.latchAnswer (c : Chip) (src instant unit : Nat) (pos : Int) : Chip :=
  let c := c.unland src 0x22
  if c.seam.waits.any fun w => w.unit == unit && w.instant == instant && w.peer == src then c.latchEnds unit instant pos false
  else c

def execLatchAnswerReceived (source instant : Nat) (unit : Fin 32) (position : Int) (s : State) : Out :=
  s.run fun c => c.latchAnswer (source % 1024) instant unit.val position

def execLatchTimeout (unit : Fin 32) (instant : Nat) (s : State) : Out :=
  s.run fun c =>
    if c.seam.waits.any fun w => w.unit == unit.val && w.instant == instant then c.latchEnds unit.val instant 0 true else c

/-- The flits of a SNAP_DATA (R415), at most 255 blocks each; where the number and MISSED stand in them is not stated. -/
def snapFlits (fuel : Nat) (b : List Byte) : List (List Byte) :=
  match fuel with
  | 0 => []
  | n + 1 => if b.isEmpty then [] else b.take 8160 :: snapFlits n (b.drop 8160)

/-- SNAP_DATA to the device that took the snapshot (R415). -/
def Chip.sendSnap (c : Chip) (origin number : Nat) (v : Option (Tab Nat)) : Chip :=
  let head := snapHead number v.isNone
  let b := match v with | some t => head ++ counterBytes t 0 4096 | none => head
  c.foldC (snapFlits 8 b) fun c p => c.originate 3 0x41 origin 0 p

/-- SNAP_REQ (R415): sent on once, then scheduled where it comes 1 ms ahead. -/
def Chip.snapReq (c : Chip) (origin number instant : Nat) : Chip :=
  let from_ := (c.seam.landed.find? fun p => p.2.kind == 0x40).map (·.1)
  let c := match from_ with | some l => c.unland l 0x40 | none => c
  if some origin == c.seam.id || c.ev.snaps.any fun (t : Snapshot) => t.origin == some origin && t.originNumber == number then c
  else
    let c := c.flood 0x40 (snapReqBytes number origin instant) from_
    if c.t64 + 1000000 ≤ instant then
      let n := c.ev.snapNext
      let v : Snapshot := { scheduledSnap n instant none with fabric := true, origin := some origin, originNumber := number }
      { c with ev.snaps := c.ev.snaps ++ [v], ev.snapNext := Chip.nextSnap n }
    else c.sendSnap origin number none

def execSnapReqReceived (origin number instant : Nat) (s : State) : Out :=
  s.run fun c => c.snapReq (origin % 1024) (number % 2 ^ 32) instant

/-- The instant of a fabric snapshot (R381, R415). -/
def Chip.fabricInstant (c : Chip) (number : Nat) : Chip :=
  match c.ev.snaps.find? fun s => s.number == number && !s.done && s.fabric with
  | none => c
  | some s =>
    if c.time.disc != .locked then Chip.missSnap Chip.ticketMissed c s
    else
    match s.origin with
    | none =>
        let v := { s with done := true, values := c.ev.counters }
        let c := { c with ev.snaps := c.ev.snaps.map fun (t : Snapshot) => if t.number = number then v else t }
        let c := c.emitAt 0x2A 1 0 1 (number * 2 ^ 32) s.instant
        match s.ticket with | some t => c.endTicket t stOK | none => c
    | some from_ =>
      let values := c.ev.counters
      let c := { c with ev.snaps := c.ev.snaps.filter fun (t : Snapshot) => t.number != number }
      (c.emitAt 0x2A 1 0 1 (number * 2 ^ 32) s.instant).sendSnap from_ s.originNumber (some values)

def execSeamSnapshotInstant (number : Nat) (s : State) : Out := s.run fun c => c.fabricInstant number

/-- SNAP_DATA of a peer (R415). -/
def Chip.snapData (c : Chip) (src number : Nat) (missed : Bool) (values : List Nat) : Chip :=
  let c : Chip := { c with seam.landed := c.seam.landed.filter fun (p : Nat × Flit) => !(p.1 == src && p.2.kind == 0x41) }
  let vals : Tab Nat := ((values.take 4096).zipIdx.filter fun p => p.1 != 0).map fun p => (p.2, p.1 % 2 ^ 64)
  { c with ev.snaps := c.ev.snaps.map fun (t : Snapshot) =>
      if t.number = number && t.fabric && t.origin.isNone then
        (if missed then { t with peerMissed := if t.peerMissed.contains src then t.peerMissed else t.peerMissed ++ [src] }
         else { t with peers := t.peers.put src vals })
      else t }

def execSnapDataReceived (source number : Nat) (missed : Bool) (values : List Nat) (s : State) : Out :=
  s.run fun c => c.snapData (source % 1024) number missed values

/-- 100 ms after the instant (R381): INCOMPLETE where a peer in the routing table has returned no values. -/
def Chip.snapIncomplete (c : Chip) (number : Nat) : Chip :=
  { c with ev.snaps := c.ev.snaps.map fun (t : Snapshot) =>
      if t.number = number && t.fabric && t.origin.isNone && t.done &&
          c.seam.routes.any (fun e => e.2.valid && (t.peers.find? e.1).isNone) then { t with incomplete := true }
      else t }

def execSnapIncompleteTimeout (number : Nat) (s : State) : Out := s.run fun c => c.snapIncomplete number

/-- The per-hop bounds of the route that delivered a relayed record (R333, R334, R402): its last hop at the rate of the link it
came in on, the others at the rates of links of other devices, which are free (log 60). -/
def Chip.pathBound (c : Chip) (src : Nat) : Nat :=
  match (c.seam.landed.find? fun e => e.1 == src && e.2.kind == 0x20).map (·.2) with
  | none => 0
  | some f =>
    let last := match c.link? f.via with | some k => (c.quad k.quad).rate | none => 0
    hopBound last + ((List.range f.hops).map fun i => hopBound (c.fresh 60 [src, f.esn, i] % 4)).foldl (· + ·) 0

/-- A relayed event record (R414, R499): RELAYED, its SOURCE as it came. -/
def Chip.eventFlit (c : Chip) (b : List Byte) : Chip :=
  let src := u16 b 2 % 1024
  let r : EventRec :=
    { line := u8 b 1, kind := u8 b 0, inst := u16 b 16, detail := u16 b 18, value := u64 b 20, time := u64 b 8,
      source := 1024 + src, allow := c.pathBound src }
  (c.unland src 0x20).dispatchRec r

def execEventFlitReceived (bytes : List Byte) (s : State) : Out := s.run fun c => c.eventFlit bytes

def execFrameDataReceived (source : Nat) (stream : Fin 512) (data : List Byte) (s : State) : Out :=
  s.run fun c => (c.frameData (source % 1024) stream.val data).unland (source % 1024) 0x10

def execFrameEndReceived (source : Nat) (stream : Fin 512) (peg : List Byte) (s : State) : Out :=
  s.run fun c => (c.frameEnd (source % 1024) stream.val peg).unland (source % 1024) 0x11

end Sys2Proof.Machine
end

