-- ==== Sys2Proof/Machine/Time.lean ====
section
/-! DEFINITION. The time family of the command set, the time registers and the discipline (R39 to R50, R373). -/

namespace Sys2Proof.Machine

/-- TIME.READ_STATUS (R42, R373): the copy of TB_EVT that belongs to the mailbox. -/
def cmdReadTime : Cmd :=
  { opcode := 0x0701, roles := [], size := fun r => r.length == 0,
    body := fun x _ d =>
      let t := d.chip.time
      .say (le 12 (tb96 t.tb) ++ le 1 (discCode t.disc) ++ le 1 (sourceCode t.source) ++ le 1 (d.chip.tbEvt x.mb) ++
        le 1 0 ++ le 4 (unsigned 32 t.phaseErr) ++ le 4 (unsigned 32 t.freqCorr) ++ le 4 t.cableDelay ++
        le 4 t.ppsHigh) }

def execTimeReadStatus (mb : Nat) (req : List Byte) (s : State) : Out :=
  s.onDevIf (validMb mb) (tilpo cmdReadTime mb req)

/-- The source takes effect (R47): FREE is FREE_RUN; EXT or SEAM starts acquisition, and the root under SEAM shows
LOCKED (R405). A change between EXT and SEAM in another state than FREE_RUN leaves STATE as it is (log 76). -/
def Chip.setSource (c : Chip) (src : TimeSource) (ten : Bool) (delay high : Nat) : Chip :=
  let same := src = c.time.source
  let c := { c with time.source := src, time.useTen := ten, time.cableDelay := delay, time.ppsHigh := high,
                    time.acqStep := if same then c.time.acqStep else none,
                    time.good := if same then c.time.good else 0, time.missed := 0 }
  if src = .free then c.setDisc .freeRun
  else
    let c := if c.time.disc = .freeRun then c.setDisc .acquire else c
    if src = .seam && c.isRoot then c.setDisc .locked else c

/-- TIME.SET_SOURCE (R46, R47, R49, R50, R373). -/
def cmdSetSource : Cmd :=
  { opcode := 0x0702, roles := [2], size := fun r => r.length == 12, cfg := fun _ _ => some 0,
    body := fun _ r d =>
      if 2 < u8 r 0 || 1 < u8 r 1 || 1000000 < u32 r 4 || u32 r 8 < 1 || 500000 < u32 r 8 then .no stBADARG
      else if d.chip.time.pendingStep.isSome then .no stBADSTATE
      else .doC fun c =>
        c.setSource (if u8 r 0 = 0 then .free else if u8 r 0 = 1 then .ext else .seam) (u8 r 1 == 1) (u32 r 4)
          (u32 r 8) }

def execTimeSetSource (mb : Nat) (req : List Byte) (s : State) : Out :=
  s.onDevIf (validMb mb) (tilpo cmdSetSource mb req)

/-- TIME.STEP (R45, R46, R373, R380). While another step is PENDING, TB_SET_STATUS stays PENDING whatever the refusal (log 76). -/
def cmdTimeStep : Cmd :=
  { opcode := 0x0703, roles := [2], size := fun r => r.length == 16,
    body := fun _ r d =>
      let c := d.chip
      let mode := u8 r 0
      let sec := u48 r 2
      let ofs := i64 r 8
      let cause := if (mode = 1 ∧ ofs ≠ 0) ∨ (mode = 2 ∧ sec ≠ 0) then 3 else c.stepCause mode sec ofs
      if c.time.pendingStep.isSome then .no (if cause = 3 then stBADARG else stBADSTATE)
      else if cause = 3 then .refuseC stBADARG [] fun c => c.stepRefused 3
      else if cause ≠ 0 then .refuseC stBADSTATE [] fun c => c.stepRefused cause
      else if mode = 1 then
        .later (fun _ => .timeStep) (c.nextSecond / 65536) fun id d =>
          (d.onChip fun c => c.stepAccepted Chip.ticketMissed 1 sec 0 (some id), [])
      else .doC fun c => c.stepAccepted Chip.ticketMissed 2 0 ofs none }

def execTimeStep (mb : Nat) (req : List Byte) (s : State) : Out :=
  s.onDevIf (validMb mb) (tilpo cmdTimeStep mb req)

/-- TIME.SET_HOST_CONTROL (R45, R357, R373). -/
def cmdHostControl : Cmd :=
  { opcode := 0x0704, roles := [2], size := fun r => r.length == 2, cfg := fun r _ => some (u8 r 0),
    body := fun _ r _ =>
      if 1 < u8 r 0 || 1 < u8 r 1 then .no stBADARG
      else .doC fun c =>
        let rest := c.time.hostCtl.filter (· != u8 r 0)
        { c with time.hostCtl := if u8 r 1 = 1 then u8 r 0 :: rest else rest } }

def execTimeSetHostControl (mb : Nat) (req : List Byte) (s : State) : Out :=
  s.onDevIf (validMb mb) (tilpo cmdHostControl mb req)

/-- A read of TB_NS (R43). -/
def Chip.readNs (c : Chip) (view : Nat) : Chip :=
  { c with rd := le 4 (c.time.tb % secU / 65536),
           time.secLatch := c.time.secLatch.put view (c.time.tb / secU * 65536 + c.time.tb % 65536) }

def execTbNsRead (view : Nat) (s : State) : Out := s.onRead (validView view) view fun c => c.readNs view

/-- A read of TB_T64_LO (R43). -/
def Chip.readT64 (c : Chip) (view : Nat) : Chip :=
  { c with rd := le 4 c.t64, time.hiLatch := c.time.hiLatch.put view (c.t64 / 2 ^ 32 % 2 ^ 32) }

def execTbT64LoRead (view : Nat) (s : State) : Out := s.onRead (validView view) view fun c => c.readT64 view

/-- GO written to TB_SET_CTRL of a PF (R45, R46): ignored while a step is PENDING. -/
def Chip.setGo (c : Chip) (port : Nat) : Chip :=
  let g := c.time.staged.getD StageRegs.reset port
  let ofs := signed 64 g.ofs
  if c.time.pendingStep.isSome then c
  else if !c.time.hostCtl.contains port then c.stepRefused 2
  else
    let cause := c.stepCause g.mode g.sec ofs
    if cause ≠ 0 then c.stepRefused cause else c.stepAccepted Chip.ticketMissed g.mode g.sec ofs none

def execTbSetGo (port : Fin 2) (s : State) : Out := s.onWrite true (port.val * 128) fun c => c.setGo port.val

/-- The roll-over of a STEP_AT_SECOND (R45, R380). -/
def Chip.applyStep (c : Chip) : Chip :=
  match c.time.pendingStep with
  | none => c
  | some p =>
    let old := c.nextSecond
    let c := c.pass (old - c.time.tb)
    let c := { c with time.pendingStep := none, time.setState := 2, time.setCause := 0 }
    let c := c.stepTo Chip.ticketMissed old (p.sec * secU) 1
    match p.ticket with | some t => c.endTicket t stOK | none => c

def execStepAtSecondApply (s : State) : Out := s.run Chip.applyStep

/-- A PPS_IN edge under EXT (R47 to R49): the phase error after the cable delay (ps), the frequency correction in force and
the frequency error that is left (ppb), and whether TEN_IN has edges. The return of TEN_IN is taken with the next PPS_IN edge,
and in HOLDOVER one edge makes the source valid again, with TEN_IN where it is used (log 76). -/
def Chip.ppsEdge (c : Chip) (phase corr err : Int) (ten : Bool) : Chip :=
  if c.time.source != .ext then c
  else
    let c := { c with time.phaseErr := phase, time.tenOk := ten,
                      time.freqCorr := if c.time.disc = DiscState.holdover then c.time.freqCorr else corr }
    match c.time.disc with
    | .freeRun => c
    | .acquire =>
      let inside := decide (phase.natAbs ≤ 20000) && (!c.time.useTen || (ten && decide (err.natAbs ≤ 100)))
      let n := if inside then c.time.good + 1 else 0
      let c := { c with time.good := n, time.acqStep := if 1000000 < phase.natAbs then some phase else none }
      if 8 ≤ n then c.setDisc .locked else c
    | .locked => c
    | .holdover => if c.time.useTen && !ten then c else c.setDisc .acquire

def execPpsInEdge (phase : Int) (freq : FreqRead) (s : State) : Out :=
  s.run fun c => c.ppsEdge phase freq.corr freq.err freq.ten

/-- LOCKED is lost to HOLDOVER under a source (R47). -/
def Chip.holdOver (c : Chip) (src : TimeSource) : Chip :=
  if c.time.source = src ∧ c.time.disc = .locked then c.setDisc .holdover else { c with time.good := 0 }

def execPpsLossTimeout (s : State) : Out := s.run fun c => if c.time.source = .ext then c.holdOver .ext else c

def execTenInLossTimeout (s : State) : Out :=
  s.run fun c =>
    let c := { c with time.tenOk := false }
    if c.time.source = .ext && c.time.useTen then c.holdOver .ext else c

/-- No valid exchange for 10 ms (R47, R405); the root's LOCKED does not rest on exchanges. -/
def execSeamExchangeLoss (s : State) : Out :=
  s.run fun c =>
    if c.time.source = .seam && !c.isRoot then
      ({ c with seam.hopsToRoot := 0xFF, seam.parent := none, seam.thetas := [] } : Chip).holdOver .seam
    else c

/-- The acquisition step at a roll-over (R48): the phase error is removed at once where nothing is armed; else it is slewed
away. -/
def Chip.acquisition (c : Chip) : Chip :=
  match c.acquiring with
  | none => c
  | some new =>
    let old := c.nextSecond
    let c := c.pass (old - c.time.tb)
    let c := { c with time.acqStep := none }
    c.stepTo Chip.ticketMissed old new 0

def execAcquisitionStep (s : State) : Out := s.run Chip.acquisition

/-- PPS_OUT rises (R50). -/
def execPpsOutRise (s : State) : Out :=
  s.run fun c => { c with time.ppsUntil := some (c.time.tb + c.time.ppsHigh * usU) }

def timeCmds : List Cmd := [cmdReadTime, cmdSetSource, cmdTimeStep, cmdHostControl]

end Sys2Proof.Machine
end

