-- ==== Sys2Proof/Machine/CommandSet.lean ====
section
/-! DEFINITION. The command set as one list, by opcode (R360, R366 to R379). -/

namespace Sys2Proof.Machine

def allCmds : List Cmd :=
  systemCmds ++ laneCmds ++ portCmds ++ pipeCmds ++ streamCmds ++ dmaCmds ++ hostCmds ++ posCmds ++ trigCmds ++ seamCmds ++
    timeCmds ++ safeCmds ++ roleCmds ++ panelCmds ++ powerCmds ++ fwCmds ++ observeCmds

/-- The command of an opcode; one that the command set does not list ends BAD_ARG (R365). -/
def cmdOf (opcode : Nat) : Cmd := (allCmds.find? fun m => m.opcode == opcode).getD (unknownCmd opcode)

end Sys2Proof.Machine
end

