-- ==== Sys2Proof/Machine/BootOps.lean ====
section
/-! DEFINITION. Reset release, the choice of an image, and the stored configuration (R457 to R470). -/

namespace Sys2Proof.Machine

/-- REQ_DIGEST of a stored command (R359): a header without sequence or session, for this device. -/
def CfgItem.digest (i : CfgItem) : List Byte :=
  (sha256 (le 2 i.opcode ++ le 2 0 ++ le 4 i.req.length ++ le 4 0 ++ le 2 0x3FF ++ le 2 0 ++ i.req)).take 8

/-- The context of a stored command (R464): the MT mailbox without a session. -/
def bootCtx (c : Chip) (opcode : Nat) : Ctx :=
  { mb := mtView, opcode := opcode, session := 0, sess := none, role := 0, slot := 0, grantAll := true, anyOnly := false,
    doorbell := c.t64 }

/-- An item is skipped (R464); a stream that finds no capacity at S3 is tried again at S4. -/
def skipItem (again : Bool) (n : Nat) (i : CfgItem) (status : Nat) (d : Dev) : Dev :=
  let c := d.chip.audit 0 i.opcode status 0 0 mtView 0 i.digest
  let c := c.emit 0x27 2 n status i.opcode
  let c := if again && i.opcode == 0x0401 && status == stNOCAP then { c with board.retry := c.board.retry ++ [i] } else c
  { d with chip := c }

/-- Applies one stored item (R464). -/
def applyItem (again : Bool) (n : Nat) (i : CfgItem) (d : Dev) : Dev :=
  let m := cmdOf i.opcode
  let x := bootCtx d.chip i.opcode
  let done := fun (f : Dev → Dev) =>
    let c := d.chip.audit 0 i.opcode stOK 0 0 mtView 0 i.digest
    (f { d with chip := c }).onChip fun c => c.journal m i.req
  if !m.size i.req then skipItem again n i stBADARG d
  else match m.body x i.req d with
    | .refuse st _ => skipItem again n i st d
    | .refuseC st _ _ => skipItem again n i st d
    | .ends st _ _ f => if st = stOK then done f else skipItem again n i st d
    | .commit f => done fun d => (f d).1
    | .later _ _ _ => skipItem again n i stPENDING d
    | .park _ _ => skipItem again n i stPENDING d

/-- Applies the stored items that `sel` chooses, in their stored order, numbered by their place (R464). -/
def applyItems (again : Bool) (l : List CfgItem) (sel : CfgItem → Bool) (d : Dev) : Dev :=
  (l.zipIdx.filter fun e => sel e.1).foldl (fun d e => applyItem again e.2 e.1 d) d

/-- Applies the stored items of the opcodes `ops`. -/
def applyOps (ops : List Nat) (d : Dev) : Dev :=
  applyItems true d.chip.board.saved (fun i => ops.contains i.opcode) d

/-- A stored role is SEAM: held until S4 (R464). -/
def CfgItem.seamRole (i : CfgItem) : Bool := i.opcode == 0x0201 && u8 i.req 1 == 2

/-- The S2 items of R464: time, encoders, pins, role policy and limits. -/
def itemsS2 (d : Dev) : Dev :=
  d |> applyOps [0x0702, 0x0704] |> applyOps [0x0501, 0x0502, 0x0503, 0x0504] |> applyOps [0x0525] |> applyOps [0x0907, 0x0203]

/-- The stored pipe tables come back under their handles (R464). -/
def restoreTables (d : Dev) : Dev :=
  d.chip.board.savedTables.foldl (fun d t =>
    let h := t.handle
    let e : TableSt := { port := t.port, kind := t.kind, size := t.size, sealed := true }
    { d with chip := { d.chip with store.tables := d.chip.store.tables.put h e,
                                   store.nextTable := max d.chip.store.nextTable (if h + 1 = 2 ^ 32 then 1 else h + 1) },
             mem := d.mem.writeBytes (tableBase h) t.data }) d

/-- The stored rates are the configured rates from the first (R465): without a record, before the items of S3. -/
def storedRates (c : Chip) : Chip :=
  c.foldC (c.board.saved.filter fun i => i.opcode == 0x0202) fun c i =>
    c.foldC (maskQuads (u16 i.req 0)) fun c q => c.setQuad q { c.quad q with cfgRate := u8 i.req 2 % 4 }

/-- The S3 items of R464: quads, camera ports, tables and sets, streams, Fold, QoS, panel. -/
def itemsS3 (d : Dev) : Dev :=
  let d := d.onChip storedRates
  let d := applyItems true d.chip.board.saved (fun i => i.opcode == 0x0201 && !i.seamRole) d
  let d := restoreTables (applyOps [0x0220, 0x0221] d)
  d |> applyOps [0x0305] |> applyOps [0x0401, 0x0405, 0x0406, 0x0407, 0x0409] |> applyOps [0x0420] |> applyOps [0x0424]
    |> applyOps [0x0A01, 0x0A02, 0x0A04]

/-- Every quad goes to its configured rate (R465): one record a rate; an OFF quad has none to leave. -/
def takeRates (d : Dev) : Dev :=
  let d := d.onChip fun c => c.foldC ((List.range 16).filter fun q => (c.quad q).role == .off) fun c q =>
    c.setQuad q { c.quad q with rate := (c.quad q).cfgRate }
  [0, 1, 2, 3].foldl (fun d r =>
    let qs := (List.range 16).filter fun q => (d.chip.quad q).rate != r && (d.chip.quad q).cfgRate == r
    if qs.isEmpty then d else { d with chip := d.chip.changeRate d.mem qs r }) d

/-- The S4 items of R464 after the rates: SEAM quads, Seam ID mode, streams tried once more, safety functions. -/
def itemsS4 (d : Dev) : Dev :=
  let d := applyItems false d.chip.board.saved CfgItem.seamRole d
  let d := applyOps [0x0601] d
  let again := d.chip.board.retry
  let d := applyItems false d.chip.board.saved (fun i => again.contains i) d
  applyOps [0x0801] (d.onChip fun c => { c with board.retry := [] })

namespace Chip

/-- What boot ROM finds of an image that it checked (R463), and that no staged one outlives the reset (log 36). -/
def checked (v : ImageSt) (tried ok : Bool) : ImageSt :=
  { v with state := if tried then (if ok then 2 else 3) else v.state, staged := none, commitSize := 0 }

/-- Every open session ends with a reset of the device, and its end is recorded (R349, R358, R359). -/
def closeSessions (c : Chip) : Chip := c.foldC (c.mbx.boxes.map (·.1)) fun c m => c.endSession m 0x14

/-- What outlives every reset (R467): flash, keys, the audit log, the VAON latches and the levels of pins; all else stands as
at reset. The model's own draws and its record of transmitted TLPs go on. -/
def kept (c : Chip) : Chip :=
  let c := c.closeSessions
  let n := Chip.reset
  let port := fun (p : Nat) =>
    let h := c.host p
    let r := { HostSt.reset with perst := h.perst, stored := h.stored, subsys := c.board.subsys.getD (0x1F6E, 1) }
    match h.stored with | some (l, pf, vf) => { r with vecLimit := l, pfBar2 := pf, vfBar2 := vf } | none => r
  let b := { c.board with cfg := [], saving := none, retry := [], jtag := .bypass }
  let x := { n.mbx with keys := c.mbx.keys, lockedPart := c.mbx.lockedPart, audit := c.mbx.audit,
                        auditNext := c.mbx.auditNext, auditHash := c.mbx.auditHash, auditOk := c.mbx.auditOk }
  let n := { n with board := b, mbx := x, draw := c.draw, time.tick := c.time.tick, hosts.sent := c.hosts.sent }
  (n.setHost 0 (port 0)).setHost 1 (port 1)

/-- A reset release (R458 to R463, R480): straps latched, stage S1, boot ROM selects an image. -/
def releaseReset (c : Chip) (s : Straps) (okA okB : Bool) (readings : List Int) : Chip :=
  let p := c.power
  let first := if s.bootB then 1 else c.board.marked % 2
  let ok := fun (i : Nat) => if i = 0 then okA else okB
  let run := if ok first then some first else if ok (1 - first) then some (1 - first) else none
  let tried := fun (i : Nat) => i == first || !ok first
  let k := c.kept
  let temps := (List.range 32).map (readings.getD · 250) ++ List.replicate 4 250
  let hot := p.nextCause == 4 && (temps.take 32).any fun t => decide (900 ≤ t)
  let pw := { PowerSt.reset with
    straps := s, recovery := run.isNone, tripWait := hot, cause := p.nextCause,
    wakeSource := if p.nextCause = 3 then p.wake.getD 0 else 0, temps := if p.nextCause = 4 then temps else List.replicate 36 250 }
  let k := { k with
    power := pw, mt.style := s.style,
    board.imageA := checked c.board.imageA (tried 0) okA, board.imageB := checked c.board.imageB (tried 1) okB,
    board.running := run.getD 0, mgmt.pairA := if run.isSome then .booting else .off, mgmt.imageA := run.getD 0,
    mgmt.imageB := run.getD 0 }
  if run.isSome then k
  else k.foldC [0, 1] fun c p => c.setHost p { c.host p with ready := !(c.host p).perst }

/-- VAON comes up (R456): only what is non-volatile outlives its absence; PWR_EN rises. -/
def vaonUp (c : Chip) : Chip :=
  let pw := { PowerSt.reset with stage := .s0, nextCause := 1, resetLow := true }
  ({ c.kept with power := pw } : Chip).holdReset

/-- RESET# goes low (R456, R457, R480): a thermal trip ends, and PWR_EN rises. -/
def assertReset (c : Chip) : Chip :=
  let t := c.power.trip
  ({ c with power.resetLow := true, power.trip := false, power.pwrEn := c.power.pwrEn || t } : Chip).holdReset

/-- A wake (R469, R470): latched from the commit of POWER.ENTER_STANDBY on, the first counting; in S0, once the least low
time is over, PWR_EN rises. -/
def wakeUp (c : Chip) (source : Nat) : Chip :=
  let p := c.power
  if !p.standby || p.wake.isSome then c
  else { c with power.wake := some source, power.nextCause := 3,
                power.pwrEn := p.pwrEn || (p.stage == .s0 && !p.lowHold) }

/-- The least low time of PWR_EN is over (R470): a latched wake raises it. -/
def holdEnd (c : Chip) : Chip :=
  { c with power.lowHold := false,
           power.pwrEn := c.power.pwrEn || (c.power.stage == .s0 && c.power.standby && c.power.wake.isSome) }

/-- RESET_CAUSE in the MT queue (R460, R504). -/
def causeRecord (c : Chip) : Chip :=
  let e : EventRec :=
    { line := 0x27, kind := 1, inst := c.power.cause, detail := c.power.wakeSource,
      value := if c.board.running = 0 then c.board.imageA.version else c.board.imageB.version, time := c.t64, source := 0x3FF }
  (c.count 0x27 1).mtWrite e

/-- The entry of the image that booted (R463); its fields beyond the common ones are not stated (log 37). -/
def bootAudit (c : Chip) : Chip :=
  let v := fun (i w : Nat) => c.fresh 37 [i, c.board.running] % 2 ^ w
  (c.audit 0 (v 0 16) (v 1 16) 0 0 (v 2 16) 0 (le 8 (v 3 64))).drawn

/-- The start events of a stage are requested in the order of R466. -/
def starts (l : List (StartKind × Nat)) : List StartEvent := l.flatMap fun e =>
  (List.range e.2).map fun i => ({ kind := e.1, inst := i } : StartEvent)

end Chip

/-- Standby (R468): quads OFF, ports frozen, the device holds itself in reset and drives PWR_EN low. -/
def toStandby (d : Dev) : Dev :=
  if !d.chip.power.standby || d.chip.power.stage == .s0 then d
  else
    let c := d.chip.foldC (List.range 16) fun c q => c.stopQuad d.mem q
    let c := c.foldC [0, 1] fun c p =>
      let h := c.host p
      if h.state = .down then c else (c.dropQueues p fun _ => true).setHost p { (c.dropQueues p fun _ => true).host p with state := .frozen }
    { d with chip := ({ c with power.stage := .s0, power.pwrEn := false, power.lowHold := true } : Chip).holdReset }

/-- Stage S2 (R461 to R464). -/
def reachS2 (d : Dev) : Dev :=
  let p := d.chip.power
  if p.stage != .s1 || p.recovery || p.tripWait then d
  else
    let c := d.chip
    let c := { c with power.stage := .s2, mgmt.pairA := .active, mgmt.pairB := .booting, mgmt.active := 0 }
    let c := c.foldC [0, 1] fun c p => c.setHost p { c.host p with ready := !(c.host p).perst }
    let c := c.bootAudit.causeRecord.bankCheck.requestStarts (Chip.starts [(.domain, 4), (.stack, 4), (.host, 2)])
    itemsS2 { d with chip := c }

/-- Stage S3 (R461, R464, R465). -/
def reachS3 (d : Dev) : Dev :=
  if d.chip.power.stage != .s2 then d
  else
    let c := ({ d.chip with power.stage := .s3 } : Chip).requestStarts (Chip.starts [(.pipeHalf, 16)])
    itemsS3 { d with chip := c }

/-- Stage S4 (R461, R464, R465). -/
def reachS4 (d : Dev) : Dev :=
  if d.chip.power.stage != .s3 then d
  else
    let d := applyOps [0x0202] d
    let c := ({ d.chip with power.stage := .s4 } : Chip).requestStarts (Chip.starts [(.pipeFull, 16)])
    let c := (c.settlePort 0).settlePort 1
    itemsS4 (takeRates { d with chip := c })

end Sys2Proof.Machine
end

