-- ==== Sys2Proof/Machine/Boot.lean ====
section
/-! DEFINITION. Power-on, reset, the stages of start-up, standby and wake (R456 to R470). The VAON domain acts while the device
is held in reset. -/

namespace Sys2Proof.Machine

def execVaonPowerOn (s : State) : Out := .next { s with chip := s.chip.vaonUp, mem := [] }

def execResetAssert (s : State) : Out := .next (s.onChip Chip.assertReset)

/-- RESET# rises (R458): a release where the device is held in reset and its rails are on. The addressed memories are lost. -/
def execResetRelease (vsafe : Bool) (mtAddr : Fin 4) (style ssc bootB imageA imageB : Bool) (readings : List Int)
    (s : State) : Out :=
  let p := s.chip.power
  let t : Straps := { vsafe := vsafe, mtAddr := mtAddr.val, style := style, ssc := ssc, bootB := bootB }
  .next (if p.held && p.pwrEn && !p.trip then { s with chip := s.chip.releaseReset t imageA imageB readings, mem := [] }
    else s)

def execStageS2Reached (s : State) : Out := s.runDev reachS2

def execStageS3Reached (s : State) : Out := s.runDev reachS3

def execStageS4Reached (s : State) : Out := s.runDev reachS4

def execStandbyEntry (s : State) : Out := s.runDev toStandby

def execPwrEnHoldEnd (s : State) : Out := .next (s.onChip Chip.holdEnd)

def execWakePin (s : State) : Out := .next (s.onChip fun c => c.wakeUp 1)

def execMtAddressWake (s : State) : Out := .next (s.onChip fun c => c.wakeUp 2)

end Sys2Proof.Machine
end

