-- ==== Sys2Proof/Machine/Mbox.lean ====
section
/-! DEFINITION. The events of mailboxes: doorbells, the firmware's taking of commands, deadlines, parked commands, and the
messages of relayed commands (R343 to R350, R413). -/

namespace Sys2Proof.Machine

namespace Chip

/-- The command of a mailbox runs on another device (R340, R350). -/
def isRelay (c : Chip) (mb : Nat) : Bool :=
  let t := (c.box mb).target
  decide (mb < 0x8000) && t != 0x3FF && some t != c.seam.id

/-- A CANCEL goes after the command that has been relayed, or waits for it to be (R343). -/
def relayCancel (c : Chip) (mb : Nat) : Chip :=
  let b := c.box mb
  match b.parked with
  | some k =>
    if k.cancelSent then c
    else
      let c := c.setBox mb { b with parked := some { k with cancelSent := true } }
      if c.seam.relays.any fun r => r.mailbox == mb && r.sent && !r.late then c.originate 3 0x32 b.target 0 (le 2 b.seq) else c
  | none => c.setBox mb { b with cancelDue := true }

/-- A command has claimed its commit point at this very instant, which comes before a deadline and a CANCEL (R343). -/
def justCommitted (c : Chip) (mb : Nat) : Bool := (c.box mb).commitAt == some c.up

/-- A CANCEL or the deadline reaches a command (R343): `status` is CANCELLED or TIMEOUT. A change on the way is given up. -/
def stopCommand (c : Chip) (mb status : Nat) : Chip :=
  let b := c.box mb
  if b.state = .committed ∨ c.justCommitted mb then c.setBox mb { b with cancelLate := sat 16 (b.cancelLate + 1) }
  else if b.state = .queued || b.state = .running then
    if c.isRelay mb then c.relayCancel mb else (c.stopCalib mb).endCommand mb status 0 []
  else c

/-- A CANCEL with its SEQ (R343); one of the same instant as the deadline comes after it. -/
def cancelBell (c : Chip) (mb seq : Nat) : Chip :=
  let b := c.box mb
  let open_ := b.state == .queued || b.state == .running
  if open_ && b.seq == seq % 65536 && !c.isRelay mb && decide (b.deadlineAt ≤ c.up) then
    let c := c.stopCommand mb stTIMEOUT
    c.setBox mb { c.box mb with ignored := sat 16 ((c.box mb).ignored + 1) }
  else if (open_ || b.state == .committed || c.justCommitted mb) && b.seq == seq % 65536 then c.stopCommand mb stCANCELLED
  else c.setBox mb { b with ignored := sat 16 (b.ignored + 1) }

/-- The mailbox whose doorbell came first among those that `sel` chooses, of those at one instant the lowest (R344). -/
def firstBell (c : Chip) (sel : Mailbox → Bool) : Option Nat :=
  ((c.mbx.boxes.filter fun e => sel e.2).foldl (fun (b : Option (Nat × Nat)) e =>
    match b with
    | some (m, o) => if e.2.order < o || (e.2.order == o && decide (e.1 < m)) then some (e.1, e.2.order) else b
    | none => some (e.1, e.2.order)) none).map (·.1)

/-- The next command queued for a device is sent once the one before has ended (R413). -/
def nextRelay (c : Chip) (target : Nat) : Chip :=
  if c.seam.relays.any fun r => r.target == target && r.sent then c
  else
    match c.seam.relays.find? fun r => r.target == target with
    | none => c
    | some r =>
      let send := fun (x : RelaySt) => if x = r then { x with sent := true } else x
      let c := ({ c with seam.relays := c.seam.relays.map send } : Chip).originate 3 0x30 target 0 r.bytes
      match (c.box r.mailbox).parked with
      | some k => if k.cancelSent then c.originate 3 0x32 target 0 (le 2 (c.box r.mailbox).seq) else c
      | none => c

/-- No answer 10 ms after the deadline (R350): TIMEOUT with UNKNOWN, for a command that was not yet taken too. -/
def relayLost (c : Chip) (mb : Nat) : Chip :=
  let b := c.box mb
  if !(b.state == .queued || (b.state == .running && b.parked.isSome)) || !c.isRelay mb then c
  else
    let mine := fun (r : RelaySt) => r.mailbox == mb && !r.late
    let c : Chip := { c with seam.relays :=
      (c.seam.relays.filter fun r => !(mine r && !r.sent)).map fun r => if mine r then { r with late := true } else r }
    c.endCommand mb stTIMEOUT 4 []

/-- A device whose unit the relayed command has armed with a channel of this one gets its samples (R411). -/
def mirrorArm (c : Chip) (target : Nat) (req : List Byte) (opcode : Nat) : Chip :=
  let u := u8 req 0
  let rest := c.seam.mirrors.filter fun m => !(m.peer == target && (m.unit == u || u == 0xFF))
  if opcode = 0x0520 || opcode = 0x0521 || opcode = 0x0522 then
    if 0x40 ≤ u8 req 1 && u8 req 1 < 0x48 then
      { c with seam.mirrors := rest ++ [{ peer := target, unit := u, chan := u8 req 1 - 0x40, sentX := none }] }
    else { c with seam.mirrors := rest }
  else if opcode = 0x0523 then { c with seam.mirrors := rest }
  else c

/-- The end of a relayed command comes back (R350, R413); reserved bits of its header are dropped (R12, R340). -/
def relayAnswer (c : Chip) (src : Nat) (p : List Byte) : Chip :=
  let c := c.unland src 0x31
  match c.seam.relays.find? fun r => r.target == src && r.sent && u16 r.bytes 2 == u16 p 2 with
  | none => c
  | some r =>
    let c : Chip := { c with seam.relays := c.seam.relays.erase r }
    let op := u16 r.bytes 0
    let c := if u16 p 16 = 0 then c.mirrorArm src (r.bytes.drop 32) op else c
    let c :=
      if r.late then c.emit 0x1B 2 r.mailbox op (src * 2 ^ 48 + u16 p 2 * 2 ^ 32 + u16 p 16)
      else c.endCommand r.mailbox (u16 p 16) (u8 p 15 % 16) ((p.drop 32).take (min 4096 (u32 p 4)))
    c.nextRelay src

/-- A relayed command reaches the remote mailbox of its source (R350, R413); reserved bits of its header are ignored (R12). -/
def relayIn (c : Chip) (src : Nat) (p : List Byte) : Chip :=
  let c := c.unland src 0x30
  let m := 0x8000 + src
  let b := c.box m
  if !(b.state == .idle || b.state == .done) || !c.mailboxUp then c.setBox m { b with ignored := sat 16 (b.ignored + 1) }
  else
    let n := u32 p 4
    let b := { b with opcode := u16 p 0, seq := u16 p 2, length := n, session := u32 p 8, target := u16 p 12 % 1024,
                      reqFlags := u8 p 14 % 4,
                      req := Mem.writeBytes [] 0 ((p.drop 32).take (min 4096 n)) }
    (c.setBox m b).ringBell m

end Chip

/-- The firmware takes the next queued command (R344); in a core hold it stands still (R472). -/
def takeCommand (d : Dev) : Dev :=
  if !d.chip.mailboxUp || d.chip.power.coreHold then d
  else
    match d.chip.firstBell fun b => b.state == .queued with
    | none => d
    | some mb => takeWith (cmdOf (d.chip.box mb).opcode) mb d

/-- A parked command whose outside party has answered goes on (R344); in a core hold it stands still (R472). -/
def resumeParked (d : Dev) : Dev :=
  let ready := fun (b : Mailbox) => b.state == .running && (match b.parked with | some k => k.answer.isSome | none => false)
  match if !d.chip.mailboxUp || d.chip.power.coreHold then none else d.chip.firstBell ready with
  | none => d
  | some mb =>
    let b := d.chip.box mb
    match b.parked.bind (·.answer) with
    | none => d
    | some a =>
      let m := cmdOf b.opcode
      let c := d.chip.setBox mb { b with parked := none }
      let d := { d with chip := c }
      let x := c.ctxOf mb
      let req := c.requestOf mb
      finish m x req (if c.pairActive then m.resume x req a d else .no stINTERNAL) d

def execMbxGo (mb seq : Nat) (s : State) : Out := s.onChipIf (validView mb) fun c => c.goBell mb seq

def execMbxCancel (mb seq : Nat) (s : State) : Out :=
  s.onChipIf (validView mb) fun c => if c.mailboxUp && c.reaches mb then c.cancelBell mb seq else c

def execMbxTakeCommand (s : State) : Out := s.runDev takeCommand

def execMbxParkedResume (s : State) : Out := s.runDev resumeParked

def execMbxDeadlineExpiry (mb : Nat) (s : State) : Out := s.onChipIf (validMb mb) fun c => c.stopCommand mb stTIMEOUT

def execRelayNoAnswer (mb : Nat) (s : State) : Out := s.onChipIf (validMb mb) fun c => c.relayLost mb

def execMbxReqReceived (source : Nat) (payload : List Byte) (s : State) : Out :=
  s.run fun c => c.relayIn (source % 1024) payload

def execMbxRspReceived (source : Nat) (payload : List Byte) (s : State) : Out :=
  s.run fun c => c.relayAnswer (source % 1024) payload

def execMbxCancelReceived (source seq : Nat) (s : State) : Out :=
  s.run fun c => (c.unland (source % 1024) 0x32).cancelBell (0x8000 + source % 1024) seq

end Sys2Proof.Machine
end

