-- ==== Sys2Proof/WellFormed.lean ====
section
/-! DEFINITION. Well-formed commands: every number that names a mailbox, function, reader, channel or link setting names one
that the spec gives the device (R262, R294, R301, R313, R339, R362). -/

namespace Sys2Proof

open Sys2Proof.Machine

/-- The reader of an RC field (R342, R484). -/
def rcReader : RcReg → Nat | .mbxCnt m => m | _ => mtView

/-- The operands of a command name objects of the device. -/
def Instr.wf : Instr → Bool
  | .systemIdentify mb _ => validMb mb
  | .systemReadMeters mb _ => validMb mb
  | .systemReadPending mb _ => validMb mb
  | .systemCancelPending mb _ => validMb mb
  | .systemSetBoard mb _ => validMb mb
  | .systemSaveConfig mb _ => validMb mb
  | .saveConfigComplete _ _ => true
  | .laneSetRole mb _ => validMb mb
  | .laneSetRate mb _ => validMb mb
  | .laneSetTx mb _ => validMb mb
  | .laneSetAdapt mb _ => validMb mb
  | .laneSetPower mb _ => validMb mb
  | .laneSetTest mb _ => validMb mb
  | .laneInject mb _ => validMb mb
  | .laneReadCoeffs mb _ => validMb mb
  | .laneReadStatus mb _ => validMb mb
  | .laneClearCounts mb _ => validMb mb
  | .portConfigure mb _ => validMb mb
  | .portEnable mb _ => validMb mb
  | .portDisable mb _ => validMb mb
  | .portCamRead mb _ => validMb mb
  | .portCamWrite mb _ => validMb mb
  | .portCalibrate mb _ => validMb mb
  | .portReadStatus mb _ => validMb mb
  | .portClearCounts mb _ => validMb mb
  | .pipeAllocTable mb _ => validMb mb
  | .pipeWriteTable mb _ => validMb mb
  | .pipeSealTable mb _ => validMb mb
  | .pipeFreeTable mb _ => validMb mb
  | .pipeQueueParams mb _ => validMb mb
  | .pipeCancelParams mb _ => validMb mb
  | .pipeReadParams mb _ => validMb mb
  | .pipeRestore mb _ => validMb mb
  | .pipeReadStatus mb _ => validMb mb
  | .pipeClearCounts mb _ => validMb mb
  | .streamCreate mb _ => validMb mb
  | .streamDestroy mb _ => validMb mb
  | .streamStart mb _ => validMb mb
  | .streamStop mb _ => validMb mb
  | .streamSetOutput mb _ => validMb mb
  | .streamSetLimits mb _ => validMb mb
  | .streamSetQuotas mb _ => validMb mb
  | .streamRinse mb _ => validMb mb
  | .streamMove mb _ => validMb mb
  | .streamReadStatus mb _ => validMb mb
  | .dmaSetFold mb _ => validMb mb
  | .dmaOpenRead mb _ => validMb mb
  | .dmaCloseRead mb _ => validMb mb
  | .dmaReadStatus mb _ => validMb mb
  | .dmaSetQos mb _ => validMb mb
  | .dmaReadQos mb _ => validMb mb
  | .hostSetFunctions mb _ => validMb mb
  | .hostSetWindow mb _ => validMb mb
  | .hostClearWindow mb _ => validMb mb
  | .hostFreezePort mb _ => validMb mb
  | .hostReleasePort mb _ => validMb mb
  | .hostReadStatus mb _ => validMb mb
  | .hostClearCounts mb _ => validMb mb
  | .posSetChannel mb _ => validMb mb
  | .posSetSpeed mb _ => validMb mb
  | .posSetSerial mb _ => validMb mb
  | .posSetDivider mb _ => validMb mb
  | .posPreset mb _ => validMb mb
  | .posClearFault mb _ => validMb mb
  | .posReadStatus mb _ => validMb mb
  | .trigArmOneshot mb _ => validMb mb
  | .trigArmPeriodic mb _ => validMb mb
  | .trigArmTable mb _ => validMb mb
  | .trigDisarm mb _ => validMb mb
  | .trigLoadTable mb _ => validMb mb
  | .trigSetPin mb _ => validMb mb
  | .trigSchedulePulses mb _ => validMb mb
  | .trigArmWindow mb _ => validMb mb
  | .trigWindowEvent mb _ => validMb mb
  | .trigReadStatus mb _ => validMb mb
  | .seamSetId mb _ => validMb mb
  | .seamRediscover mb _ => validMb mb
  | .seamReadTopology mb _ => validMb mb
  | .seamReadRoute mb _ => validMb mb
  | .seamReadLink mb _ => validMb mb
  | .seamSnapshotAt mb _ => validMb mb
  | .timeReadStatus mb _ => validMb mb
  | .timeSetSource mb _ => validMb mb
  | .timeStep mb _ => validMb mb
  | .timeSetHostControl mb _ => validMb mb
  | .safetySetFunction mb _ => validMb mb
  | .safetyReadStatus mb _ => validMb mb
  | .safetyLeaveSafeState mb _ => validMb mb
  | .safetyReadFaults mb _ => validMb mb
  | .roleGetChallenge mb _ => validMb mb
  | .roleOpenSession mb _ => validMb mb
  | .roleCloseSession mb _ => validMb mb
  | .roleProgramKey mb _ => validMb mb
  | .roleRevokeKey mb _ => validMb mb
  | .roleLockPart mb _ => validMb mb
  | .roleSetPolicy mb _ => validMb mb
  | .roleReadAudit mb _ => validMb mb
  | .roleReadKeys mb _ => validMb mb
  | .panelSetMode mb _ => validMb mb
  | .panelSetTile mb _ => validMb mb
  | .panelSetOverlay mb _ => validMb mb
  | .panelSetPolicy mb _ => validMb mb
  | .panelReadStatus mb _ => validMb mb
  | .powerSetVfMode mb _ => validMb mb
  | .powerReadVfState mb _ => validMb mb
  | .powerReadThermal mb _ => validMb mb
  | .powerEnterStandby mb _ => validMb mb
  | .fwReadInfo mb _ => validMb mb
  | .fwWriteImage mb _ => validMb mb
  | .fwCommitImage mb _ => validMb mb
  | .fwCommitComplete _ _ _ => true
  | .fwActivate mb _ => validMb mb
  | .fwActivateHandover _ _ => true
  | .obsSetTrace mb _ => validMb mb
  | .obsReadTrace mb _ => validMb mb
  | .obsReadCounters mb _ => validMb mb
  | .obsSnapshotAt mb _ => validMb mb
  | .obsReadSnapshot mb _ => validMb mb
  | .evtSetRing mb _ => validMb mb
  | .evtSetRoute mb _ => validMb mb
  | .mbxGo mb _ => validView mb
  | .mbxCancel mb _ => validView mb
  | .mbxTakeCommand => true
  | .mbxParkedResume => true
  | .mbxDeadlineExpiry mb => validMb mb
  | .relayNoAnswer mb => validMb mb
  | .sessionIdleExpiry mb => validMb mb
  | .challengeExpiry mb => validMb mb
  | .challengeLockoutEnd mb => mb.all validMb
  | .tbNsRead view => validView view
  | .tbT64LoRead view => validView view
  | .tbSetGo _ => true
  | .stepAtSecondApply => true
  | .posCntLoRead view _ => validView view
  | .lnStateRead view _ => validView view
  | .cpStateRead view _ => validView view
  | .ppStateRead view _ => validView view
  | .ringStateRead fn isRead chan => validFn fn && chanOk isRead chan
  | .hpStateRead fn => validFn fn
  | .rcRegisterRead reg => validView (rcReader reg)
  | .registerWrite view _ _ _ => validView view
  | .lsEndWrite fn _ => validFn fn
  | .bar2LeaseRead fn _ _ => validFn fn
  | .bar2Read fn _ _ => validFn fn
  | .bar2Write fn _ _ => validFn fn
  | .dbDescTailWrite fn isRead chan _ => validFn fn && chanOk isRead chan
  | .dbCtrlHalt fn isRead chan => validFn fn && chanOk isRead chan
  | .dbCtrlAbort fn isRead chan => validFn fn && chanOk isRead chan
  | .dbCtrlArm fn isRead chan => validFn fn && chanOk isRead chan
  | .dbRelWrite fn chan _ => validFn fn && chanOk false chan
  | .dbPegRelWrite fn chan _ => validFn fn && chanOk false chan
  | .evrRelWrite view _ => validView view
  | .frzCtrlRelease _ _ => true
  | .configRequest fn _ _ => validFn fn
  | .flrInitiate fn => validFn fn
  | .flrComplete fn => validFn fn
  | .d3hotEntry fn => validFn fn
  | .d0Return fn => validFn fn
  | .busMasterEnableClear fn => validFn fn
  | .busMasterEnableSet fn => validFn fn
  | .vfEnableChange _ _ numVfs => decide (numVfs ≤ 63)
  | .mpsChange _ code => decide (code ≤ 2)
  | .perstAssert _ => true
  | .perstDeassert _ => true
  | .dlActiveReached _ rate width _ => linkOk rate width
  | .dlActiveLost _ => true
  | .linkRetrain _ rate width => linkOk rate width
  | .poisonedWriteReceived _ => true
  | .portUeDetected _ => true
  | .completionReceived _ _ _ _ _ => true
  | .completionTimeout _ _ => true
  | .descriptorExecute _ isRead chan => chanOk isRead chan
  | .readRequestIssue _ => true
  | .writeChannelIssueStart _ chan => chanOk false chan
  | .writeBurstIssue _ chan => chanOk false chan
  | .issueArbitration _ _ _ => true
  | .leaseDeadline fn _ => validFn fn
  | .oldEpochDeadline _ => true
  | .pipeInlineLine _ => true
  | .pipeSliceStart _ => true
  | .pipeSwatchRun _ _ => true
  | .pipeStallTimeout _ => true
  | .basketReadError _ _ => true
  | .fsUncorrectableError _ _ _ => true
  | .fsInterfaceFail _ _ => true
  | .sofReceived _ _ _ => true
  | .imgReceived _ _ _ _ => true
  | .eofReceived _ _ _ => true
  | .frameTimeout _ _ _ _ => true
  | .malformedBlockReceived _ _ => true
  | .ctrlRspReceived _ _ _ _ _ => true
  | .ctrlReqRetry _ _ => true
  | .ctrlReqTimeout _ _ => true
  | .discoveryRetry _ => true
  | .fireStatusReceived _ _ _ _ => true
  | .exposureTimeout _ _ => true
  | .darnGoneReceived _ _ _ _ => true
  | .ohLaneReceived _ _ => true
  | .darnRetryTimeout _ _ => true
  | .darnLossTimeout _ _ => true
  | .ohTimeReceived _ _ _ _ _ _ => true
  | .syncExchangeTimeout _ => true
  | .camTimeTimeout _ => true
  | .parityStripeComplete _ _ => true
  | .codewordReceived _ _ => true
  | .alignmentBlockReceived _ _ => true
  | .alignmentPeriodBoundary _ => true
  | .synthLock _ => true
  | .startBudgetAdmit => true
  | .laneSignalDetect _ => true
  | .laneAcquireDone _ => true
  | .laneBlindDone _ => true
  | .laneTrainDone _ => true
  | .laneQualifyDone _ _ => true
  | .lanePhaseOverrun _ => true
  | .eqfWindowClose _ _ => true
  | .laneSignalLoss _ => true
  | .rxL1Timeout _ => true
  | .refclkOutOfRange _ => true
  | .refclkInRange => true
  | .checkerSyncGain _ => true
  | .checkerSyncLoss _ => true
  | .injectEvent _ => true
  | .ppsInEdge _ _ => true
  | .ppsLossTimeout => true
  | .tenInLossTimeout => true
  | .seamExchangeLoss => true
  | .acquisitionStep => true
  | .ppsOutRise => true
  | .positionPublication => true
  | .timeUnitSend _ => true
  | .fireInstant _ => true
  | .pinPulseStart _ => true
  | .pinInputEdge _ _ => true
  | .windowEventAct _ => true
  | .windowFrameJudge _ _ => true
  | .quadDecode _ _ _ => true
  | .pulseDirEdge _ _ _ => true
  | .upDownEdge _ _ _ => true
  | .hallStateChange _ _ => true
  | .indexEdge _ _ => true
  | .wireBreakSet _ _ => true
  | .wireBreakClear _ _ => true
  | .serialReading _ _ => true
  | .dividerOutputStep _ => true
  | .meterWindowClose _ => true
  | .vfEvaluate _ => true
  | .readVoutCheck _ => true
  | .mcTransaction _ _ _ _ => true
  | .modulePoll _ _ => true
  | .siteInsertionPoll _ _ => true
  | .thermalSensorRead _ => true
  | .stepdownExit => true
  | .previewLevelRaise => true
  | .throttleTick => true
  | .thermalTrip => true
  | .bootThermalWait _ => true
  | .vaonPowerOn => true
  | .resetAssert => true
  | .resetRelease _ _ _ _ _ _ _ _ => true
  | .stageS2Reached => true
  | .stageS3Reached => true
  | .stageS4Reached => true
  | .stackReady _ => true
  | .startPacerGrant => true
  | .standbyEntry => true
  | .pwrEnHoldEnd => true
  | .wakePin => true
  | .mtAddressWake => true
  | .coreHoldStart => true
  | .coreHoldEnd => true
  | .brownoutReset => true
  | .safetyRegisterCheck _ _ _ _ => true
  | .heartbeatPeriod _ _ => true
  | .panelFrameStart => true
  | .panelBandCompare _ _ => true
  | .panelBandLate _ => true
  | .tileAgeEval => true
  | .hpdLoss => true
  | .hpdReturn => true
  | .irqHpd => true
  | .panelLinkTrained _ _ => true
  | .lockstepMismatch => true
  | .pairSelfTestDone _ _ => true
  | .routerTake _ => true
  | .consumerOverrunRecord _ => true
  | .traceDropReport => true
  | .snapshotInstant _ => true
  | .snapshotExpiry _ => true
  | .mtPointerWrite _ _ _ => true
  | .mtSetPointer _ _ => true
  | .mtReadAtPointer _ _ _ => true
  | .mtReadOn _ _ => true
  | .mtReadWord _ _ _ => true
  | .mtWriteWord _ _ _ _ _ => true
  | .mtReadByte _ _ _ => true
  | .mtWriteByte _ _ _ _ => true
  | .mtBlockWrite _ _ _ _ _ => true
  | .mtBlockRead _ _ _ => true
  | .mtAlertResponse _ => true
  | .alertRereport _ => true
  | .mtSclTimeout => true
  | .seamHelloReceived _ _ _ _ _ => true
  | .seamFlitReceived _ _ _ _ _ => true
  | .seamNakReceived _ _ => true
  | .seamReplayTimeout _ => true
  | .seamLinkSilence _ => true
  | .seamFlitForward _ => true
  | .seamReorderTimeout _ _ => true
  | .seamProbeReceived _ _ => true
  | .seamProbePeriodic => true
  | .seamSerialTimeout _ => true
  | .seamConvergence => true
  | .seamAssignReceived _ _ => true
  | .seamRoutingTableInstall => true
  | .seamAdmissionHop _ _ _ _ => true
  | .seamTimeExchange _ _ _ _ _ _ _ => true
  | .posSampleKeepalive _ => true
  | .posSampleReceived _ _ => true
  | .posSampleStale _ _ => true
  | .latchRequestReceived _ _ _ _ => true
  | .latchAnswerReceived _ _ _ _ => true
  | .latchTimeout _ _ => true
  | .mbxReqReceived _ _ => true
  | .mbxRspReceived _ _ => true
  | .mbxCancelReceived _ _ => true
  | .snapReqReceived _ _ _ => true
  | .seamSnapshotInstant _ => true
  | .snapDataReceived _ _ _ _ => true
  | .snapIncompleteTimeout _ => true
  | .eventFlitReceived _ => true
  | .frameDataReceived _ _ _ => true
  | .frameEndReceived _ _ _ => true
  | .supplyOutOfRange _ _ => true
  | .standbyPairReady _ => true
  | .pinPulseEnd _ => true
  | .jtagInstruction _ => true

end Sys2Proof
end

