-- ==== Sys2Proof/Machine/Regs.lean ====
section
/-! DEFINITION. The register map that a function finds in BAR0 and MT in MT space (R303, R485): what a dword reads, what a
read does besides, and what a write does (R11, R304). -/

namespace Sys2Proof.Machine

/-- The stored byte lanes of a dword that a write with byte enables `be` replaces. -/
def mergeBytes (old new be : Nat) : Nat :=
  leNat ((List.range 4).map fun i => BitVec.ofNat 8 (bits (if bit be i then new else old) (8 * i) 8))

/-- The code of MBX_STATE.STATE (R342). -/
def mbxCode : MbxState → Nat | .idle => 0 | .queued => 1 | .running => 2 | .committed => 3 | .done => 4 | .held => 5

/-- The host's writes to a mailbox's header and request area are ignored now (R341). -/
def Mailbox.closed (b : Mailbox) : Bool :=
  b.state == .queued || b.state == .running || b.state == .committed || b.state == .held

/-- A write that a mailbox ignores (R341, R342). -/
def Mailbox.ignore (b : Mailbox) : Mailbox := { b with ignored := sat 16 (b.ignored + 1) }

/-- One byte of the header is written (R340): reserved and RO bytes are ignored. -/
def Mailbox.headerByte (b : Mailbox) (o v : Nat) : Mailbox :=
  let put := fun (old i : Nat) => clearBits old (0xFF * 2 ^ (8 * i)) + v % 256 * 2 ^ (8 * i)
  if o < 2 then { b with opcode := put b.opcode o }
  else if o < 4 then { b with seq := put b.seq (o - 2) }
  else if o < 8 then { b with length := put b.length (o - 4) }
  else if o < 12 then { b with session := put b.session (o - 8) }
  else if o < 14 then { b with target := put b.target (o - 12) % 1024 }
  else if o = 14 then { b with reqFlags := v % 4 }
  else b

namespace Chip

/-- A write of bytes to a mailbox's header (R340, R341). -/
def writeHeader (c : Chip) (mb o v be : Nat) : Chip :=
  let b := c.box mb
  if b.closed then c.setBox mb b.ignore
  else c.setBox mb
    (((List.range 4).filter fun i => bit be i).foldl (fun (b : Mailbox) i => b.headerByte (o + i) (bits v (8 * i) 8)) b)

/-- A write of bytes to a mailbox's request area (R339, R341). -/
def writeRequest (c : Chip) (mb o v be : Nat) : Chip :=
  let b := c.box mb
  if b.closed then c.setBox mb b.ignore
  else
    let put := fun (m : Mem) (i : Nat) => m.write (o + i) (BitVec.ofNat 8 (bits v (8 * i) 8))
    c.setBox mb { b with req := ((List.range 4).filter fun i => bit be i).foldl put b.req }

/-- Seconds before the session of a mailbox expires (R342, R356); the rounding is not stated (log 10). -/
def idleLeft (c : Chip) (s : Session) : Nat :=
  (quot (s.used + c.mbx.idle.getD 900 s.role * secU - c.up : Nat) secU).toNat % 2 ^ 17

/-- A register of the mailbox page but the header (R342). -/
def mbxReg (c : Chip) (mb o : Nat) : Nat :=
  let b := c.box mb
  if o = 0x24 then mbxCode b.state * 2 ^ 28 + b.stateSeq
  else if o = 0x28 then (if b.deadline = 0 then 1000 else b.deadline) * 65536 + b.vector
  else if o = 0x2C then (match b.sess with
    | some s => s.role * 2 ^ 30 + s.slot * 2 ^ 24 + c.idleLeft s
    | none => 0)
  else if o = 0x30 then b.ignored * 65536 + b.cancelLate
  else 0

/-- MBX_CNT is cleared by its read (R11, R342). -/
def clearCnt (c : Chip) (mb : Nat) : Chip := c.setBox mb { c.box mb with ignored := 0, cancelLate := 0 }

/-- A register of the time page that is no latching one (R42, R43). TB_SET_STATUS is one register for both PFs (log 76). -/
def timeReg (c : Chip) (v o : Nat) : Nat :=
  let t := c.time
  let sec := t.secLatch.getD 0 v
  let pf := v < 256 && v % 128 == 0
  let g := t.staged.getD StageRegs.reset (v / 128)
  if o = 0x04 then sec / 2 ^ 16 % 2 ^ 32
  else if o = 0x08 then sec / 2 ^ 48 % 2 ^ 16
  else if o = 0x0C then sec % 2 ^ 16
  else if o = 0x14 then t.hiLatch.getD 0 v
  else if o = 0x18 then discCode t.disc * 16 + sourceCode t.source
  else if o = 0x1C then c.tbEvt v
  else if !pf then 0
  else if o = 0x20 then g.sec % 2 ^ 32
  else if o = 0x24 then g.sec / 2 ^ 32
  else if o = 0x28 then g.ofs % 2 ^ 32
  else if o = 0x2C then g.ofs / 2 ^ 32
  else if o = 0x30 then g.mode * 2
  else if o = 0x34 then t.setCause * 16 + t.setState
  else 0

/-- A register of the lease page (R256). -/
def leaseReg (c : Chip) (f o : Nat) : Nat :=
  let l := c.lease f (o / 16)
  if 0x400 ≤ o then 0
  else if o % 16 = 0 then
    (match l.state with | .free | .taken => 0 | .active => 1 | .ended => 2) * 2 ^ 30 + b2n l.lateRead * 2 ^ 29 + b2n l.expired * 2 ^ 28 +
      l.stream * 2 ^ 16 + l.gen
  else if o % 16 = 4 then l.seq
  else if o % 16 = 8 then l.deadline % 2 ^ 32
  else l.deadline / 2 ^ 32

/-- A register of the event flag page (R505). -/
def eventReg (c : Chip) (v o : Nat) : Nat :=
  let vf := v < 256 && v % 128 != 0
  let e := c.ev
  if o = 0x00 then e.evfLine.getD 0 v % 2 ^ 32
  else if o = 0x04 then e.evfLine.getD 0 v / 2 ^ 32 % 2 ^ 16
  else if o = 0x08 then (if vf then 0 else e.evfCons)
  else if o = 0x0C then (if vf then 0 else e.evfUnit)
  else if o = 0x10 then
    if v = mtView then 2 ^ 31 + b2n e.mtOverrun * 2 ^ 30 + 6 * 2 ^ 16
    else match e.rings.find? v with
      | some g => 2 ^ 31 + b2n g.overrun * 2 ^ 30 + g.log2 * 2 ^ 16 + g.vector
      | none => 0
  else if o = 0x14 then
    if v = mtView then e.mtWr else match e.rings.find? v with | some g => g.wr | none => 0
  else if o = 0x1C then (if vf then 0 else e.trace.sink * 2 ^ 30 + b2n e.trace.stopped * 2 ^ 29 + e.trace.sizeLog2)
  else if o = 0x20 then (if vf then 0 else e.trace.tseq)
  else if 0x800 ≤ o && v == mtView then u32 (e.mtEntries.getD [] ((o - 0x800) / 32)) (o % 32)
  else 0

/-- A register of the window table (R310). -/
def windowReg (c : Chip) (f o : Nat) : Nat :=
  let e := o / 16
  if (if f % 128 = 0 then 256 else 16) ≤ e then 0
  else
    let w := (c.fn f).windows.getD WindowSt.reset e
    if o % 16 = 0 then w.kind * 2 ^ 30 + b2n w.write * 2 ^ 29 + w.log2 * 2 ^ 16
    else if o % 16 = 4 then w.base / 2 ^ 21 * 2 ^ 16
    else if o % 16 = 8 then
      if w.kind = 1 then
        let on := ((List.range 64).map (c.lease f)).filter fun l => l.state == .active
        on.length * 2 ^ 16 + (on.map fun l => (l.size + 2 ^ 21 - 1) / 2 ^ 21).foldl (· + ·) 0
      else if w.kind = 2 then w.handle else 0
    else w.refused

/-- A dword of the MSI-X table (R313). -/
def msixReg (c : Chip) (f o : Nat) : Nat :=
  if c.vectors f ≤ o / 16 then 0
  else
    let e := (c.fn f).msix.getD MsixEntry.reset (o / 16)
    if o % 16 = 0 then e.addr % 2 ^ 32 else if o % 16 = 4 then e.addr / 2 ^ 32 else if o % 16 = 8 then e.data else b2n e.masked

/-- A dword of the pending bit array (R313). -/
def pendingReg (c : Chip) (f o : Nat) : Nat :=
  let t := (c.fn f).msix
  ((List.range 32).map fun i => b2n (t.getD MsixEntry.reset (8 * o + i)).pending * 2 ^ i).foldl (· + ·) 0

/-- A word of a latched block (R101, R138, R179, R212, R293, R306): the reader's latch, 0 before the first. -/
def latched (t : Tab (List Nat)) (k i : Nat) : Nat := (t.getD [] k).getD i 0

/-- A read of one dword by a reader of the pages (R11, R303, R485): what it returns, and what it does. -/
def readDword (c : Chip) (v off : Nat) : Chip :=
  let page := off / 0x1000
  let o := off % 0x1000 / 4 * 4
  let mt := v == mtView
  let say := fun (n : Nat) => ({ c with rd := le 4 n } : Chip)
  if page = 1 then
    if o < 0x20 then say (u32 (headerBytes (c.box v)) o)
    else if o = 0x30 then ({ c with rd := le 4 (c.mbxReg v o) } : Chip).clearCnt v
    else say (c.mbxReg v o)
  else if page = 2 then
    if o = 0 then c.readNs v else if o = 0x10 then c.readT64 v else say (c.timeReg v o)
  else if page = 3 then
    if 0x200 ≤ o then say 0 else if o % 64 = 0 then c.readPosCnt v (o / 64) else say (latched c.pos.latches (v * 8 + o / 64) (o % 64 / 4))
  else if page = 4 then
    if o % 64 = 0 then c.readLane v (o / 64) else say (latched c.lanes.latches (v * 64 + o / 64) (o % 64 / 4))
  else if page = 5 then
    if o % 64 = 0 then c.readPort v (o / 64) else say (latched c.cam.latches (v * 64 + o / 64) (o % 64 / 4))
  else if page = 6 then
    if 0x400 ≤ o then say 0
    else if o % 64 = 0 then c.readPipe v (o / 64) else say (latched c.store.latches (v * 16 + o / 64) (o % 64 / 4))
  else if page = 8 then say (c.eventReg v o)
  else if page = 0x20 then say (leNat ((c.box v).req.readBytes o 4))
  else if page = 0x21 then say (leNat ((c.box v).rsp.readBytes o 4))
  else if mt then say 0
  else if page = 0 then
    if o = 0 then c.readHost v else say (latched c.hosts.hpLatches v (o / 4))
  else if page = 7 then say (c.leaseReg v o)
  else if page = 9 then say (c.windowReg v o)
  else if page = 0xB then say (c.msixReg v o)
  else if page = 0xC then say (c.pendingReg v o)
  else if 0x10 ≤ page && page ≤ 0x14 then
    let r := page == 0x14
    let i := (off - (if r then 0x14000 else 0x10000)) / 64
    let k := o % 64
    let w := c.chan r (v / 128) i
    if k = 0 then c.readRing v r i
    else if w.fn != some v then say 0
    else if k = 4 || k = 8 then say ((chanBlock w v).getD (k / 4) 0)
    else say (latched c.hosts.chLatches (v * 512 + (if r then 256 + i else i)) (k / 4))
  else say 0

/-- A write to a register of the time page (R42). -/
def writeTime (c : Chip) (v o x : Nat) : Chip :=
  let pf := v < 256 && v % 128 == 0
  let p := v / 128
  let g := c.time.staged.getD StageRegs.reset p
  let put := fun (g : StageRegs) => ({ c with time.staged := c.time.staged.put p g } : Chip)
  if o = 0x1C then { c with time.evtCleared := c.time.evtCleared.upd 0 v fun m => m ||| (x % 16 &&& c.time.evt) }
  else if !pf then c
  else if o = 0x20 then put { g with sec := g.sec / 2 ^ 32 * 2 ^ 32 + x }
  else if o = 0x24 then put { g with sec := x % 65536 * 2 ^ 32 + g.sec % 2 ^ 32 }
  else if o = 0x28 then put { g with ofs := g.ofs / 2 ^ 32 * 2 ^ 32 + x }
  else if o = 0x2C then put { g with ofs := x * 2 ^ 32 + g.ofs % 2 ^ 32 }
  else if o = 0x30 then
    let d := put { g with mode := bits x 1 2 }
    if bit x 0 then d.setGo p else d
  else c

/-- A write to a register of the event flag page (R505). -/
def writeEvent (c : Chip) (v o x : Nat) : Chip :=
  let vf := v < 256 && v % 128 != 0
  if o = 0x00 then { c with ev.evfLine := c.ev.evfLine.upd 0 v fun m => clearBits m x }
  else if o = 0x04 then { c with ev.evfLine := c.ev.evfLine.upd 0 v fun m => clearBits m (x % 65536 * 2 ^ 32) }
  else if o = 0x08 then (if vf then c else { c with ev.evfCons := clearBits c.ev.evfCons x })
  else if o = 0x0C then (if vf then c else { c with ev.evfUnit := clearBits c.ev.evfUnit x })
  else if o = 0x10 then
    if !bit x 30 then c
    else if v = mtView then { c with ev.mtOverrun := false }
    else match c.ev.rings.find? v with
      | some g => { c with ev.rings := c.ev.rings.put v { g with overrun := false } }
      | none => c
  else if o = 0x18 then c.ringRelease v x
  else c

/-- A write to a register of a channel's block that the writer owns (R264, R266, R292). -/
def writeChan (c : Chip) (r : Bool) (p i k x : Nat) : Chip :=
  let w := c.chan r p i
  let still := w.state == .idle || w.state == .stopped
  if k = 0x04 then
    if still then
      (c.orphanReads p r i).setChan r p i
        { w with descBase := w.descBase / 2 ^ 32 * 2 ^ 32 + x / 4096 * 4096, descLog2 := x % 32, tail := 0, head := 0,
                 asked := 0, fetched := [], badFetch := [] }
    else c
  else if k = 0x08 then
    if still then
      (c.orphanReads p r i).setChan r p i
        { w with descBase := x * 2 ^ 32 + w.descBase % 2 ^ 32, tail := 0, head := 0, asked := 0, fetched := [],
                 badFetch := [] }
    else c
  else if k = 0x0C then c.descTail r p i x
  else if k = 0x14 then
    if bit x 1 then c.abortChan r p i
    else if bit x 2 then c.haltChan r p i
    else if bit x 0 then (if r then c.armRead p i else c.armWrite p i)
    else c
  else if k = 0x20 then (if r then c else c.dataRel p i x)
  else if k = 0x28 then (if r then c else c.pegRelease p i x)
  else if k = 0x38 then c.setChan r p i { w with flags := clearBits w.flags (x % 16) }
  else c

/-- A write to the MSI-X table (R313): a vector that is unmasked sends what pends. -/
def writeMsix (c : Chip) (f o x be : Nat) : Chip :=
  let n := o / 16
  if c.vectors f ≤ n then c
  else
    let g := c.fn f
    let e := g.msix.getD MsixEntry.reset n
    let m := fun (old : Nat) => mergeBytes old x be
    let e :=
      if o % 16 = 0 then { e with addr := e.addr / 2 ^ 32 * 2 ^ 32 + m (e.addr % 2 ^ 32) / 4 * 4 }
      else if o % 16 = 4 then { e with addr := m (e.addr / 2 ^ 32) * 2 ^ 32 + e.addr % 2 ^ 32 }
      else if o % 16 = 8 then { e with data := m e.data }
      else { e with masked := bit (m (b2n e.masked)) 0 }
    (c.setFn f { g with msix := g.msix.put n e }).flushMsix f

/-- A write of a whole dword to a register that is neither an area nor the MSI-X table (R11, R303). -/
def writeReg (c : Chip) (v off x : Nat) : Chip :=
  let page := off / 0x1000
  let o := off % 0x1000 / 4 * 4
  let mt := v == mtView
  if page = 1 then
    if o = 0x20 then
      let d := if bit x 0 then c.goBell v (x / 65536) else c
      if bit x 1 then (if d.mailboxUp then d.cancelBell v (x / 65536) else d) else d
    else if o = 0x28 then c.setBox v { c.box v with deadline := x / 65536 % 65536, vector := x % 256 }
    else c
  else if page = 2 then c.writeTime v o x
  else if page = 8 then c.writeEvent v o x
  else if mt then c
  else if page = 0 then
    if o = 0x20 then c.setFn v { c.fn v with hpFlags := clearBits (c.fn v).hpFlags (x % 32) } else c
  else if page = 7 then (if o = 0x400 then c.lsEnd v x else c)
  else if 0x10 ≤ page && page ≤ 0x14 then
    let r := page == 0x14
    let i := (off - (if r then 0x14000 else 0x10000)) / 64
    if (c.chan r (v / 128) i).fn = some v then c.dmaTraced fun c => c.writeChan r (v / 128) i (o % 64) x else c
  else c

/-- A page of BAR0 that holds registers (R303, R304). -/
def regPage (page : Nat) : Bool := decide (page ≤ 9) || (decide (0x10 ≤ page) && decide (page ≤ 0x14))

/-- A write of one dword with its byte enables (R304, R339, R341): areas, header and MSI-X table take any bytes; a register
write with a byte enable clear is ignored and counted. -/
def writeDword (c : Chip) (v off x be : Nat) : Chip :=
  let page := off / 0x1000
  let o := off % 0x1000 / 4 * 4
  let be := be % 16
  if page = 0x20 then c.writeRequest v o x be
  else if page = 1 && o < 0x20 then c.writeHeader v o x be
  else if page = 0xB && v != mtView then c.writeMsix v o x be
  else if be != 15 && regPage page && v != mtView then
    let h := c.host (v / 128)
    c.setHost (v / 128) { h with badAccess := sat 16 (h.badAccess + 1) }
  else c.writeReg v off (x % 2 ^ 32)

/-- A read of `n` bytes by a function (R304): as reads of the dwords that it covers, the lower address first; the bytes asked. -/
def readSpan (c : Chip) (v off n : Nat) : Chip :=
  let k := if n = 0 then 0 else (off % 4 + n + 3) / 4
  let r := (List.range k).foldl (fun (a : Chip × List Byte) i =>
    let d := a.1.readDword v (off / 4 * 4 + 4 * i)
    (d, a.2 ++ d.rd)) (c, [])
  { r.1 with rd := (r.2.drop (off % 4)).take n }

/-- A read of an RC field (R11, R13): its value, then 0. -/
def readRc (c : Chip) : RcReg → Chip
  | .mbxCnt m => ({ c with rd := le 4 (c.mbxReg m 0x30) } : Chip).clearCnt m
  | .mtErrPec => { c with rd := le 1 c.mt.errPec, mt.errPec := 0 }
  | .mtErrAccess => { c with rd := le 1 c.mt.errAccess, mt.errAccess := 0 }
  | .mtTimeouts => { c with rd := le 1 c.mt.timeouts, mt.timeouts := 0 }

end Chip

def execRcRegisterRead (reg : RcReg) (s : State) : Out :=
  s.onRead (validView (rcReader reg)) (rcReader reg) fun c => c.readRc reg

def execRegisterWrite (view offset value : Nat) (be : Fin 16) (s : State) : Out :=
  s.onWrite (validView view) view fun c => c.writeDword view offset (value % 2 ^ 32) be.val

end Sys2Proof.Machine
end

