-- ==== Sys2Proof/Machine/Mt.lean ====
section
/-! DEFINITION. The two-wire target MT (R481 to R492): its registers, the window into MT space, both access styles, PEC, and
the alert response. A transaction is read in the style in force, whichever style it was meant for. -/

namespace Sys2Proof.Machine

namespace Chip

/-- MT's own address (R459, R482). -/
def mtAddress (c : Chip) : Nat := 0x4C + c.power.straps.mtAddr

/-- MT acknowledges an address byte (R481, R482). -/
def mtAnswers (c : Chip) (addr : Nat) : Bool := c.mailboxUp && addr == c.mtAddress

/-- Bits of ALERT_SRC that are set, unmasked and unreported (R491): ALERT# is low while there is one. -/
def unreported (c : Chip) : Nat := clearBits (c.mt.src &&& c.mt.mask) c.mt.reported

/-- A fixed register of MT (R484). -/
def mtReg (c : Chip) (o : Nat) : Nat :=
  let t := c.mt
  if o = 0 then 0x72 else if o = 1 then 0x06 else if o = 2 then c.stageNo else if o = 3 then 2 * b2n t.pecReq + b2n t.style
  else if o = 4 then t.src else if o = 5 then t.mask else if o = 6 then t.cur else if o = 8 then t.winBase % 256
  else if o = 9 then t.winBase / 256 else if o = 0x0C then t.errPec else if o = 0x0D then t.errAccess
  else if o = 0x0E then t.timeouts else 0

/-- What a read of a fixed register does besides (R11): the RC counters clear. -/
def mtRegRead (c : Chip) (o : Nat) : Chip :=
  if o = 0x0C then { c with mt.errPec := 0 } else if o = 0x0D then { c with mt.errAccess := 0 }
  else if o = 0x0E then { c with mt.timeouts := 0 } else c

/-- A byte is written to a fixed register (R484, R491). -/
def mtRegWrite (c : Chip) (o v : Nat) : Chip :=
  let t := c.mt
  if o = 3 then { c with mt.style := bit v 0, mt.pecReq := bit v 1 }
  else if o = 4 then { c with mt.src := clearBits t.src v, mt.reported := clearBits t.reported v }
  else if o = 5 then { c with mt.mask := v % 256, mt.reported := clearBits t.reported (clearBits (v % 256) t.mask) }
  else if o = 8 then { c with mt.winBase := t.winBase / 256 * 256 + v % 256 }
  else if o = 9 then { c with mt.winBase := v % 32 * 256 + t.winBase % 256 }
  else c

/-- Bytes that MT drops (R484, R486, R488). -/
def mtDrop (c : Chip) (n : Nat) : Chip := { c with mt.errAccess := sat 8 (c.mt.errAccess + n) }

/-- A place of MT space that takes bytes singly (R486). -/
def singly (a : Nat) : Bool := a / 0x1000 == 0x20 || a / 0x1000 == 0x21 || (decide (0x1000 ≤ a) && decide (a < 0x1020))

/-- The bytes of one dword of MT space are applied (R486): `l` pairs of byte place and value. -/
def mtDword (c : Chip) (a : Nat) (l : List (Nat × Nat)) : Chip :=
  let at_ := fun (i : Nat) => l.find? fun e => e.1 == i
  let be := ([0, 1, 2, 3].map fun i => b2n (at_ i).isSome * 2 ^ i).foldl (· + ·) 0
  let x := ([0, 1, 2, 3].map fun i => ((at_ i).map (·.2)).getD 0 % 256 * 2 ^ (8 * i)).foldl (· + ·) 0
  if be = 0 then c
  else if singly a || be = 15 then c.writeDword mtView a x be
  else c.mtDrop l.length

/-- The buffered bytes of a transaction are applied at its STOP in address order (R486): the fixed registers, then the window
at the base that the transaction found (R485). A source that the window write sets is therefore set after the access, whatever
the same access clears (R13). -/
def mtApply (c : Chip) (l : List (Nat × Nat)) : Chip :=
  let base := 128 * c.mt.winBase
  let c := c.foldC (List.range 16) fun c o => match l.find? fun e => e.1 == o with | some e => c.mtRegWrite o e.2 | none => c
  c.foldC (List.range 32) fun c k =>
    let w := (l.filter fun e => decide (0x80 ≤ e.1) && (e.1 - 0x80) / 4 == k).map fun e => (e.1 % 4, e.2)
    c.mtDword (base + 4 * k) w

/-- Bytes sent one after the other, from offset `p` on, wrapping at 256 (R487); those after the 256th are dropped. -/
def mtPlaces (p : Nat) (data : List Byte) : List (Nat × Nat) :=
  ((data.take 256).zipIdx).map fun e => ((p + e.2) % 256, e.1.toNat)

/-- One byte is read at an offset (R486): byte 0 of a register's dword samples it, the others return the sample `seen` of this
transaction, or 0. -/
def mtReadByte (c : Chip) (seen : List (Nat × Nat)) (o : Nat) : Chip × List (Nat × Nat) × Nat :=
  if o < 0x80 then (c.mtRegRead o, seen, c.mtReg o)
  else
    let a := 128 * c.mt.winBase + (o - 0x80)
    if singly a then (c, seen, u8 (c.readDword mtView (a / 4 * 4)).rd (a % 4))
    else if a % 4 = 0 then
      let d := c.readDword mtView a
      (d, (a, u32 d.rd 0) :: seen, u8 d.rd 0)
    else
      let v := ((seen.find? fun e => e.1 == a / 4 * 4).map (·.2)).getD 0
      (c, seen, bits v (8 * (a % 4)) 8)

/-- `n` bytes are read from offset `p` on (R487). -/
def mtReadFrom (c : Chip) (seen : List (Nat × Nat)) (p : Nat) : Nat → Chip × List Byte
  | 0 => (c, [])
  | n + 1 =>
    let r := c.mtReadByte seen (p % 256)
    let t := mtReadFrom r.1 r.2.1 (p + 1) n
    (t.1, BitVec.ofNat 8 r.2.2 :: t.2)

/-- A command code of R488 that is read, and how many bytes its data have with the count byte. -/
def codeLen (code : Nat) : Option Nat :=
  if code = 0 || code = 8 then some 2
  else if (2 ≤ code && code ≤ 6) || (0x0C ≤ code && code ≤ 0x0E) then some 1
  else if 0x80 ≤ code && code ≤ 0xFF then some (1 + min 128 (0x100 - code))
  else none

/-- A write in the command-code style (R488, R489): its data at the code's offset, one byte beyond them the PEC. -/
def codeWrite (c : Chip) (addr code : Nat) (data : List Byte) : Chip :=
  let discard : Chip := { c with mt.errPec := sat 8 (c.mt.errPec + 1) }
  let finish := fun (skip len : Nat) =>
    let body := data.take (skip + len)
    let good := match data[skip + len]? with
      | some p => some (p.toNat == pec ([BitVec.ofNat 8 (2 * addr), BitVec.ofNat 8 code] ++ body))
      | none => none
    if good = some false || (good.isNone && c.mt.pecReq) then discard
    else c.mtApply (mtPlaces code (body.drop skip))
  if data.isEmpty then c
  else if 3 ≤ code && code ≤ 5 then finish 0 1
  else if code = 8 then finish 0 2
  else if 0x80 ≤ code && code ≤ 0xFF then
    let n := u8 data 0
    if n = 0 || 0x100 - code < n then c else finish 1 n
  else if (codeLen code).isSome then c.mtDrop 1
  else c

/-- A read in the command-code style (R488, R489): at most `want` bytes, the last of them the PEC where all data were
acknowledged. -/
def codeRead (c : Chip) (addr code want : Nat) : Chip :=
  match codeLen code with
  | none => { c with rd := [] }
  | some len =>
    let block := decide (0x80 ≤ code)
    let n := min want len
    let r := if block then c.mtReadFrom [] code (n - 1) else c.mtReadFrom [] code n
    let body := if block && decide (0 < n) then BitVec.ofNat 8 (len - 1) :: r.2 else r.2
    let p := pec ([BitVec.ofNat 8 (2 * addr), BitVec.ofNat 8 code, BitVec.ofNat 8 (2 * addr + 1)] ++ body)
    { r.1 with rd := if len < want then body ++ [BitVec.ofNat 8 p] else body }

/-- A read in the pointer style (R487). -/
def pointerRead (c : Chip) (p want : Nat) : Chip :=
  let r := c.mtReadFrom [] p want
  { r.1 with rd := r.2, mt.pointer := (p + want) % 256 }

/-- A write transaction reaches MT (R482, R487, R488): a first byte, pointer or code, and what follows. -/
def mtWrites (c : Chip) (addr first : Nat) (data : List Byte) : Chip :=
  if !c.mtAnswers addr then c
  else if c.mt.style then
    let c : Chip := { c with mt.pointer := (first + min 256 data.length) % 256 }
    c.mtApply (mtPlaces (first % 256) data)
  else c.codeWrite addr (first % 256) data

/-- A read transaction with its first byte reaches MT. -/
def mtReads (c : Chip) (addr first want : Nat) : Chip :=
  if !c.mtAnswers addr then { c with rd := [] }
  else if c.mt.style then c.pointerRead (first % 256) want
  else c.codeRead addr (first % 256) want

/-- A read with no first byte (R487); the command-code style has none (R488). -/
def mtReadsOn (c : Chip) (addr want : Nat) : Chip :=
  if !c.mtAnswers addr || !c.mt.style then { c with rd := [] } else c.pointerRead c.mt.pointer want

/-- A Block Read (R488): the controller reads on as the count byte says, and one byte for the PEC. -/
def mtBlockReads (c : Chip) (addr code : Nat) (more : Bool) : Chip :=
  c.mtReads addr code (1 + u8 (c.mtReads addr code 1).rd 0 + b2n more)

/-- An alert response (R492): the lowest byte wins the bus; MT, having won, reports its highest-priority unreported source. -/
def alertResponse (c : Chip) (others : List Nat) : Chip :=
  let low := fun (l : List Nat) => match l with | [] => ([] : List Byte) | a :: l => le 1 (l.foldl min a)
  let o := others.map (· % 256)
  let u := c.unreported
  if !c.mailboxUp || u = 0 then { c with rd := low o }
  else
    let mine := 2 * c.mtAddress
    let c : Chip := { c with rd := low (mine :: o) }
    if o.any fun x => decide (x < mine) then c
    else match (List.range 8).find? fun i => bit u i with
      | some i => { c with mt.cur := i, mt.reported := setBit c.mt.reported i }
      | none => c

/-- 100 ms after it was reported a bit that is still set is unreported again (R491). -/
def rereport (c : Chip) (b : Nat) : Chip :=
  if bit c.mt.src b then { c with mt.reported := clearBits c.mt.reported (2 ^ b) } else c

end Chip

def execMtPointerWrite (addr pointer : Nat) (data : List Byte) (s : State) : Out := s.run fun c => c.mtWrites addr pointer data

def execMtSetPointer (addr pointer : Nat) (s : State) : Out := s.run fun c => c.mtWrites addr pointer []

def execMtReadAtPointer (addr pointer count : Nat) (s : State) : Out := s.run fun c => c.mtReads addr pointer count

def execMtReadOn (addr count : Nat) (s : State) : Out := s.run fun c => c.mtReadsOn addr count

def execMtReadWord (addr code : Nat) (pec : Bool) (s : State) : Out := s.run fun c => c.mtReads addr code (2 + b2n pec)

def execMtWriteWord (addr code lo hi : Nat) (pec : Option Nat) (s : State) : Out :=
  s.run fun c => c.mtWrites addr code (le 1 lo ++ le 1 hi ++ (pec.map (le 1)).getD [])

def execMtReadByte (addr code : Nat) (pec : Bool) (s : State) : Out := s.run fun c => c.mtReads addr code (1 + b2n pec)

def execMtWriteByte (addr code value : Nat) (pec : Option Nat) (s : State) : Out :=
  s.run fun c => c.mtWrites addr code (le 1 value ++ (pec.map (le 1)).getD [])

def execMtBlockWrite (addr code count : Nat) (data : List Byte) (pec : Option Nat) (s : State) : Out :=
  s.run fun c => c.mtWrites addr code (le 1 count ++ data ++ (pec.map (le 1)).getD [])

def execMtBlockRead (addr code : Nat) (pec : Bool) (s : State) : Out := s.run fun c => c.mtBlockReads addr code pec

def execMtAlertResponse (others : List Nat) (s : State) : Out := s.run fun c => c.alertResponse others

def execAlertRereport (bit : Fin 8) (s : State) : Out := s.run fun c => c.rereport bit.val

def execMtSclTimeout (s : State) : Out :=
  s.run fun c => if c.mailboxUp then { c with mt.timeouts := sat 8 (c.mt.timeouts + 1) } else c

end Sys2Proof.Machine
end

