-- ==== Sys2Proof/Machine/Dispatch.lean ====
section
/-! DEFINITION. One arm for each command: the direct call of its meaning. -/

namespace Sys2Proof.Machine

def exec (i : Instr) (s : State) : Host.Outcome State Fault Refusal :=
  match i with
  | .systemIdentify mb req => Sys2Proof.Machine.execSystemIdentify mb req s
  | .systemReadMeters mb req => Sys2Proof.Machine.execSystemReadMeters mb req s
  | .systemReadPending mb req => Sys2Proof.Machine.execSystemReadPending mb req s
  | .systemCancelPending mb req => Sys2Proof.Machine.execSystemCancelPending mb req s
  | .systemSetBoard mb req => Sys2Proof.Machine.execSystemSetBoard mb req s
  | .systemSaveConfig mb req => Sys2Proof.Machine.execSystemSaveConfig mb req s
  | .saveConfigComplete ticket ok => Sys2Proof.Machine.execSaveConfigComplete ticket ok s
  | .laneSetRole mb req => Sys2Proof.Machine.execLaneSetRole mb req s
  | .laneSetRate mb req => Sys2Proof.Machine.execLaneSetRate mb req s
  | .laneSetTx mb req => Sys2Proof.Machine.execLaneSetTx mb req s
  | .laneSetAdapt mb req => Sys2Proof.Machine.execLaneSetAdapt mb req s
  | .laneSetPower mb req => Sys2Proof.Machine.execLaneSetPower mb req s
  | .laneSetTest mb req => Sys2Proof.Machine.execLaneSetTest mb req s
  | .laneInject mb req => Sys2Proof.Machine.execLaneInject mb req s
  | .laneReadCoeffs mb req => Sys2Proof.Machine.execLaneReadCoeffs mb req s
  | .laneReadStatus mb req => Sys2Proof.Machine.execLaneReadStatus mb req s
  | .laneClearCounts mb req => Sys2Proof.Machine.execLaneClearCounts mb req s
  | .portConfigure mb req => Sys2Proof.Machine.execPortConfigure mb req s
  | .portEnable mb req => Sys2Proof.Machine.execPortEnable mb req s
  | .portDisable mb req => Sys2Proof.Machine.execPortDisable mb req s
  | .portCamRead mb req => Sys2Proof.Machine.execPortCamRead mb req s
  | .portCamWrite mb req => Sys2Proof.Machine.execPortCamWrite mb req s
  | .portCalibrate mb req => Sys2Proof.Machine.execPortCalibrate mb req s
  | .portReadStatus mb req => Sys2Proof.Machine.execPortReadStatus mb req s
  | .portClearCounts mb req => Sys2Proof.Machine.execPortClearCounts mb req s
  | .pipeAllocTable mb req => Sys2Proof.Machine.execPipeAllocTable mb req s
  | .pipeWriteTable mb req => Sys2Proof.Machine.execPipeWriteTable mb req s
  | .pipeSealTable mb req => Sys2Proof.Machine.execPipeSealTable mb req s
  | .pipeFreeTable mb req => Sys2Proof.Machine.execPipeFreeTable mb req s
  | .pipeQueueParams mb req => Sys2Proof.Machine.execPipeQueueParams mb req s
  | .pipeCancelParams mb req => Sys2Proof.Machine.execPipeCancelParams mb req s
  | .pipeReadParams mb req => Sys2Proof.Machine.execPipeReadParams mb req s
  | .pipeRestore mb req => Sys2Proof.Machine.execPipeRestore mb req s
  | .pipeReadStatus mb req => Sys2Proof.Machine.execPipeReadStatus mb req s
  | .pipeClearCounts mb req => Sys2Proof.Machine.execPipeClearCounts mb req s
  | .streamCreate mb req => Sys2Proof.Machine.execStreamCreate mb req s
  | .streamDestroy mb req => Sys2Proof.Machine.execStreamDestroy mb req s
  | .streamStart mb req => Sys2Proof.Machine.execStreamStart mb req s
  | .streamStop mb req => Sys2Proof.Machine.execStreamStop mb req s
  | .streamSetOutput mb req => Sys2Proof.Machine.execStreamSetOutput mb req s
  | .streamSetLimits mb req => Sys2Proof.Machine.execStreamSetLimits mb req s
  | .streamSetQuotas mb req => Sys2Proof.Machine.execStreamSetQuotas mb req s
  | .streamRinse mb req => Sys2Proof.Machine.execStreamRinse mb req s
  | .streamMove mb req => Sys2Proof.Machine.execStreamMove mb req s
  | .streamReadStatus mb req => Sys2Proof.Machine.execStreamReadStatus mb req s
  | .dmaSetFold mb req => Sys2Proof.Machine.execDmaSetFold mb req s
  | .dmaOpenRead mb req => Sys2Proof.Machine.execDmaOpenRead mb req s
  | .dmaCloseRead mb req => Sys2Proof.Machine.execDmaCloseRead mb req s
  | .dmaReadStatus mb req => Sys2Proof.Machine.execDmaReadStatus mb req s
  | .dmaSetQos mb req => Sys2Proof.Machine.execDmaSetQos mb req s
  | .dmaReadQos mb req => Sys2Proof.Machine.execDmaReadQos mb req s
  | .hostSetFunctions mb req => Sys2Proof.Machine.execHostSetFunctions mb req s
  | .hostSetWindow mb req => Sys2Proof.Machine.execHostSetWindow mb req s
  | .hostClearWindow mb req => Sys2Proof.Machine.execHostClearWindow mb req s
  | .hostFreezePort mb req => Sys2Proof.Machine.execHostFreezePort mb req s
  | .hostReleasePort mb req => Sys2Proof.Machine.execHostReleasePort mb req s
  | .hostReadStatus mb req => Sys2Proof.Machine.execHostReadStatus mb req s
  | .hostClearCounts mb req => Sys2Proof.Machine.execHostClearCounts mb req s
  | .posSetChannel mb req => Sys2Proof.Machine.execPosSetChannel mb req s
  | .posSetSpeed mb req => Sys2Proof.Machine.execPosSetSpeed mb req s
  | .posSetSerial mb req => Sys2Proof.Machine.execPosSetSerial mb req s
  | .posSetDivider mb req => Sys2Proof.Machine.execPosSetDivider mb req s
  | .posPreset mb req => Sys2Proof.Machine.execPosPreset mb req s
  | .posClearFault mb req => Sys2Proof.Machine.execPosClearFault mb req s
  | .posReadStatus mb req => Sys2Proof.Machine.execPosReadStatus mb req s
  | .trigArmOneshot mb req => Sys2Proof.Machine.execTrigArmOneshot mb req s
  | .trigArmPeriodic mb req => Sys2Proof.Machine.execTrigArmPeriodic mb req s
  | .trigArmTable mb req => Sys2Proof.Machine.execTrigArmTable mb req s
  | .trigDisarm mb req => Sys2Proof.Machine.execTrigDisarm mb req s
  | .trigLoadTable mb req => Sys2Proof.Machine.execTrigLoadTable mb req s
  | .trigSetPin mb req => Sys2Proof.Machine.execTrigSetPin mb req s
  | .trigSchedulePulses mb req => Sys2Proof.Machine.execTrigSchedulePulses mb req s
  | .trigArmWindow mb req => Sys2Proof.Machine.execTrigArmWindow mb req s
  | .trigWindowEvent mb req => Sys2Proof.Machine.execTrigWindowEvent mb req s
  | .trigReadStatus mb req => Sys2Proof.Machine.execTrigReadStatus mb req s
  | .seamSetId mb req => Sys2Proof.Machine.execSeamSetId mb req s
  | .seamRediscover mb req => Sys2Proof.Machine.execSeamRediscover mb req s
  | .seamReadTopology mb req => Sys2Proof.Machine.execSeamReadTopology mb req s
  | .seamReadRoute mb req => Sys2Proof.Machine.execSeamReadRoute mb req s
  | .seamReadLink mb req => Sys2Proof.Machine.execSeamReadLink mb req s
  | .seamSnapshotAt mb req => Sys2Proof.Machine.execSeamSnapshotAt mb req s
  | .timeReadStatus mb req => Sys2Proof.Machine.execTimeReadStatus mb req s
  | .timeSetSource mb req => Sys2Proof.Machine.execTimeSetSource mb req s
  | .timeStep mb req => Sys2Proof.Machine.execTimeStep mb req s
  | .timeSetHostControl mb req => Sys2Proof.Machine.execTimeSetHostControl mb req s
  | .safetySetFunction mb req => Sys2Proof.Machine.execSafetySetFunction mb req s
  | .safetyReadStatus mb req => Sys2Proof.Machine.execSafetyReadStatus mb req s
  | .safetyLeaveSafeState mb req => Sys2Proof.Machine.execSafetyLeaveSafeState mb req s
  | .safetyReadFaults mb req => Sys2Proof.Machine.execSafetyReadFaults mb req s
  | .roleGetChallenge mb req => Sys2Proof.Machine.execRoleGetChallenge mb req s
  | .roleOpenSession mb req => Sys2Proof.Machine.execRoleOpenSession mb req s
  | .roleCloseSession mb req => Sys2Proof.Machine.execRoleCloseSession mb req s
  | .roleProgramKey mb req => Sys2Proof.Machine.execRoleProgramKey mb req s
  | .roleRevokeKey mb req => Sys2Proof.Machine.execRoleRevokeKey mb req s
  | .roleLockPart mb req => Sys2Proof.Machine.execRoleLockPart mb req s
  | .roleSetPolicy mb req => Sys2Proof.Machine.execRoleSetPolicy mb req s
  | .roleReadAudit mb req => Sys2Proof.Machine.execRoleReadAudit mb req s
  | .roleReadKeys mb req => Sys2Proof.Machine.execRoleReadKeys mb req s
  | .panelSetMode mb req => Sys2Proof.Machine.execPanelSetMode mb req s
  | .panelSetTile mb req => Sys2Proof.Machine.execPanelSetTile mb req s
  | .panelSetOverlay mb req => Sys2Proof.Machine.execPanelSetOverlay mb req s
  | .panelSetPolicy mb req => Sys2Proof.Machine.execPanelSetPolicy mb req s
  | .panelReadStatus mb req => Sys2Proof.Machine.execPanelReadStatus mb req s
  | .powerSetVfMode mb req => Sys2Proof.Machine.execPowerSetVfMode mb req s
  | .powerReadVfState mb req => Sys2Proof.Machine.execPowerReadVfState mb req s
  | .powerReadThermal mb req => Sys2Proof.Machine.execPowerReadThermal mb req s
  | .powerEnterStandby mb req => Sys2Proof.Machine.execPowerEnterStandby mb req s
  | .fwReadInfo mb req => Sys2Proof.Machine.execFwReadInfo mb req s
  | .fwWriteImage mb req => Sys2Proof.Machine.execFwWriteImage mb req s
  | .fwCommitImage mb req => Sys2Proof.Machine.execFwCommitImage mb req s
  | .fwCommitComplete ticket sigOk flashOk => Sys2Proof.Machine.execFwCommitComplete ticket sigOk flashOk s
  | .fwActivate mb req => Sys2Proof.Machine.execFwActivate mb req s
  | .fwActivateHandover ticket started => Sys2Proof.Machine.execFwActivateHandover ticket started s
  | .obsSetTrace mb req => Sys2Proof.Machine.execObsSetTrace mb req s
  | .obsReadTrace mb req => Sys2Proof.Machine.execObsReadTrace mb req s
  | .obsReadCounters mb req => Sys2Proof.Machine.execObsReadCounters mb req s
  | .obsSnapshotAt mb req => Sys2Proof.Machine.execObsSnapshotAt mb req s
  | .obsReadSnapshot mb req => Sys2Proof.Machine.execObsReadSnapshot mb req s
  | .evtSetRing mb req => Sys2Proof.Machine.execEvtSetRing mb req s
  | .evtSetRoute mb req => Sys2Proof.Machine.execEvtSetRoute mb req s
  | .mbxGo mb seq => Sys2Proof.Machine.execMbxGo mb seq s
  | .mbxCancel mb seq => Sys2Proof.Machine.execMbxCancel mb seq s
  | .mbxTakeCommand => Sys2Proof.Machine.execMbxTakeCommand s
  | .mbxParkedResume => Sys2Proof.Machine.execMbxParkedResume s
  | .mbxDeadlineExpiry mb => Sys2Proof.Machine.execMbxDeadlineExpiry mb s
  | .relayNoAnswer mb => Sys2Proof.Machine.execRelayNoAnswer mb s
  | .sessionIdleExpiry mb => Sys2Proof.Machine.execSessionIdleExpiry mb s
  | .challengeExpiry mb => Sys2Proof.Machine.execChallengeExpiry mb s
  | .challengeLockoutEnd mb => Sys2Proof.Machine.execChallengeLockoutEnd mb s
  | .tbNsRead view => Sys2Proof.Machine.execTbNsRead view s
  | .tbT64LoRead view => Sys2Proof.Machine.execTbT64LoRead view s
  | .tbSetGo port => Sys2Proof.Machine.execTbSetGo port s
  | .stepAtSecondApply => Sys2Proof.Machine.execStepAtSecondApply s
  | .posCntLoRead view chan => Sys2Proof.Machine.execPosCntLoRead view chan s
  | .lnStateRead view lane => Sys2Proof.Machine.execLnStateRead view lane s
  | .cpStateRead view port => Sys2Proof.Machine.execCpStateRead view port s
  | .ppStateRead view pipe => Sys2Proof.Machine.execPpStateRead view pipe s
  | .ringStateRead fn isRead chan => Sys2Proof.Machine.execRingStateRead fn isRead chan s
  | .hpStateRead fn => Sys2Proof.Machine.execHpStateRead fn s
  | .rcRegisterRead reg => Sys2Proof.Machine.execRcRegisterRead reg s
  | .registerWrite view offset value be => Sys2Proof.Machine.execRegisterWrite view offset value be s
  | .lsEndWrite fn value => Sys2Proof.Machine.execLsEndWrite fn value s
  | .bar2LeaseRead fn off len => Sys2Proof.Machine.execBar2LeaseRead fn off len s
  | .bar2Read fn off len => Sys2Proof.Machine.execBar2Read fn off len s
  | .bar2Write fn off data => Sys2Proof.Machine.execBar2Write fn off data s
  | .dbDescTailWrite fn isRead chan value => Sys2Proof.Machine.execDbDescTailWrite fn isRead chan value s
  | .dbCtrlHalt fn isRead chan => Sys2Proof.Machine.execDbCtrlHalt fn isRead chan s
  | .dbCtrlAbort fn isRead chan => Sys2Proof.Machine.execDbCtrlAbort fn isRead chan s
  | .dbCtrlArm fn isRead chan => Sys2Proof.Machine.execDbCtrlArm fn isRead chan s
  | .dbRelWrite fn chan value => Sys2Proof.Machine.execDbRelWrite fn chan value s
  | .dbPegRelWrite fn chan value => Sys2Proof.Machine.execDbPegRelWrite fn chan value s
  | .evrRelWrite view value => Sys2Proof.Machine.execEvrRelWrite view value s
  | .frzCtrlRelease port seq => Sys2Proof.Machine.execFrzCtrlRelease port seq s
  | .configRequest fn field write => Sys2Proof.Machine.execConfigRequest fn field write s
  | .flrInitiate fn => Sys2Proof.Machine.execFlrInitiate fn s
  | .flrComplete fn => Sys2Proof.Machine.execFlrComplete fn s
  | .d3hotEntry fn => Sys2Proof.Machine.execD3hotEntry fn s
  | .d0Return fn => Sys2Proof.Machine.execD0Return fn s
  | .busMasterEnableClear fn => Sys2Proof.Machine.execBusMasterEnableClear fn s
  | .busMasterEnableSet fn => Sys2Proof.Machine.execBusMasterEnableSet fn s
  | .vfEnableChange port enable numVfs => Sys2Proof.Machine.execVfEnableChange port enable numVfs s
  | .mpsChange port code => Sys2Proof.Machine.execMpsChange port code s
  | .perstAssert port => Sys2Proof.Machine.execPerstAssert port s
  | .perstDeassert port => Sys2Proof.Machine.execPerstDeassert port s
  | .dlActiveReached port rate width flit => Sys2Proof.Machine.execDlActiveReached port rate width flit s
  | .dlActiveLost port => Sys2Proof.Machine.execDlActiveLost port s
  | .linkRetrain port rate width => Sys2Proof.Machine.execLinkRetrain port rate width s
  | .poisonedWriteReceived port => Sys2Proof.Machine.execPoisonedWriteReceived port s
  | .portUeDetected port => Sys2Proof.Machine.execPortUeDetected port s
  | .completionReceived port tag status poisoned data => Sys2Proof.Machine.execCompletionReceived port tag status poisoned data s
  | .completionTimeout port tag => Sys2Proof.Machine.execCompletionTimeout port tag s
  | .descriptorExecute port isRead chan => Sys2Proof.Machine.execDescriptorExecute port isRead chan s
  | .readRequestIssue port => Sys2Proof.Machine.execReadRequestIssue port s
  | .writeChannelIssueStart port chan => Sys2Proof.Machine.execWriteChannelIssueStart port chan s
  | .writeBurstIssue port chan => Sys2Proof.Machine.execWriteBurstIssue port chan s
  | .issueArbitration port creditWait recovery => Sys2Proof.Machine.execIssueArbitration port creditWait recovery s
  | .leaseDeadline fn idx => Sys2Proof.Machine.execLeaseDeadline fn idx s
  | .oldEpochDeadline stream => Sys2Proof.Machine.execOldEpochDeadline stream s
  | .pipeInlineLine pipe => Sys2Proof.Machine.execPipeInlineLine pipe s
  | .pipeSliceStart pipe => Sys2Proof.Machine.execPipeSliceStart pipe s
  | .pipeSwatchRun pipe ok => Sys2Proof.Machine.execPipeSwatchRun pipe ok s
  | .pipeStallTimeout pipe => Sys2Proof.Machine.execPipeStallTimeout pipe s
  | .basketReadError bank stream => Sys2Proof.Machine.execBasketReadError bank stream s
  | .fsUncorrectableError stack pc stream => Sys2Proof.Machine.execFsUncorrectableError stack pc stream s
  | .fsInterfaceFail stack pc => Sys2Proof.Machine.execFsInterfaceFail stack pc s
  | .sofReceived port psn body => Sys2Proof.Machine.execSofReceived port psn body s
  | .imgReceived port psn body payload => Sys2Proof.Machine.execImgReceived port psn body payload s
  | .eofReceived port psn body => Sys2Proof.Machine.execEofReceived port psn body s
  | .frameTimeout port frameNo sub index => Sys2Proof.Machine.execFrameTimeout port frameNo sub index s
  | .malformedBlockReceived port psn => Sys2Proof.Machine.execMalformedBlockReceived port psn s
  | .ctrlRspReceived port psn tag status data => Sys2Proof.Machine.execCtrlRspReceived port psn tag status data s
  | .ctrlReqRetry port tag => Sys2Proof.Machine.execCtrlReqRetry port tag s
  | .ctrlReqTimeout port tag => Sys2Proof.Machine.execCtrlReqTimeout port tag s
  | .discoveryRetry port => Sys2Proof.Machine.execDiscoveryRetry port s
  | .fireStatusReceived port psn fireId status => Sys2Proof.Machine.execFireStatusReceived port psn fireId status s
  | .exposureTimeout port fireId => Sys2Proof.Machine.execExposureTimeout port fireId s
  | .darnGoneReceived port psn first count => Sys2Proof.Machine.execDarnGoneReceived port psn first count s
  | .ohLaneReceived lane body => Sys2Proof.Machine.execOhLaneReceived lane body s
  | .darnRetryTimeout port psn => Sys2Proof.Machine.execDarnRetryTimeout port psn s
  | .darnLossTimeout port psn => Sys2Proof.Machine.execDarnLossTimeout port psn s
  | .ohTimeReceived port t1 t2 t3 t4 ack => Sys2Proof.Machine.execOhTimeReceived port t1 t2 t3 t4 ack s
  | .syncExchangeTimeout port => Sys2Proof.Machine.execSyncExchangeTimeout port s
  | .camTimeTimeout port => Sys2Proof.Machine.execCamTimeTimeout port s
  | .parityStripeComplete port bad => Sys2Proof.Machine.execParityStripeComplete port bad s
  | .codewordReceived lane symbols => Sys2Proof.Machine.execCodewordReceived lane symbols s
  | .alignmentBlockReceived lane obs => Sys2Proof.Machine.execAlignmentBlockReceived lane obs s
  | .alignmentPeriodBoundary lane => Sys2Proof.Machine.execAlignmentPeriodBoundary lane s
  | .synthLock quad => Sys2Proof.Machine.execSynthLock quad s
  | .startBudgetAdmit => Sys2Proof.Machine.execStartBudgetAdmit s
  | .laneSignalDetect lane => Sys2Proof.Machine.execLaneSignalDetect lane s
  | .laneAcquireDone lane => Sys2Proof.Machine.execLaneAcquireDone lane s
  | .laneBlindDone lane => Sys2Proof.Machine.execLaneBlindDone lane s
  | .laneTrainDone lane => Sys2Proof.Machine.execLaneTrainDone lane s
  | .laneQualifyDone lane skew => Sys2Proof.Machine.execLaneQualifyDone lane skew s
  | .lanePhaseOverrun lane => Sys2Proof.Machine.execLanePhaseOverrun lane s
  | .eqfWindowClose lane eqf => Sys2Proof.Machine.execEqfWindowClose lane eqf s
  | .laneSignalLoss lane => Sys2Proof.Machine.execLaneSignalLoss lane s
  | .rxL1Timeout lane => Sys2Proof.Machine.execRxL1Timeout lane s
  | .refclkOutOfRange freq => Sys2Proof.Machine.execRefclkOutOfRange freq s
  | .refclkInRange => Sys2Proof.Machine.execRefclkInRange s
  | .checkerSyncGain lane => Sys2Proof.Machine.execCheckerSyncGain lane s
  | .checkerSyncLoss lane => Sys2Proof.Machine.execCheckerSyncLoss lane s
  | .injectEvent lane => Sys2Proof.Machine.execInjectEvent lane s
  | .ppsInEdge phase freq => Sys2Proof.Machine.execPpsInEdge phase freq s
  | .ppsLossTimeout => Sys2Proof.Machine.execPpsLossTimeout s
  | .tenInLossTimeout => Sys2Proof.Machine.execTenInLossTimeout s
  | .seamExchangeLoss => Sys2Proof.Machine.execSeamExchangeLoss s
  | .acquisitionStep => Sys2Proof.Machine.execAcquisitionStep s
  | .ppsOutRise => Sys2Proof.Machine.execPpsOutRise s
  | .positionPublication => Sys2Proof.Machine.execPositionPublication s
  | .timeUnitSend unit => Sys2Proof.Machine.execTimeUnitSend unit s
  | .fireInstant unit => Sys2Proof.Machine.execFireInstant unit s
  | .pinPulseStart pin => Sys2Proof.Machine.execPinPulseStart pin s
  | .pinInputEdge pin rising => Sys2Proof.Machine.execPinInputEdge pin rising s
  | .windowEventAct window => Sys2Proof.Machine.execWindowEventAct window s
  | .windowFrameJudge window stream => Sys2Proof.Machine.execWindowFrameJudge window stream s
  | .quadDecode chan a b => Sys2Proof.Machine.execQuadDecode chan a b s
  | .pulseDirEdge chan b changed => Sys2Proof.Machine.execPulseDirEdge chan b changed s
  | .upDownEdge chan a b => Sys2Proof.Machine.execUpDownEdge chan a b s
  | .hallStateChange chan uvw => Sys2Proof.Machine.execHallStateChange chan uvw s
  | .indexEdge chan abHigh => Sys2Proof.Machine.execIndexEdge chan abHigh s
  | .wireBreakSet chan pair => Sys2Proof.Machine.execWireBreakSet chan pair s
  | .wireBreakClear chan pair => Sys2Proof.Machine.execWireBreakClear chan pair s
  | .serialReading chan reading => Sys2Proof.Machine.execSerialReading chan reading s
  | .dividerOutputStep pair => Sys2Proof.Machine.execDividerOutputStep pair s
  | .meterWindowClose paces => Sys2Proof.Machine.execMeterWindowClose paces s
  | .vfEvaluate margin => Sys2Proof.Machine.execVfEvaluate margin s
  | .readVoutCheck mv => Sys2Proof.Machine.execReadVoutCheck mv s
  | .mcTransaction mc req clear result => Sys2Proof.Machine.execMcTransaction mc req clear result s
  | .modulePoll site flags => Sys2Proof.Machine.execModulePoll site flags s
  | .siteInsertionPoll site ack => Sys2Proof.Machine.execSiteInsertionPoll site ack s
  | .thermalSensorRead readings => Sys2Proof.Machine.execThermalSensorRead readings s
  | .stepdownExit => Sys2Proof.Machine.execStepdownExit s
  | .previewLevelRaise => Sys2Proof.Machine.execPreviewLevelRaise s
  | .throttleTick => Sys2Proof.Machine.execThrottleTick s
  | .thermalTrip => Sys2Proof.Machine.execThermalTrip s
  | .bootThermalWait readings => Sys2Proof.Machine.execBootThermalWait readings s
  | .vaonPowerOn => Sys2Proof.Machine.execVaonPowerOn s
  | .resetAssert => Sys2Proof.Machine.execResetAssert s
  | .resetRelease vsafe mtAddr style ssc bootB imageA imageB readings => Sys2Proof.Machine.execResetRelease vsafe mtAddr style ssc bootB imageA imageB readings s
  | .stageS2Reached => Sys2Proof.Machine.execStageS2Reached s
  | .stageS3Reached => Sys2Proof.Machine.execStageS3Reached s
  | .stageS4Reached => Sys2Proof.Machine.execStageS4Reached s
  | .stackReady stack => Sys2Proof.Machine.execStackReady stack s
  | .startPacerGrant => Sys2Proof.Machine.execStartPacerGrant s
  | .standbyEntry => Sys2Proof.Machine.execStandbyEntry s
  | .pwrEnHoldEnd => Sys2Proof.Machine.execPwrEnHoldEnd s
  | .wakePin => Sys2Proof.Machine.execWakePin s
  | .mtAddressWake => Sys2Proof.Machine.execMtAddressWake s
  | .coreHoldStart => Sys2Proof.Machine.execCoreHoldStart s
  | .coreHoldEnd => Sys2Proof.Machine.execCoreHoldEnd s
  | .brownoutReset => Sys2Proof.Machine.execBrownoutReset s
  | .safetyRegisterCheck chan crcOk timeOk sampleOk => Sys2Proof.Machine.execSafetyRegisterCheck chan crcOk timeOk sampleOk s
  | .heartbeatPeriod aOk bOk => Sys2Proof.Machine.execHeartbeatPeriod aOk bOk s
  | .panelFrameStart => Sys2Proof.Machine.execPanelFrameStart s
  | .panelBandCompare band actual => Sys2Proof.Machine.execPanelBandCompare band actual s
  | .panelBandLate band => Sys2Proof.Machine.execPanelBandLate band s
  | .tileAgeEval => Sys2Proof.Machine.execTileAgeEval s
  | .hpdLoss => Sys2Proof.Machine.execHpdLoss s
  | .hpdReturn => Sys2Proof.Machine.execHpdReturn s
  | .irqHpd => Sys2Proof.Machine.execIrqHpd s
  | .panelLinkTrained rate lanes => Sys2Proof.Machine.execPanelLinkTrained rate lanes s
  | .lockstepMismatch => Sys2Proof.Machine.execLockstepMismatch s
  | .pairSelfTestDone pair ok => Sys2Proof.Machine.execPairSelfTestDone pair ok s
  | .routerTake line => Sys2Proof.Machine.execRouterTake line s
  | .consumerOverrunRecord consumer => Sys2Proof.Machine.execConsumerOverrunRecord consumer s
  | .traceDropReport => Sys2Proof.Machine.execTraceDropReport s
  | .snapshotInstant number => Sys2Proof.Machine.execSnapshotInstant number s
  | .snapshotExpiry number => Sys2Proof.Machine.execSnapshotExpiry number s
  | .mtPointerWrite addr pointer data => Sys2Proof.Machine.execMtPointerWrite addr pointer data s
  | .mtSetPointer addr pointer => Sys2Proof.Machine.execMtSetPointer addr pointer s
  | .mtReadAtPointer addr pointer count => Sys2Proof.Machine.execMtReadAtPointer addr pointer count s
  | .mtReadOn addr count => Sys2Proof.Machine.execMtReadOn addr count s
  | .mtReadWord addr code pec => Sys2Proof.Machine.execMtReadWord addr code pec s
  | .mtWriteWord addr code lo hi pec => Sys2Proof.Machine.execMtWriteWord addr code lo hi pec s
  | .mtReadByte addr code pec => Sys2Proof.Machine.execMtReadByte addr code pec s
  | .mtWriteByte addr code value pec => Sys2Proof.Machine.execMtWriteByte addr code value pec s
  | .mtBlockWrite addr code count data pec => Sys2Proof.Machine.execMtBlockWrite addr code count data pec s
  | .mtBlockRead addr code pec => Sys2Proof.Machine.execMtBlockRead addr code pec s
  | .mtAlertResponse others => Sys2Proof.Machine.execMtAlertResponse others s
  | .alertRereport bit => Sys2Proof.Machine.execAlertRereport bit s
  | .mtSclTimeout => Sys2Proof.Machine.execMtSclTimeout s
  | .seamHelloReceived link serial seamId peerLink width => Sys2Proof.Machine.execSeamHelloReceived link serial seamId peerLink width s
  | .seamFlitReceived link header payload trail bad => Sys2Proof.Machine.execSeamFlitReceived link header payload trail bad s
  | .seamNakReceived link ack => Sys2Proof.Machine.execSeamNakReceived link ack s
  | .seamReplayTimeout link => Sys2Proof.Machine.execSeamReplayTimeout link s
  | .seamLinkSilence link => Sys2Proof.Machine.execSeamLinkSilence link s
  | .seamFlitForward link => Sys2Proof.Machine.execSeamFlitForward link s
  | .seamReorderTimeout source cls => Sys2Proof.Machine.execSeamReorderTimeout source cls s
  | .seamProbeReceived link payload => Sys2Proof.Machine.execSeamProbeReceived link payload s
  | .seamProbePeriodic => Sys2Proof.Machine.execSeamProbePeriodic s
  | .seamSerialTimeout serial => Sys2Proof.Machine.execSeamSerialTimeout serial s
  | .seamConvergence => Sys2Proof.Machine.execSeamConvergence s
  | .seamAssignReceived link payload => Sys2Proof.Machine.execSeamAssignReceived link payload s
  | .seamRoutingTableInstall => Sys2Proof.Machine.execSeamRoutingTableInstall s
  | .seamAdmissionHop source stream dest demand => Sys2Proof.Machine.execSeamAdmissionHop source stream dest demand s
  | .seamTimeExchange link hops tstate t1 t2 t3 t4 => Sys2Proof.Machine.execSeamTimeExchange link hops tstate t1 t2 t3 t4 s
  | .posSampleKeepalive chan => Sys2Proof.Machine.execPosSampleKeepalive chan s
  | .posSampleReceived source payload => Sys2Proof.Machine.execPosSampleReceived source payload s
  | .posSampleStale source chan => Sys2Proof.Machine.execPosSampleStale source chan s
  | .latchRequestReceived source unit instant chan => Sys2Proof.Machine.execLatchRequestReceived source unit instant chan s
  | .latchAnswerReceived source instant unit position => Sys2Proof.Machine.execLatchAnswerReceived source instant unit position s
  | .latchTimeout unit instant => Sys2Proof.Machine.execLatchTimeout unit instant s
  | .mbxReqReceived source payload => Sys2Proof.Machine.execMbxReqReceived source payload s
  | .mbxRspReceived source payload => Sys2Proof.Machine.execMbxRspReceived source payload s
  | .mbxCancelReceived source seq => Sys2Proof.Machine.execMbxCancelReceived source seq s
  | .snapReqReceived origin number instant => Sys2Proof.Machine.execSnapReqReceived origin number instant s
  | .seamSnapshotInstant number => Sys2Proof.Machine.execSeamSnapshotInstant number s
  | .snapDataReceived source number missed values => Sys2Proof.Machine.execSnapDataReceived source number missed values s
  | .snapIncompleteTimeout number => Sys2Proof.Machine.execSnapIncompleteTimeout number s
  | .eventFlitReceived bytes => Sys2Proof.Machine.execEventFlitReceived bytes s
  | .frameDataReceived source stream data => Sys2Proof.Machine.execFrameDataReceived source stream data s
  | .frameEndReceived source stream peg => Sys2Proof.Machine.execFrameEndReceived source stream peg s
  | .supplyOutOfRange core out => Sys2Proof.Machine.execSupplyOutOfRange core out s
  | .standbyPairReady pair => Sys2Proof.Machine.execStandbyPairReady pair s
  | .pinPulseEnd pin => Sys2Proof.Machine.execPinPulseEnd pin s
  | .jtagInstruction instr => Sys2Proof.Machine.execJtagInstruction instr s

end Sys2Proof.Machine
end

