-- ==== Sys2Proof/Machine/Tick.lean ====
section
/-! DEFINITION. The passage of time while no command waits (log 4): what runs on by itself at the rates that the spec gives. -/

namespace Sys2Proof.Machine

/-- How much of a running quantity of `rate` units a nanosecond falls between two instants. -/
def grown (rate t dt : Nat) : Nat := (t + dt) * rate / 65536 - t * rate / 65536

/-- TLPs leave the transmit queue in order while `budget` bytes × 2¹⁶ last (R311, R326): what left, what stays, the rest. -/
def transmitted : List Tlp → Nat → List Tlp × List Tlp × Nat
  | [], _ => ([], [], 0)
  | t :: q, budget =>
    if t.size * 65536 ≤ budget then
      let r := transmitted q (budget - t.size * 65536)
      (t :: r.1, r.2)
    else ([], t :: q, budget)

/-- Line rate by code, Gbit/s (R106). -/
def lineRate (rate : Nat) : Nat := [112, 56, 28, 14].getD rate 0

namespace Chip

/-- The time that passes at this tick is free, but no roll-over with a step due is passed over (R45, R48). -/
def tickTime (c : Chip) : Nat :=
  let dt := Config.elapsed c.time.tick
  if c.time.pendingStep.isSome || c.acquiring.isSome then min dt (c.nextSecond - 1 - c.time.tb) else dt

/-- A port transmits (R311, R326). -/
def transmit (c : Chip) (dt p : Nat) : Chip :=
  let h := c.host p
  if !h.link then c
  else
    let r := transmitted h.tx (h.txDone + dt * 240 * portRate_ h / 230000)
    { c.setHost p { h with tx := r.2.1, txDone := r.2.2 } with hosts.sent := c.hosts.sent ++ r.1 }

/-- A lane's counters of time (R509): ns in UP, and of a checker in sync the bits and, a free part of them, the errors (R134,
log 31). -/
def laneTime (c : Chip) (dt n : Nat) : Chip :=
  let l := c.lane n
  let c := if l.state = .up then c.count (0x100 + 16 * n + 7) (grown 1 c.up dt) else c
  if l.chkSync then
    let b := grown (lineRate (c.quad (n / 4)).rate) c.up dt
    let e := Config.openValue 31 c.time.tick [n] % (b + 1)
    let c := (c.setLane n { l with chkBits := l.chkBits + b, chkErr := l.chkErr + e }).count (0x100 + 16 * n + 5) b
    c.count (0x100 + 16 * n + 6) e
  else c

/-- Owed credit goes back on links that are up (R388, R392). -/
def returnCredit (c : Chip) : Chip :=
  c.foldC c.upLinks fun c l => match c.link? l with
    | some k => c.setLink l { k with owed := k.owed.mapIdx fun i n => if i = 0 then 0 else n % 16 }
    | none => c

/-- Counters of what no command shows (R509): bytes written and read of each stack, words and errors corrected. -/
def unseenCounters : List Nat := (List.range 8).map (0xF80 + ·) ++ [0xF88, 0xF8A]

/-- Those counters grow by free amounts (log 61). -/
def countUnseen (c : Chip) : Chip :=
  c.foldC unseenCounters fun c k => c.count k (Config.openValue 61 c.time.tick [k])

/-- Whether the audit memory takes writes from now on (R346) is free (log 42). -/
def auditTick (c : Chip) : Chip := { c with mbx.auditOk := Config.openValue 42 c.time.tick [] % 2 == 0 }

/-- Time passes (log 4). -/
def tick (c : Chip) : Chip :=
  let dt := c.tickTime
  let c : Chip := { c with time.tick := c.time.tick + 1 }
  if c.power.held then c
  else
    let c := c.foldC (c.lanes.lanes.map (·.1)) fun c n => c.laneTime dt n
    let c := if c.power.step != 0 then c.count 0xF90 (grown 1 c.up dt) else c
    let c := if c.power.fixed then c.count 0xF91 (grown 1 c.up dt) else c
    let c := c.countUnseen.auditTick
    ((((c.transmit dt 0).transmit dt 1).flushTrace.seamFlush.returnCredit).pass dt).settleAll.foldAll

end Chip

end Sys2Proof.Machine
end

