-- ==== Sys2Proof/Machine/Line.lean ====
section
/-! DEFINITION. What a lane puts on its wires and takes from them, as functions of the state: alignment periods (R107 to
R112, R115, R127), patterns and loopbacks (R133, R135), received blocks (R107, R113, R116, R168). -/

namespace Sys2Proof.Machine

namespace Chip

/-- How a lane's transmitter sends (R110, R111). -/
def txMode (c : Chip) (n : Nat) : LineMode :=
  { pam4 := decide ((c.quad (n / 4)).rate < 2), pre := (c.lane n).txPre, inv := (c.lane n).txInv }

/-- How a lane's receiver found the far end to send (R111, R113). -/
def rxMode (c : Chip) (n : Nat) : LineMode :=
  { pam4 := decide ((c.quad (n / 4)).rate < 2), pre := (c.lane n).rxPre, inv := (c.lane n).rxInv }

/-- The transmitter is quiet whatever it would send: its synthesiser has no lock (R130), or a SILENCE is injected (R136). -/
def silenced (c : Chip) (n : Nat) : Bool :=
  !(c.quad (n / 4)).synthLock || (c.lane n).silentUntil.any fun t => decide (c.up < t)

/-- The payload block of a slot that carries nothing: an idle block of KLP (R145), or on a Seam link a LINK block (R387). -/
def idleBlock (c : Chip) (n : Nat) : Nat :=
  match c.linkOf n with
  | some (_, k) => blockOf false (k.linkBlock false)
  | none => blockOf false (framed [])

/-- The 1,280 blocks of the period that a lane sends (R108, R127, R145, R387): with IDLE set every payload slot is idle. -/
def periodBlocksOut (c : Chip) (n : Nat) (payload : List Nat) : List Nat :=
  let slots := if (c.lane n).txIdle then [] else payload.take 1275
  (c.lane n).txHead ++ slots ++ List.replicate (1275 - slots.length) (c.idleBlock n)

/-- The symbols of a lane's alignment period (R107, R110, R136), none while the transmitter is quiet. `ev`: the codeword and
the place in it where an injected event falls. -/
def periodOut (c : Chip) (n : Nat) (payload : List Nat) (ev : Option (Nat × Nat)) : Option (List Nat) :=
  let l := c.lane n
  if !l.txOn || l.state == .test || c.silenced n then none
  else some (sentLevels (c.txMode n) l.inj ev l.txSym (codeBlocks (c.placeOf n).1 (c.periodBlocksOut n payload)))

/-- The first `k` symbols of a lane's pattern generator (R110, R111, R133, R136): no alignment, FEC or scrambling, and none
while the transmitter is quiet. `ev`: where an injected event falls; a BREAK needs a codeword and finds none (log 80). -/
def patternOut (c : Chip) (n k : Nat) (ev : Option Nat) : Option (List Nat) :=
  let l := c.lane n
  let m := c.txMode n
  if l.state != .test || l.pattern == 0 || l.loop == 2 || c.silenced n then none
  else
    let out := m.levels l.txSym (patternBits l.pattern (if m.pam4 then 2 * k else k) l.genReg)
    some (match l.inj, ev with | some j, some i => j.onLevels m.pam4 i out | _, _ => out)

/-- What the balls of a lane under test show (R135, R136): quiet under NEAR and in a SILENCE, the received symbols with what
is injected under FAR. -/
def testBalls (c : Chip) (n k : Nat) (ev : Option Nat) (received : List Nat) : Option (List Nat) :=
  let l := c.lane n
  if l.loop = 1 then none
  else if l.loop = 2 then
    if c.silenced n then none
    else some (match l.inj, ev with | some j, some i => j.onLevels (c.txMode n).pam4 i received | _, _ => received)
  else c.patternOut n k ev

/-- What a receiver sees (R135): under NEAR its own transmitter, else its balls. -/
def rxSymbols (c : Chip) (n k : Nat) (ev : Option Nat) (balls : List Nat) : List Nat :=
  if (c.lane n).state = .test ∧ (c.lane n).loop = 1 then (c.patternOut n k ev).getD [] else balls

/-- The blocks of a received alignment period and the status of each codeword (R107, R123), `p` the symbol received before
it; a lane without lock or signal, or in L1, delivers nothing but BAD. -/
def periodIn (c : Chip) (n p : Nat) (symbols : List Nat) : List (Option Nat) × List CwStatus :=
  let r := receiveBlocks (c.rxMode n) (c.placeOf n).1 p symbols
  if (c.lane n).delivers then
    (r.1.zipIdx.map fun b => if r.2.getD (b.2 / codewordBlocks) .bad = .bad then none else some b.1, r.2)
  else (List.replicate periodBlocks none, List.replicate periodCodewords .bad)

/-- The payload blocks of flits on the lanes of a link (R116, R386, R387): each flit is a FLIT block and its payload blocks,
striped over the active lanes. -/
def linkLanesOut (k : LinkSt) (flits : List (SentFlit × Bool)) : List (List Nat) :=
  let seq := (k.flitsOut flits).flatten
  (List.range k.width).map fun lane => (List.range seq.length).filterMap fun q =>
    match activePlace k.active q with
    | some (i, _) => if i = lane then seq[q]? else none
    | none => none

/-- The payload sequence of a bond's period from its lanes' slots (R116, R147, R168): a slot with one BAD lane is rebuilt
in a parity bond, and block `q` is taken from the place that the striping gives it. -/
def bondIn (c : Chip) (p mask count : Nat) (lanes : List (List (Option Nat))) : List (Option Nat) :=
  let t := c.port p
  let rows := (List.range periodBlocks).map fun i => lanes.map fun l => l.getD i none
  let rows := if t.protection = 1 then rows.map repairedSlot else rows
  (List.range count).map fun q =>
    match activePlace mask q with
    | some (lane, k) => ((rows.getD (k + 5) []).getD lane none)
    | none => none

end Chip

end Sys2Proof.Machine
end

