-- ==== Sys2Proof/Machine/Pins.lean ====
section
/-! DEFINITION. What the pins show, as a function of the state (R50, R64, R71, R97, R441, R444, R456, R480, R520, R526). -/

namespace Sys2Proof.Machine

/-- What a pin shows: high impedance, an input, or a released open drain; or a level that the device drives. -/
inductive PinDrive
  | highZ
  | level (high : Bool)
deriving DecidableEq, Repr

/-- The level of phase A, or of phase B, of a divider pair after `n` output counts (R97): A leads B for forward, from AB = 00. -/
def phaseLevel (b : Bool) (n : Int) : Bool :=
  let k := (n % 4).toNat
  if b then decide (2 ≤ k) else decide (k = 1 ∨ k = 2)

namespace Chip

/-- VDDIO_33 is on: the board has groups 1 to 4 up while PWR_EN is high (R456, R470, R526; log 78). -/
def ioOn (c : Chip) : Bool := c.power.pwrEn

/-- A DO output (R71, R86, R97, R520, R526): at high impedance while VDDIO_33 is off or RESET# is low, in mode OFF, and while
it is unused; the serial clock, idle high between frames, also of a channel that a divider's pair has lost to it since
(log 82); or a phase of its divider pair. -/
def doPin (c : Chip) (ch : Nat) : PinDrive :=
  let e := c.enc ch
  let v := c.divider (ch / 2)
  if !c.ioOn || c.power.held || e.mode = .off then .highZ
  else if serial e.mode then .level true
  else if v.source.isSome then .level (phaseLevel (ch % 2 == 1) v.emitted)
  else .highZ

/-- SAFE_A and SAFE_B (R440, R441, R444, R526). -/
def safePins (c : Chip) : PinDrive × PinDrive :=
  if c.ioOn then (.level c.safety.pinA, .level c.safety.pinB) else (.highZ, .highZ)

/-- PPS_OUT (R50, R526): low until stage S2. -/
def ppsPin (c : Chip) : PinDrive :=
  if !c.ioOn then .highZ
  else if c.power.held || decide (c.stageNo < 2) then .level false
  else .level (match c.time.ppsUntil with | some t => decide (c.time.tb < t) | none => false)

/-- A timing pin (R61, R64, R526): an input, or an output that is high while a pulse lasts. -/
def timingPin (c : Chip) (p : Nat) : PinDrive :=
  let v := c.pin p
  if !c.ioOn || c.power.held || !v.output then .highZ else .level (!v.falls.isEmpty)

/-- VCORE_SAFE#, an open drain (R33, R35, R526). -/
def vcoreSafePin (c : Chip) : PinDrive := if c.ioOn && c.power.vcoreSafe then .level false else .highZ

/-- THERMTRIP#, an open drain in the VAON domain (R480, R526). -/
def tripPin (c : Chip) : PinDrive := if c.power.trip then .level false else .highZ

/-- PWR_EN (R456, R526). -/
def powerPin (c : Chip) : PinDrive := .level c.power.pwrEn

end Chip

end Sys2Proof.Machine
end

