-- ==== Sys2Proof/Safety.lean ====
section
/-! DEFINITION. The terms that statements use: when a command of the command set can be carried out, what its mailbox shows
once it has ended, the invariants of the whole state, and the parts of the state that a row can change. -/

namespace Sys2Proof.Machine

/-- A command of the command set can be carried out here (R343 to R345, R351 to R356, R461): its mailbox is one of this
device's functions or MT and stands IDLE or DONE, the mailboxes work and the doorbell reaches them, TARGET names this
device, DRY_RUN is 0, a management pair is active, the audit memory takes writes, the request has the command's size, the
stage offers its object, no earlier doorbell waits, and the mailbox has the right to issue it. Nothing is said of the command's own arguments. -/
structure Issues (m : Cmd) (mb : Nat) (req : List Byte) (c : Chip) : Prop where
  view : validView mb = true
  up : c.mailboxUp = true
  normal : c.power.recovery = false
  awake : c.power.standby = false
  reach : c.reaches mb = true
  free : (c.box mb).state = .idle ∨ (c.box mb).state = .done
  here : (c.box mb).target = 0x3FF ∨ some (c.box mb).target = c.seam.id
  wet : bit (c.box mb).reqFlags 1 = false
  pair : c.pairActive = true
  audit : c.mbx.auditOk = true
  len : req.length ≤ 4096
  size : m.size req = true
  stage : m.stage ≤ c.stageNo
  turn : c.bellWaits = false
  right : c.mayIssue m (c.ctxOf mb) req = true

/-- The chip as a doorbell of mailbox `mb` finds it that is taken now (R343, R357). -/
def Chip.rung (c : Chip) (mb : Nat) : Chip := c.setBox mb { c.box mb with order := c.up }

/-- The mailbox shows the end of its command: DONE with a status, LENGTH, and the response written over what its response
area `area` held (R340, R341, R348). -/
def Ended (mb status : Nat) (area : Mem) (rsp : List Byte) (c : Chip) : Prop :=
  (c.box mb).state = .done ∧ (c.box mb).status = status ∧ (c.box mb).length = rsp.length ∧
    (c.box mb).rsp = area.writeBytes 0 rsp

/-- The same session, but that its last command may now have come at instant `u` (R356). -/
def SameSession (u : Nat) (a b : Option Session) : Prop := a = b ∨ ∃ z, a = some z ∧ b = some { z with used := u }

/-- What the taking and the ending of a command at instant `u` write in its mailbox's registers and areas; its other
fields stand. -/
def SameBox (u : Nat) (b t : Mailbox) : Prop :=
  t = { b with
    opcode := t.opcode, length := t.length, rspFlags := t.rspFlags, status := t.status, req := t.req, rsp := t.rsp,
    state := t.state, stateSeq := t.stateSeq, order := t.order, doorbell := t.doorbell, deadlineAt := t.deadlineAt,
    cancelDue := t.cancelDue, commitAt := t.commitAt, sess := t.sess, parked := t.parked } ∧ SameSession u b.sess t.sess

/-- The chip `t` is the chip `c` but for what the taking and the ending of any command write: its mailbox `mb`, the
audit log, the trace's queue and numbers, the counters, the count of mirrored changes, an MSI-X message or
pending bit, an MT alert, an answer over the fabric, and the list of stored configuration commands (R343 to R359, R448,
R464, R506, R509). -/
def OnlyNotes (mb : Nat) (c t : Chip) : Prop :=
  t = { c with
    mbx.boxes := t.mbx.boxes, mbx.audit := t.mbx.audit,
    mbx.auditNext := t.mbx.auditNext, mbx.auditHash := t.mbx.auditHash, ev.trace.queue := t.ev.trace.queue,
    ev.trace.tseq := t.ev.trace.tseq, ev.trace.dropped := t.ev.trace.dropped, ev.trace.dropNew := t.ev.trace.dropNew,
    ev.counters := t.ev.counters, mgmt.mirrored := t.mgmt.mirrored, hosts.fns := t.hosts.fns,
    hosts.ports := t.hosts.ports, mt.src := t.mt.src, mt.reported := t.mt.reported, seam.esnTx := t.seam.esnTx,
    seam.queue := t.seam.queue, board.cfg := t.board.cfg } ∧
  SameBox c.up (c.box mb) (t.box mb) ∧ (∀ k, k ≠ mb → t.box k = c.box k) ∧
  (∀ p, t.host p = { c.host p with qU := (t.host p).qU, uWait := (t.host p).uWait, discarded := (t.host p).discarded }) ∧
  (∀ f, t.fn f = { c.fn f with msix := (t.fn f).msix })

/-- Command `m` in mailbox `mb`, given as row `i`, ends with status `st` and response `rsp`, and what it leaves is
`c` and `mem` but for the notes of every command. -/
def Ends (m : Cmd) (i : Nat → List Byte → Instr) (mb : Nat) (req : List Byte) (s : State) (st : Nat) (rsp : List Byte)
    (c : Chip) (mem : Mem) : Prop :=
  Issues m mb req s.chip →
    ∃ t, exec (i mb req) s = .next t ∧ Ended mb st (s.chip.box mb).rsp rsp t.chip ∧ OnlyNotes mb c t.chip ∧
      t.mem = mem ∧ t.pending = s.pending

/-- The command of mailbox `mb` waits for its outside party (R344). -/
def Waits (mb : Nat) (k : ParkKind) (c : Chip) : Prop :=
  (c.box mb).state = .running ∧ (c.box mb).parked = some { on := k, answer := none, cancelSent := false }

/-- Channel `ch` counted `d` and its compare position followed (R89, R92); every other channel stands. -/
def Counted (ch : Nat) (d : Int) (c t : Chip) : Prop :=
  (t.enc ch).raw = wrap48 ((c.enc ch).raw + d) ∧
    ((t.enc ch).xc, (t.enc ch).reverse) =
      (if 0 < posDiff (t.enc ch).raw (c.enc ch).xc then ((t.enc ch).raw, false)
       else if posDiff (t.enc ch).raw (c.enc ch).xc < -1 then (wrap48 ((t.enc ch).raw + 1), true)
       else ((c.enc ch).xc, (c.enc ch).reverse)) ∧
    ∀ k, k ≠ ch → t.enc k = c.enc k

/-- Channel `ch` takes a decoder error and holds its position (R76, R80, R84): `flag` is its sticky bit, FAULT begins past
QERR_LIMIT. -/
def Errored (ch flag : Nat) (c t : Chip) : Prop :=
  (t.enc ch).raw = (c.enc ch).raw ∧ (t.enc ch).xc = (c.enc ch).xc ∧
    (t.enc ch).qerrCount = min ((c.enc ch).qerrCount + 1) 65535 ∧
    (t.enc ch).sticky = setBit (c.enc ch).sticky flag ∧
    ((t.enc ch).fault = true ↔ (c.enc ch).fault = true ∨
      (c.enc ch).qerrLimit ≠ 255 ∧ (c.enc ch).qerrLimit < min ((c.enc ch).qerrCount + 1) 65535) ∧
    ∀ k, k ≠ ch → t.enc k = c.enc k

/-- Every byte store of the state stands in its one canonical form: the addressed memory, and the request and response
areas of every mailbox. -/
def State.Canonical (s : State) : Prop :=
  Mem.wf s.mem = true ∧ ∀ mb, Mem.wf (s.chip.box mb).req = true ∧ Mem.wf (s.chip.box mb).rsp = true

/-- In the safe state SAFE_A is low, SAFE_B high and there is no heartbeat; a device held in reset is in it (R437, R441). -/
def Chip.PinsSafe (c : Chip) : Prop :=
  (c.safety.safe = true →
    c.safety.beat = false ∧ c.safety.resume = false ∧ c.safety.pinA = false ∧ c.safety.pinB = true) ∧
  (c.power.held = true → c.safety.safe = true)

/-- The rows that act while the device is held in reset: the VAON domain and its pins, PERSTn# and JTAG (R297, R456, R457, R469,
R470, R512). -/
def actsWhileHeld : Instr → Bool
  | .vaonPowerOn | .resetAssert | .resetRelease .. | .pwrEnHoldEnd | .wakePin | .mtAddressWake | .jtagInstruction .. => true
  | .perstAssert .. | .perstDeassert .. => true
  | _ => false

/-- The resilient configuration (glossary of 00_scope.md, R14): both host ports in service, each loaded to at most half its capacity
by protected streams; every configured camera port with a parity bond or darning; every Seam destination with a disjoint
alternate; frame-store bandwidth at most 75 % of 4.2 TB/s. -/
def Chip.Resilient (c : Chip) : Prop :=
  (∀ p, p < 2 → (c.host p).state = .service ∧
    2 * Chip.sumOf ((c.store.streams.filter (·.2.prot)).flatMap (·.2.resv)) 4 p ≤ c.capacity 4 p) ∧
  (∀ p, (c.port p).configured = true → (c.port p).protection ≠ 0) ∧
  (∀ e ∈ c.seam.routes, e.2.valid = true → e.2.alt ≠ 0xFF) ∧ c.admitted 2 0 ≤ 3150000 * scale

/-- The redundancy groups of R446, to which the faults of R14 belong. -/
inductive FaultGroup | bond (port : Nat) | fabric | hostPorts | frameStore | pairs | pipes | basket
deriving DecidableEq, Repr

/-- The fault of R14 that a row brings, by its group. -/
def faultGroup (c : Chip) : Instr → Option FaultGroup
  | .laneSignalLoss l => ((c.portOf l.val).map FaultGroup.bond).or ((c.linkOf l.val).map fun _ => .fabric)
  | .seamLinkSilence _ => some .fabric
  | .dlActiveLost _ | .portUeDetected _ | .completionTimeout .. => some .hostPorts
  | .fsUncorrectableError .. | .fsInterfaceFail .. => some .frameStore
  | .lockstepMismatch => some .pairs
  | .pipeSwatchRun .. | .pipeStallTimeout _ => some .pipes
  | .basketReadError .. => some .basket
  | _ => none

/-- From `c` to `d` a visible interruption has come about (glossary of 00_scope.md, R14, R15): a frame LOST, which a missing one is
too, a class U record past its bound, a tile gone STALE. -/
def Chip.Interrupted (c d : Chip) : Prop :=
  (∃ k, ((c.stream? k).map (·.cLost)).getD 0 < ((d.stream? k).map (·.cLost)).getD 0) ∨
  (∃ p k, (c.host p).overdue.getD k 0 < (d.host p).overdue.getD k 0) ∨
  ∃ n, let stale := fun (x : Chip) => (x.tile n).staleAge || (x.tile n).staleCrc || (x.tile n).staleTiming
    stale c = false ∧ stale d = true

/-- The parts of the state: those of the chip, and the addressed memory. -/
inductive Part
  | time | ev | mbx | lanes | cam | store | hosts | pos | trig | seam | panel | safety | mgmt | power | mt | board | rd | draw
  | mem
deriving DecidableEq, Repr

/-- A part stands as it was. -/
def Part.same (s t : State) : Part → Prop
  | .time => t.chip.time = s.chip.time
  | .ev => t.chip.ev = s.chip.ev
  | .mbx => t.chip.mbx = s.chip.mbx
  | .lanes => t.chip.lanes = s.chip.lanes
  | .cam => t.chip.cam = s.chip.cam
  | .store => t.chip.store = s.chip.store
  | .hosts => t.chip.hosts = s.chip.hosts
  | .pos => t.chip.pos = s.chip.pos
  | .trig => t.chip.trig = s.chip.trig
  | .seam => t.chip.seam = s.chip.seam
  | .panel => t.chip.panel = s.chip.panel
  | .safety => t.chip.safety = s.chip.safety
  | .mgmt => t.chip.mgmt = s.chip.mgmt
  | .power => t.chip.power = s.chip.power
  | .mt => t.chip.mt = s.chip.mt
  | .board => t.chip.board = s.chip.board
  | .rd => t.chip.rd = s.chip.rd
  | .draw => t.chip.draw = s.chip.draw
  | .mem => t.mem = s.mem

def Part.all : List Part :=
  [.time, .ev, .mbx, .lanes, .cam, .store, .hosts, .pos, .trig, .seam, .panel, .safety, .mgmt, .power, .mt, .board, .rd, .draw,
   .mem]

/-- Every part but those of `l`. -/
def Part.but (l : List Part) : List Part := Part.all.filter fun p => !l.contains p

/-- The parts of the state that a command of the command set can change (R343 to R383 and the rules of its family); a row of
another kind is not limited here. -/
def commandWrites : Instr → List Part
  | .systemIdentify .. | .systemReadMeters .. | .systemReadPending .. | .systemSetBoard ..
  | .systemSaveConfig .. | .laneReadStatus .. | .portReadStatus .. | .pipeReadParams .. | .pipeReadStatus ..
  | .streamReadStatus .. | .dmaOpenRead .. | .dmaCloseRead .. | .dmaReadStatus .. | .dmaSetQos ..
  | .dmaReadQos .. | .hostSetFunctions .. | .hostClearWindow .. | .hostReadStatus .. | .hostClearCounts ..
  | .posReadStatus .. | .trigReadStatus .. | .seamSetId .. | .seamRediscover .. | .seamReadTopology ..
  | .seamReadRoute .. | .seamReadLink .. | .seamSnapshotAt .. | .timeReadStatus .. | .safetyReadStatus ..
  | .safetyReadFaults .. | .roleCloseSession .. | .roleRevokeKey .. | .roleLockPart .. | .roleSetPolicy ..
  | .roleReadAudit .. | .roleReadKeys .. | .panelReadStatus .. | .powerReadVfState .. | .powerReadThermal ..
  | .fwReadInfo .. | .fwCommitImage .. | .fwActivate .. | .obsSetTrace .. | .obsReadTrace ..
  | .obsReadCounters .. | .obsSnapshotAt .. | .obsReadSnapshot .. | .evtSetRoute .. =>
    [.ev, .mbx, .hosts, .seam, .mgmt, .mt, .board]
  | .portConfigure .. | .portEnable .. | .portCamRead .. | .portCamWrite .. | .portCalibrate ..
  | .portClearCounts .. | .pipeQueueParams .. | .pipeCancelParams .. =>
    [.ev, .mbx, .cam, .hosts, .seam, .mgmt, .mt, .board]
  | .posSetChannel .. | .posSetSpeed .. | .posSetSerial .. | .posSetDivider .. | .posPreset .. =>
    [.ev, .mbx, .hosts, .pos, .seam, .mgmt, .mt, .board]
  | .laneReadCoeffs .. | .roleGetChallenge .. | .roleOpenSession .. | .roleProgramKey .. =>
    [.ev, .mbx, .hosts, .seam, .mgmt, .mt, .board, .draw]
  | .pipeWriteTable .. | .hostSetWindow .. | .fwWriteImage .. => [.ev, .mbx, .hosts, .seam, .mgmt, .mt, .board, .mem]
  | .powerSetVfMode .. | .powerEnterStandby .. | .evtSetRing .. =>
    [.ev, .mbx, .hosts, .seam, .mgmt, .power, .mt, .board]
  | .panelSetTile .. | .panelSetOverlay .. | .panelSetPolicy .. =>
    [.ev, .mbx, .hosts, .seam, .panel, .mgmt, .mt, .board]
  | .safetySetFunction .. => [.ev, .mbx, .hosts, .seam, .safety, .mgmt, .mt, .board]
  | .trigArmOneshot .. | .trigArmPeriodic .. | .trigArmTable .. | .trigLoadTable .. | .trigSetPin ..
  | .trigSchedulePulses .. | .trigArmWindow .. | .trigWindowEvent .. =>
    [.ev, .mbx, .hosts, .trig, .seam, .mgmt, .mt, .board]
  | .laneSetTx .. | .laneInject .. | .laneClearCounts .. => [.ev, .mbx, .lanes, .hosts, .seam, .mgmt, .mt, .board]
  | .pipeAllocTable .. | .pipeSealTable .. | .pipeClearCounts .. | .streamDestroy .. | .streamStart ..
  | .streamStop .. | .streamSetLimits .. | .streamSetQuotas .. | .streamRinse .. | .hostFreezePort ..
  | .hostReleasePort .. => [.ev, .mbx, .store, .hosts, .seam, .mgmt, .mt, .board]
  | .timeSetSource .. | .timeSetHostControl .. => [.time, .ev, .mbx, .hosts, .seam, .mgmt, .mt, .board]
  | .posClearFault .. => [.ev, .mbx, .hosts, .pos, .seam, .safety, .mgmt, .mt, .board]
  | .panelSetMode .. => [.ev, .mbx, .hosts, .seam, .panel, .safety, .mgmt, .mt, .board]
  | .streamCreate .. | .streamSetOutput .. | .streamMove .. | .dmaSetFold .. =>
    [.ev, .mbx, .store, .hosts, .seam, .mgmt, .mt, .board, .draw]
  | .pipeFreeTable .. => [.ev, .mbx, .store, .hosts, .seam, .mgmt, .mt, .board, .mem]
  | .systemCancelPending .. => [.time, .ev, .mbx, .hosts, .seam, .mgmt, .mt, .board, .draw]
  | .timeStep .. => [.time, .ev, .mbx, .hosts, .seam, .safety, .mgmt, .mt, .board]
  | .pipeRestore .. => [.ev, .mbx, .store, .hosts, .seam, .mgmt, .power, .mt, .board, .draw]
  | .trigDisarm .. | .safetyLeaveSafeState .. => Part.but [.time, .lanes, .pos, .panel, .power, .rd, .mem]
  | .portDisable .. => Part.but [.time, .lanes, .pos, .rd, .mem]
  | .laneSetRole .. | .laneSetRate .. | .laneSetAdapt .. | .laneSetPower .. | .laneSetTest .. =>
    Part.but [.time, .pos, .rd, .mem]
  | _ => Part.all

/-- The parts of the state that an access by a host or the management controller can change; a row of another kind is not
limited here. -/
def accessWrites : Instr → List Part
  | .evrRelWrite .. => [.ev]
  | .lsEndWrite .. => [.ev, .store]
  | .mtAlertResponse .. => [.mt, .rd]
  | .jtagInstruction .. => [.board, .rd, .draw]
  | .bar2Write .. => [.ev, .hosts, .power, .mem]
  | .ringStateRead .. | .hpStateRead .. => [.ev, .hosts, .power, .rd]
  | .cpStateRead .. => [.ev, .cam, .hosts, .power, .rd]
  | .posCntLoRead .. => [.ev, .hosts, .pos, .power, .rd]
  | .lnStateRead .. => [.ev, .lanes, .hosts, .power, .rd]
  | .ppStateRead .. | .bar2LeaseRead .. | .bar2Read .. => [.ev, .store, .hosts, .power, .rd]
  | .tbNsRead .. | .tbT64LoRead .. => [.time, .ev, .hosts, .power, .rd]
  | .rcRegisterRead .. => [.ev, .mbx, .hosts, .power, .mt, .rd]
  | .tbSetGo .. => [.time, .ev, .mbx, .seam, .safety, .mt]
  | .registerWrite .. | .mtPointerWrite .. | .mtSetPointer .. | .mtWriteWord .. | .mtWriteByte ..
  | .mtBlockWrite .. => [.time, .ev, .mbx, .cam, .store, .hosts, .seam, .safety, .mt]
  | .mtReadAtPointer .. | .mtReadOn .. | .mtReadWord .. | .mtReadByte .. | .mtBlockRead .. =>
    [.time, .mbx, .lanes, .cam, .store, .hosts, .pos, .mt, .rd]
  | .configRequest .. => Part.but [.trig, .panel, .safety, .board, .draw, .mem]
  | _ => Part.all

/-- The parts of the state that an event can change; a row of another kind is not limited here. -/
def eventWrites : Instr → List Part
  | .ctrlReqRetry .. | .discoveryRetry .. | .darnRetryTimeout .. => [.cam]
  | .camTimeTimeout .. | .consumerOverrunRecord .. | .traceDropReport .. | .snapshotExpiry ..
  | .snapIncompleteTimeout .. => [.ev]
  | .perstDeassert .. => [.hosts]
  | .rxL1Timeout .. | .checkerSyncGain .. | .injectEvent .. => [.lanes]
  | .sessionIdleExpiry .. | .challengeExpiry .. | .challengeLockoutEnd .. => [.mbx]
  | .standbyPairReady .. => [.mgmt]
  | .alertRereport .. | .mtSclTimeout .. => [.mt]
  | .panelLinkTrained .. => [.panel]
  | .wireBreakClear .. => [.pos]
  | .previewLevelRaise .. | .throttleTick .. | .bootThermalWait .. | .stackReady .. | .pwrEnHoldEnd ..
  | .wakePin .. | .mtAddressWake .. | .coreHoldStart .. | .coreHoldEnd .. => [.power]
  | .seamProbeReceived .. | .seamProbePeriodic .. | .seamSerialTimeout .. | .posSampleKeepalive ..
  | .posSampleReceived .. | .posSampleStale .. | .latchRequestReceived .. => [.seam]
  | .ppsOutRise .. => [.time]
  | .pinPulseStart .. => [.trig]
  | .parityStripeComplete .. => [.ev, .cam]
  | .dbDescTailWrite .. | .dbCtrlHalt .. | .dbRelWrite .. | .dbPegRelWrite .. | .descriptorExecute ..
  | .writeChannelIssueStart .. => [.ev, .hosts]
  | .modulePoll .. | .siteInsertionPoll .. => [.ev, .mt]
  | .dividerOutputStep .. => [.ev, .pos]
  | .vfEvaluate .. | .readVoutCheck .. | .stepdownExit .. | .startPacerGrant .. => [.ev, .power]
  | .supplyOutOfRange .. => [.ev, .safety]
  | .seamReorderTimeout .. | .seamAssignReceived .. | .seamAdmissionHop .. | .snapReqReceived ..
  | .snapDataReceived .. => [.ev, .seam]
  | .leaseDeadline .. | .oldEpochDeadline .. => [.ev, .store]
  | .windowEventAct .. => [.ev, .trig]
  | .thermalTrip .. | .resetAssert .. | .brownoutReset .. => [.safety, .power]
  | .ppsInEdge .. | .ppsLossTimeout .. | .tenInLossTimeout .. => [.time, .ev]
  | .pinPulseEnd .. => [.time, .trig]
  | .exposureTimeout .. => [.ev, .cam, .store]
  | .readRequestIssue .. => [.ev, .hosts, .power]
  | .checkerSyncLoss .. => [.ev, .lanes, .draw]
  | .pairSelfTestDone .. => [.ev, .mgmt, .board]
  | .panelFrameStart .. | .panelBandCompare .. | .panelBandLate .. | .tileAgeEval .. | .hpdLoss ..
  | .hpdReturn .. | .irqHpd .. => [.ev, .panel, .safety]
  | .indexEdge .. => [.ev, .pos, .seam]
  | .heartbeatPeriod .. => [.ev, .safety, .mgmt]
  | .thermalSensorRead .. => [.ev, .safety, .power]
  | .seamHelloReceived .. => [.ev, .seam, .mgmt]
  | .dbCtrlAbort .. | .dbCtrlArm .. | .mpsChange .. | .linkRetrain .. => [.ev, .store, .hosts]
  | .pipeStallTimeout .. | .basketReadError .. | .fsUncorrectableError .. | .fsInterfaceFail .. =>
    [.ev, .store, .mgmt]
  | .seamRoutingTableInstall .. => [.ev, .store, .seam]
  | .frameDataReceived .. => [.store, .seam, .power]
  | .seamExchangeLoss .. | .seamConvergence .. | .seamTimeExchange .. => [.time, .ev, .seam]
  | .latchAnswerReceived .. | .latchTimeout .. => [.ev, .cam, .store, .seam]
  | .meterWindowClose .. => [.ev, .hosts, .power, .draw]
  | .syncExchangeTimeout .. => [.ev, .mbx, .cam, .store]
  | .snapshotInstant .. | .seamSnapshotInstant .. => [.ev, .mbx, .seam, .mt]
  | .wireBreakSet .. => [.ev, .pos, .safety, .mgmt]
  | .upDownEdge .. => [.ev, .pos, .trig, .seam]
  | .busMasterEnableClear .. | .busMasterEnableSet .. | .dlActiveReached .. | .dlActiveLost .. =>
    [.ev, .store, .hosts, .mgmt]
  | .writeBurstIssue .. => [.ev, .store, .hosts, .power]
  | .pipeInlineLine .. | .pipeSliceStart .. => [.ev, .store, .panel, .power]
  | .frameEndReceived .. => [.ev, .store, .seam, .power]
  | .frameTimeout .. | .darnLossTimeout .. => [.ev, .cam, .store, .panel, .power]
  | .routerTake .. | .eventFlitReceived .. => [.ev, .hosts, .trig, .seam, .mt]
  | .mbxGo .. | .relayNoAnswer .. | .mbxReqReceived .. | .mbxRspReceived .. => [.ev, .mbx, .hosts, .seam, .mt]
  | .mcTransaction .. => [.ev, .mbx, .power, .mt, .draw]
  | .saveConfigComplete .. | .fwCommitComplete .. => [.ev, .mbx, .seam, .mt, .board]
  | .poisonedWriteReceived .. | .portUeDetected .. | .completionTimeout .. => [.ev, .store, .hosts, .mgmt, .draw]
  | .windowFrameJudge .. => [.ev, .store, .hosts, .panel, .power]
  | .issueArbitration .. => [.ev, .store, .hosts, .safety, .power]
  | .seamFlitForward .. => [.ev, .store, .hosts, .seam, .power]
  | .pipeSwatchRun .. => [.ev, .store, .safety, .mgmt, .power]
  | .fireInstant .. => [.ev, .cam, .store, .trig, .seam, .safety]
  | .mbxCancel .. | .mbxDeadlineExpiry .. | .mbxCancelReceived .. => [.ev, .mbx, .cam, .hosts, .seam, .mt]
  | .flrInitiate .. | .d3hotEntry .. => [.ev, .mbx, .cam, .store, .hosts, .seam]
  | .lockstepMismatch .. => [.ev, .mbx, .seam, .mgmt, .mt, .board]
  | .frzCtrlRelease .. => [.ev, .mbx, .store, .hosts, .mgmt, .mt]
  | .quadDecode .. | .pulseDirEdge .. | .hallStateChange .. | .serialReading .. =>
    [.ev, .pos, .trig, .seam, .safety, .mgmt]
  | .stepAtSecondApply .. | .acquisitionStep .. => [.time, .ev, .mbx, .seam, .safety, .mt]
  | .timeUnitSend .. => [.ev, .cam, .store, .trig, .seam, .safety, .draw]
  | .alignmentPeriodBoundary .. => [.ev, .lanes, .cam, .store, .seam, .mgmt, .power]
  | .perstAssert .. => [.ev, .mbx, .cam, .store, .hosts, .seam, .mgmt]
  | .completionReceived .. => [.ev, .store, .hosts, .panel, .mgmt, .draw, .mem]
  | .safetyRegisterCheck .. => [.time, .ev, .mbx, .seam, .safety, .mgmt, .mt]
  | .positionPublication .. => [.ev, .cam, .store, .pos, .trig, .seam, .safety, .draw]
  | .ohTimeReceived .. | .pinInputEdge .. => [.ev, .mbx, .cam, .store, .trig, .seam, .safety, .draw]
  | .fwActivateHandover .. => [.ev, .mbx, .seam, .safety, .mgmt, .power, .mt, .board]
  | .flrComplete .. => [.time, .ev, .lanes, .cam, .store, .hosts, .pos, .mgmt]
  | .imgReceived .. | .eofReceived .. | .ctrlRspReceived .. | .ctrlReqTimeout .. | .fireStatusReceived ..
  | .darnGoneReceived .. => [.ev, .mbx, .cam, .store, .trig, .seam, .panel, .safety, .power, .draw]
  | .d0Return .. | .vfEnableChange .. => [.time, .ev, .mbx, .lanes, .cam, .store, .hosts, .pos, .seam, .mgmt]
  | .sofReceived .. => Part.but [.time, .lanes, .pos, .mgmt, .mt, .board, .rd, .mem]
  | .ohLaneReceived .. => Part.but [.time, .hosts, .pos, .mgmt, .mt, .board, .rd, .mem]
  | .malformedBlockReceived .. => Part.but [.time, .pos, .mgmt, .mt, .board, .rd, .mem]
  | .codewordReceived .. | .alignmentBlockReceived .. | .synthLock .. | .startBudgetAdmit ..
  | .laneSignalDetect .. | .laneAcquireDone .. | .laneBlindDone .. | .laneTrainDone .. | .laneQualifyDone ..
  | .lanePhaseOverrun .. | .eqfWindowClose .. | .laneSignalLoss .. | .refclkInRange .. | .seamFlitReceived ..
  | .seamNakReceived .. | .seamReplayTimeout .. | .seamLinkSilence .. =>
    Part.but [.time, .hosts, .pos, .mt, .board, .rd, .mem]
  | .standbyEntry .. => Part.but [.time, .pos, .mt, .board, .rd, .mem]
  | .refclkOutOfRange .. => Part.but [.hosts, .pos, .board, .rd, .mem]
  | .mbxTakeCommand .. | .mbxParkedResume .. | .stageS2Reached .. | .stageS3Reached .. | .stageS4Reached .. =>
    Part.but [.rd]
  | _ => Part.all

end Sys2Proof.Machine
end

