-- ==== Sys2Proof/Certificates/Slice0/Obligations.lean ====
section
/-! DEFINITION. The statements for the provers, one definition each; OBLIGATIONS.json lists them in this order. -/

open Sys2Proof Sys2Proof.Machine

/-- A step takes the command at the front of the queue and runs exec on it with the rest of the queue. On an empty queue
time passes, and the timebase never runs backward: that time passes then, and how much, is the model's choice (log
4). -/
def Obligations.StepRunsFront : Prop :=
  (∀ i s, step (s.push i) = exec i s) ∧
  (∀ i rest s, s.pending = i :: rest → step s = exec i { s with pending := rest }) ∧
  (∀ s, s.pending = [] → ∃ t, step s = .next t ∧ t.mem = s.mem ∧ t.pending = [] ∧
    s.chip.time.tb ≤ t.chip.time.tb ∧ (s.chip.power.held = true → t.chip.time.tb = s.chip.time.tb))

/-- Every command whose operands name objects of the device answers a next state, in every state, and leaves the queue
as it was; one whose operands name no object stops with a fault, which is the model's choice (log 17). -/
def Obligations.EveryRowCompletes : Prop := ∀ i s,
  (i.wf = true → ∃ t, exec i s = .next t ∧ t.pending = s.pending) ∧
  (i.wf = false → exec i s = .fault .noSuchObject)

/-- While the device is held in reset, no command but those of the VAON domain, its pins and JTAG changes anything
(R456, R457). That a command of another domain then simply has no effect is the model's reading (log 38). -/
def Obligations.HeldDeviceRests : Prop := ∀ i s,
  s.chip.power.held = true → i.wf = true → actsWhileHeld i = false → exec i s = .next s

/-- The state after reset: stage S1, the cause POWER_ON, the safe state on the pins, the registers of MT, the timebase
at 0, no stream, table, lease, ticket, ring or fault, every quad, lane, channel and panel off, the queue and the
memory empty, and both invariants. That reset is the release after a power-on, with the straps at 0, is the model's
choice (log 7). -/
def Obligations.ResetValues : Prop := ∀ c, c = State.reset.chip →
  State.reset.pending = [] ∧ State.reset.mem = [] ∧ State.reset.Canonical ∧ c.PinsSafe ∧
  c.power.stage = .s1 ∧ c.power.held = false ∧ c.power.cause = 1 ∧ c.power.setpoint = 750 ∧ c.power.fixed = false ∧
  c.power.step = 0 ∧ c.power.standby = false ∧
  c.safety.safe = true ∧ c.safety.pinA = false ∧ c.safety.pinB = true ∧ (∀ i, i < 4 → (c.safeFn i).state = .disabled) ∧
  (List.range 16).map c.mtReg = [0x72, 0x06, 1, 0, 0, 0xFF, 0x0F, 0, 0, 0, 0, 0, 0, 0, 0, 0] ∧ c.mt.pointer = 0 ∧
  c.time.tb = 0 ∧ c.time.ppsHigh = 100000 ∧ c.time.pendingStep = none ∧
  (∀ mb, (c.box mb).state = .idle ∧ (c.box mb).ignored = 0 ∧ (c.box mb).cancelLate = 0 ∧ (c.box mb).sess = none) ∧
  c.mbx.tickets = [] ∧ c.store.streams = [] ∧ c.store.tables = [] ∧ c.store.leases = [] ∧ c.ev.waiting = [] ∧
  c.ev.rings = [] ∧ c.mgmt.faults = [] ∧
  (∀ q, (c.quad q).role = .off) ∧ (∀ n, (c.lane n).state = .off) ∧ (∀ ch, (c.enc ch).mode = .off) ∧
  (∀ p b i, (c.chan b p i).state = .idle) ∧ c.panel.state = .off ∧ c.seam.id = none

/-- From every state whose addressed memory and mailbox areas stand in their one canonical form, a step gives such a
state. The form is the model's way to hold memory (log 3). -/
def Obligations.MemoryStaysCanonical : Prop := ∀ s t, s.Canonical → step s = .next t → t.Canonical

/-- From every state in which the safe state shows SAFE_A low, SAFE_B high and no heartbeat, and in which a device held
in reset is in the safe state, a step gives such a state (R437, R441). -/
def Obligations.SafePinsHold : Prop := ∀ s t, s.chip.PinsSafe → step s = .next t → t.chip.PinsSafe

/-- A command of the command set that answers a next state leaves every part of the state unchanged but those that its
family and the end of every command write, which commandWrites lists for each row. -/
def Obligations.CommandFrames : Prop := ∀ i s t, exec i s = .next t → ∀ p, p ∉ commandWrites i → p.same s t

/-- An access of a host, of the management controller or of JTAG that answers a next state leaves every part of the
state unchanged but those that accessWrites lists for its row. -/
def Obligations.AccessFrames : Prop := ∀ i s t, exec i s = .next t → ∀ p, p ∉ accessWrites i → p.same s t

/-- An event that answers a next state leaves every part of the state unchanged but those that eventWrites lists for its
row. -/
def Obligations.EventFrames : Prop := ∀ i s t, exec i s = .next t → ∀ p, p ∉ eventWrites i → p.same s t

/-- R29, R298, R347, R366, R380: the commands of the system family, each where its own checks pass: the reads answer
what the rules list and change nothing; the others leave exactly the named change, and the end of a save stores what
it names. The Seam ID of a device that has none reads 0xFFFF by the model's choice (log 18). -/
def Obligations.SystemCommands : Prop :=
  (∀ mb req s,
  Ends cmdIdentify .systemIdentify mb req s stOK
    (le 8 Config.serial.toNat ++ le 1 s.chip.stageNo ++
      le 1 ((if s.chip.mbx.lockedPart then 1 else 0) + (if s.chip.unprovisioned then 2 else 0)) ++
      le 2 (s.chip.seam.id.getD 0xFFFF) ++
      le 4 (if s.chip.board.running = 0 then s.chip.board.imageA else s.chip.board.imageB).version ++ [1, 0, 0x10, 0])
    s.chip s.mem ∧
  (∀ l, 1 ≤ u8 req 0 → u8 req 0 ≤ 128 → meterList (u8 req 0) (req.drop 2) = some l → l.length ≤ 128 →
    Ends cmdReadMeters .systemReadMeters mb req s stOK (l.map fun p => meterBytes s.chip p.1 p.2).flatten s.chip s.mem) ∧
  Ends cmdReadPending .systemReadPending mb req s stOK
    (le 1 s.chip.mbx.tickets.length ++ [0, 0, 0, 0, 0, 0, 0] ++
      (s.chip.mbx.tickets.map fun k => le 4 k.id ++ le 2 k.opcode ++ le 2 k.mailbox ++ le 8 k.instant).flatten)
    s.chip s.mem) ∧
  (∀ mb req s,
  Ends cmdSetBoard .systemSetBoard mb req s stOK []
    { s.chip with board.subsys := some (u16 req 0, u16 req 2), board.text := req.drop 4 } s.mem ∧
  (s.chip.board.saving = none → s.chip.mbx.tickets.length < 64 →
    Ends cmdSaveConfig .systemSaveConfig mb req s stPENDING (le 4 s.chip.mbx.nextTicket ++ le 4 0)
      { s.chip with
        mbx.tickets := s.chip.mbx.tickets ++
          [{ id := s.chip.mbx.nextTicket, opcode := 0x0106, mailbox := mb, instant := 0,
             session := (s.chip.box mb).session, role := (s.chip.ctxOf mb).role, slot := (s.chip.ctxOf mb).slot,
             kind := .saveConfig }],
        mbx.nextTicket := (s.chip.mbx.nextTicket + 1) % 2 ^ 32,
        board.saving := some (s.chip.board.cfg, storedTables { chip := s.chip, mem := s.mem }) } s.mem) ∧
  (∀ tk sv, s.chip.power.held = false → s.chip.mbx.tickets.find? (·.id == tk.id) = some tk → tk.kind = .saveConfig →
    s.chip.board.saving = some sv →
    (∃ t, exec (.saveConfigComplete tk.id true) s = .next t ∧ t.chip.board.saving = none ∧ t.chip.board.saved = sv.1 ∧
      t.chip.board.savedTables = sv.2 ∧ t.chip.mbx.tickets = s.chip.mbx.tickets.filter (·.id != tk.id)) ∧
    (∃ t, exec (.saveConfigComplete tk.id false) s = .next t ∧ t.chip.board = { s.chip.board with saving := none } ∧
      t.chip.mbx.tickets = s.chip.mbx.tickets.filter (·.id != tk.id))) ∧
  (∀ tk, s.chip.mbx.tickets.find? (·.id == u32 req 0) = some tk →
    ((s.chip.ctxOf mb).grantAll = true ∨ (s.chip.ctxOf mb).role ∈ ticketRoles tk.opcode) →
    (tk.instant = 0 ∨ s.chip.t64 < tk.instant) →
    ∀ left : Chip,
    (match tk.kind with
      | .saveConfig => left = { s.chip with board.saving := none }
      | .timeStep => left = { s.chip with time.pendingStep := none, time.setState := 0 }
      | .seamSnapshot n | .snapshot n => left = { s.chip with ev.snaps := s.chip.ev.snaps.filter (·.number != n) }
      | .fwCommit i => left = { (if Config.openValue 19 s.chip.draw [tk.id] % 2 = 0 then s.chip
            else if i = 0 then { s.chip with board.imageA.state := 3, board.imageA.staged := none }
            else { s.chip with board.imageB.state := 3, board.imageB.staged := none }) with
          draw := s.chip.draw + 1 }
      | .fwActivate _ => left = if s.chip.mgmt.pairA = .booting then
            { s.chip with mgmt.imageA := s.chip.board.running } else { s.chip with mgmt.imageB := s.chip.board.running }) →
    Ends cmdCancelPending .systemCancelPending mb req s stOK []
      { left with
        mbx.tickets := s.chip.mbx.tickets.filter (·.id != tk.id),
        ev.waiting := s.chip.ev.waiting ++
          [{ line := 0x1B, kind := 1, inst := tk.mailbox % 2 ^ 16, detail := tk.opcode % 2 ^ 16,
             value := (tk.id * 2 ^ 32 + stCANCELLED) % 2 ^ 64, time := s.chip.t64, source := 0x3FF }] } s.mem))

/-- R354 to R357, R360, R375: the role commands on key slots, policies and the audit log, each where its own checks
pass. -/
def Obligations.RoleKeyCommands : Prop := ∀ mb req s,
  (∀ role slot, role = u8 req 0 → slot = u8 req 1 → Chip.slotOk role slot = true →
    ((s.chip.ctxOf mb).grantAll = true ∨ (s.chip.ctxOf mb).role = (if role = 3 then 2 else 1)) →
    (s.chip.key role slot).state = 0 →
    ∀ failed, failed = decide (Config.openValue 42 s.chip.draw [role, slot] % 2 = 1) →
    Ends cmdProgramKey .roleProgramKey mb req s (if failed then stINTERNAL else stOK) []
      { s.chip with
        draw := s.chip.draw + 1,
        mbx.keys := s.chip.mbx.keys.put (Chip.slotIndex role slot)
          { state := if failed then 2 else 1, key := req.drop 4 } } s.mem) ∧
  ((∃ i < 4, (s.chip.key 1 i).state = 1) → (∃ i < 8, (s.chip.key 2 i).state = 1) → s.chip.mbx.lockedPart = false →
    Ends cmdLockPart .roleLockPart mb req s stOK [] { s.chip with mbx.lockedPart := true } s.mem) ∧
  (∀ role idle, role = u8 req 0 → idle = u32 req 4 → 1 ≤ role → role ≤ 3 → 60 ≤ idle → idle ≤ 86400 →
    (∀ k z, (s.chip.box k).sess = some z → z.role = role → s.chip.up ≤ z.used + idle * secU) →
    Ends cmdSetPolicy .roleSetPolicy mb req s stOK []
      { s.chip with mbx.idle := s.chip.mbx.idle.put role idle } s.mem) ∧
  Ends cmdReadKeys .roleReadKeys mb req s stOK
    ((List.range 28).map fun k => BitVec.ofNat 8 (s.chip.mbx.keys.getD { state := 0, key := [] } k).state)
    s.chip s.mem ∧
  (∀ first count n z, first = u32 req 0 → count = u8 req 4 → n = s.chip.mbx.auditNext → 1 ≤ count → count ≤ 56 →
    first < n → n - 8192 ≤ first → (s.chip.ctxOf mb).sess = some z →
    Ends cmdReadAudit .roleReadAudit mb req s stOK
      (((List.range (min count (n - first))).map fun k =>
          match s.chip.mbx.audit.find? ((first + k) % 8192) with | some e => auditBytes e | none => []).flatten ++
        le 4 (n - 8192) ++ le 4 (n - 1) ++ s.chip.mbx.auditHash.take 24 ++
        hmac (s.chip.key z.role z.slot).key (req.drop 8 ++ (s.chip.mbx.auditHash.take 24 ++ le 4 (n - 1))))
      s.chip s.mem)

/-- R354 to R356, R375: a challenge is issued; a right answer to it within 10 s opens a session with its role, and a
wrong one is NO_RIGHT, spends the challenge, is counted and recorded; a session closes by command, with its key
slot, or after its idle time; a challenge expires, and the 60 s of BUSY end. The hash is HMAC-SHA-256 (log 16). -/
def Obligations.RoleSessions : Prop :=
  (∀ mb req s,
  ((s.chip.box mb).locked = false → s.chip.mbx.devLocked = false →
    Ends cmdGetChallenge .roleGetChallenge mb req s stOK
      (le 4 (leNat ((s.chip.random 36).drop 32)) ++ (s.chip.random 36).take 32)
      { s.chip.setBox mb { s.chip.box mb with
          chal := some { id := leNat ((s.chip.random 36).drop 32), nonce := (s.chip.random 36).take 32,
                         issued := s.chip.up } } with draw := s.chip.draw + 1 } s.mem) ∧
  (∀ role slot ch, role = u8 req 0 → slot = u8 req 1 → Chip.slotOk role slot = true → (s.chip.box mb).chal = some ch →
    ∀ good, (good ↔ ch.id = u32 req 4 ∧ s.chip.up ≤ ch.issued + 10 * secU ∧ (s.chip.key role slot).state = 1 ∧
      (256 ≤ mb ∨ mb % 128 = 0 ∨ role = 3) ∧
      hmac (s.chip.key role slot).key (Chip.sessionMessage ch.nonce mb role slot ch.id) = req.drop 8) →
    (good → ∀ handle, handle = (if leNat (s.chip.random 4) = 0 then 1 else leNat (s.chip.random 4)) →
      Ends cmdOpenSession .roleOpenSession mb req s stOK
        (le 4 handle ++ hmac (s.chip.key role slot).key (req.drop 8 ++ le 4 handle))
        { s.chip.setBox mb { s.chip.box mb with
            chal := none, sess := some { handle := handle, role := role, slot := slot, used := s.chip.up } } with
          draw := s.chip.draw + 1 } s.mem) ∧
    (¬ good →
      Ends cmdOpenSession .roleOpenSession mb req s stNORIGHT []
        { s.chip.setBox mb { s.chip.box mb with
            chal := none,
            fails := ((s.chip.box mb).fails.filter fun t => decide (s.chip.up < t + 60 * secU)) ++ [s.chip.up],
            locked := (s.chip.box mb).locked || decide (4 ≤
              (((s.chip.box mb).fails.filter fun t => decide (s.chip.up < t + 60 * secU)) ++ [s.chip.up]).length) } with
          mbx.devFails := (s.chip.mbx.devFails.filter fun t => decide (s.chip.up < t + 60 * secU)) ++ [s.chip.up],
          mbx.devLocked := s.chip.mbx.devLocked || decide (32 ≤
              ((s.chip.mbx.devFails.filter fun t => decide (s.chip.up < t + 60 * secU)) ++ [s.chip.up]).length),
          ev.waiting := s.chip.ev.waiting ++
            [{ line := 0x1C, kind := 1, inst := mb % 2 ^ 16, detail := (role * 256 + slot) % 2 ^ 16, value := 0,
               time := s.chip.t64, source := 0x3FF }] } s.mem)) ∧
  Ends cmdCloseSession .roleCloseSession mb req s stOK []
    (s.chip.setBox mb { s.chip.box mb with sess := none }) s.mem) ∧
  (∀ mb req s,
  (∀ role slot, role = u8 req 0 → slot = u8 req 1 → Chip.slotOk role slot = true →
    ((s.chip.ctxOf mb).grantAll = true ∨ (s.chip.ctxOf mb).role = (if role = 3 then 2 else 1)) →
    (s.chip.key role slot).state = 1 →
    (role = 1 → ∃ i < 4, ∃ j < 4, i ≠ j ∧ (s.chip.key 1 i).state = 1 ∧ (s.chip.key 1 j).state = 1) →
    Issues cmdRevokeKey mb req s.chip →
    ∃ t, exec (.roleRevokeKey mb req) s = .next t ∧ t.mem = s.mem ∧ (t.chip.box mb).status = stOK ∧
      t.chip.mbx.keys = s.chip.mbx.keys.put (Chip.slotIndex role slot) { s.chip.key role slot with state := 2 } ∧
      (∀ k z, (s.chip.box k).sess = some z → z.role = role → z.slot = slot → (t.chip.box k).sess = none) ∧
      (∀ k z, (s.chip.box k).sess = some z → ¬ (z.role = role ∧ z.slot = slot) →
        SameSession s.chip.up (some z) (t.chip.box k).sess)) ∧
  (∀ z, s.chip.power.held = false → validMb mb = true → (s.chip.box mb).sess = some z →
    ∃ t, exec (.sessionIdleExpiry mb) s = .next t ∧ (t.chip.box mb).sess = none ∧
      t.chip.mbx.auditNext = s.chip.mbx.auditNext + 1 ∧ (∀ k, k ≠ mb → t.chip.box k = s.chip.box k)) ∧
  (s.chip.power.held = false → validMb mb = true →
    ∃ t, exec (.challengeExpiry mb) s = .next t ∧ t.chip.box mb = { s.chip.box mb with chal := none } ∧
      ∀ k, k ≠ mb → t.chip.box k = s.chip.box k) ∧
  (s.chip.power.held = false → validMb mb = true →
    ∃ t, exec (.challengeLockoutEnd (some mb)) s = .next t ∧
      t.chip.box mb = { s.chip.box mb with locked := false, fails := [] } ∧ ∀ k, k ≠ mb → t.chip.box k = s.chip.box k) ∧
  (s.chip.power.held = false →
    exec (.challengeLockoutEnd none) s =
      .next { s with chip := { s.chip with mbx.devLocked := false, mbx.devFails := [] } }))

/-- R379, R500, R503, R506 to R511: the commands of observation and events, each where its own checks pass. -/
def Obligations.ObserveCommands : Prop := ∀ mb req s,
  (∀ sink log2 f, sink = u8 req 0 → log2 = u8 req 1 → f = u64 req 4 → sink ≤ 2 →
    (sink = 1 → 20 ≤ log2 ∧ log2 ≤ 30) → (sink = 2 → validFn (u8 req 2) = true) →
    (s.chip.mbx.lockedPart = true → bits f 32 16 = 0) → Issues cmdSetTrace mb req s.chip →
    ∃ t, exec (.obsSetTrace mb req) s = .next t ∧ Ended mb stOK (s.chip.box mb).rsp [] t.chip ∧
      t.chip.ev.trace.sink = sink ∧ t.chip.ev.trace.stopped = false ∧
      t.chip.ev.trace.sizeLog2 = (if sink = 1 then log2 else 0) ∧ t.chip.ev.trace.fn = u8 req 2 ∧
      t.chip.ev.trace.hostLog2 = u8 req 3 ∧ t.chip.ev.trace.hostBase = u64 req 12 ∧
      t.chip.ev.trace.filter = (f &&& 0x0000FFFF000001FF) ∧ t.chip.ev.trace.ring = []) ∧
  (∀ n, n = u32 req 8 → 1 ≤ n → n ≤ 4064 → s.chip.ev.trace.sink = 1 →
    u64 req 0 + n ≤ 2 ^ s.chip.ev.trace.sizeLog2 → bit s.chip.ev.trace.filter 1 = false →
    Ends cmdReadTrace .obsReadTrace mb req s stOK (traceRead s.chip.flushTrace (u64 req 0) n) s.chip.flushTrace s.mem) ∧
  (∀ first n, first = u16 req 0 → n = u16 req 2 → 1 ≤ n → n ≤ 511 → first + n ≤ 4096 →
    ∃ x : Tab Nat, (∀ k, k ≠ 0x49 → k ≠ 0x4D → k ≠ 0x4E → x.getD 0 k = s.chip.ev.counters.getD 0 k) ∧
      Ends cmdReadCounters .obsReadCounters mb req s stOK (le 8 s.chip.t64 ++ counterBytes x first n) s.chip s.mem) ∧
  (s.chip.t64 + 1000000 ≤ u64 req 0 → (s.chip.ev.snaps.filter fun x => x.origin.isNone).length < 4 → s.chip.mbx.tickets.length < 64 →
    Ends cmdSnapshotAt .obsSnapshotAt mb req s stPENDING
      (le 4 s.chip.mbx.nextTicket ++ le 4 0 ++ le 4 s.chip.ev.snapNext)
      { s.chip with
        mbx.tickets := s.chip.mbx.tickets ++
          [{ id := s.chip.mbx.nextTicket, opcode := 0x0D04, mailbox := mb, instant := u64 req 0,
             session := (s.chip.box mb).session, role := (s.chip.ctxOf mb).role, slot := (s.chip.ctxOf mb).slot,
             kind := .snapshot s.chip.ev.snapNext }],
        mbx.nextTicket := (s.chip.mbx.nextTicket + 1) % 2 ^ 32,
        ev.snaps := s.chip.ev.snaps ++ [scheduledSnap s.chip.ev.snapNext (u64 req 0) (some s.chip.mbx.nextTicket)],
        ev.snapNext := if s.chip.ev.snapNext + 1 = 2 ^ 32 then 1 else s.chip.ev.snapNext + 1 } s.mem) ∧
  (∀ first n snap own missed v, first = u16 req 6 → n = u16 req 8 → 1 ≤ n → n ≤ 510 → first + n ≤ 4096 →
    s.chip.ev.snaps.find? (fun x => x.number == u32 req 0 && x.done) = some snap →
    own = (decide (u16 req 4 = 0x3FF ∧ snap.fabric = false) || decide (some (u16 req 4) = s.chip.seam.id)) →
    missed = (if own then snap.missed else snap.peerMissed.contains (u16 req 4)) →
    (missed = true ∨ (if own then some snap.values else snap.peers.find? (u16 req 4)) = some v) →
    Ends cmdReadSnapshot .obsReadSnapshot mb req s stOK
      (le 1 ((if missed then 1 else 0) + (if snap.incomplete then 2 else 0)) ++ List.replicate 7 0 ++
        le 8 snap.instant ++ (if missed then [] else counterBytes v first n)) s.chip s.mem) ∧
  (∀ f log2 base, f = u8 req 0 → log2 = u8 req 1 → base = u64 req 4 → validFn f = true → 6 ≤ log2 → log2 ≤ 16 →
    base % 4096 = 0 → u16 req 2 < s.chip.vectors f → ringBusy s.chip f = false →
    (base = 0 →
      Ends cmdSetRing .evtSetRing mb req s stOK [] { s.chip with ev.rings := s.chip.ev.rings.drop f } s.mem) ∧
    (base ≠ 0 → f ∈ s.chip.power.causeGiven →
      Ends cmdSetRing .evtSetRing mb req s stOK []
        { s.chip with
          ev.rings := s.chip.ev.rings.put f
            { base := base, log2 := log2, vector := u16 req 2, wr := 0, rel := 0, overrun := false } } s.mem) ∧
    (base ≠ 0 → f ∉ s.chip.power.causeGiven → Issues cmdSetRing mb req s.chip →
      ∃ t, exec (.evtSetRing mb req) s = .next t ∧ (t.chip.box mb).status = stOK ∧ (t.chip.box mb).state = .done ∧
        t.chip.ev.rings = s.chip.ev.rings.put f
          { base := base, log2 := log2, vector := u16 req 2, wr := 1, rel := 0, overrun := false } ∧
        t.chip.power = { s.chip.power with causeGiven := f :: s.chip.power.causeGiven })) ∧
  (∀ l k, l = u8 req 0 → k = u8 req 1 → l ≤ 0x2F → wired l k = true → u8 req 2 ≤ 1 →
    Ends cmdSetRoute .evtSetRoute mb req s stOK []
      { s.chip with
        ev.routes := s.chip.ev.routes.put l
          ((s.chip.t64,
            (if u8 req 2 = 1 then setBit (match s.chip.ev.routes.getD [] l with | p :: _ => p.2 | [] => 7) k
             else clearBits (match s.chip.ev.routes.getD [] l with | p :: _ => p.2 | [] => 7) (2 ^ k))) ::
            s.chip.ev.routes.getD [] l) } s.mem)

/-- R497 to R505, R508, R511 to R513: the router, the deferred records, the releases, snapshots and JTAG. -/
def Obligations.ObserveEvents : Prop := ∀ s, s.chip.power.held = false →
  (∀ (l : Fin 48) r rest1 rest2, s.chip.ev.waiting = rest1 ++ r :: rest2 → r.line = l.val → (∀ x ∈ rest1, x.line ≠ l.val) →
    s.chip.routed r.line 0 r.time = true → (∀ k, 0 < k → k < 24 → s.chip.routed r.line k r.time = false) →
    ∃ t, exec (.routerTake l) s = .next t ∧ t.chip.ev.waiting = rest1 ++ rest2 ∧ t.mem = s.mem ∧
      (∀ v ∈ s.chip.views, v = mtView ∨ s.chip.inScope v r = true → bit (t.chip.ev.evfLine.getD 0 v) r.line = true)) ∧
  (∀ (k : Fin 24) o, s.chip.ev.overruns.find? k.val = some o → o.since ≠ 0 →
    ∃ t, exec (.consumerOverrunRecord k) s = .next t ∧
      t.chip.ev.overruns.find? k.val = some { o with since := 0, last := some s.chip.up } ∧
      t.chip.ev.waiting = s.chip.ev.waiting ++
        [{ line := 0x2C, kind := 1, inst := k.val, detail := o.first % 2 ^ 16, value := o.since % 2 ^ 64,
           time := s.chip.t64, source := 0x3FF }]) ∧
  (s.chip.ev.trace.dropNew ≠ 0 →
    ∃ t, exec .traceDropReport s = .next t ∧ t.chip.ev.trace.dropNew = 0 ∧
      t.chip.ev.waiting = s.chip.ev.waiting ++
        [{ line := 0x2B, kind := 2, inst := s.chip.ev.trace.sink % 2 ^ 16, detail := 0,
           value := s.chip.ev.trace.dropNew % 2 ^ 64, time := s.chip.t64, source := 0x3FF }]) ∧
  (∀ v, (v + 2 ^ 32 - s.chip.ev.mtRel) % 2 ^ 32 ≤ (s.chip.ev.mtWr + 2 ^ 32 - s.chip.ev.mtRel) % 2 ^ 32 →
    exec (.evrRelWrite mtView v) s = .next { s with chip := { s.chip with ev.mtRel := v % 2 ^ 32 } }) ∧
  (∀ f v g, validFn f = true → s.chip.reaches f = true → s.chip.ev.rings.find? f = some g →
    exec (.evrRelWrite f v) s = .next { s with chip :=
      if (v + 2 ^ 32 - g.rel) % 2 ^ 32 ≤ (g.wr + 2 ^ 32 - g.rel) % 2 ^ 32 then
        { s.chip with ev.rings := s.chip.ev.rings.put f { g with rel := v % 2 ^ 32 } } else s.chip }) ∧
  (∀ n snap, s.chip.ev.snaps.find? (fun x => x.number == n && !x.done && !x.fabric) = some snap →
    ∃ t, exec (.snapshotInstant n) s = .next t ∧
      (∀ x ∈ t.chip.ev.snaps, x.number = n → x.done = true ∧ x.instant = snap.instant ∧ x.values = s.chip.ev.counters) ∧
      (∀ k, snap.ticket = some k → t.chip.mbx.tickets = s.chip.mbx.tickets.filter (·.id != k) ∨
        s.chip.mbx.tickets.find? (·.id == k) = none)) ∧
  (∀ n, exec (.snapshotExpiry n) s = .next { s with chip :=
      { s.chip with ev.snaps := s.chip.ev.snaps.filter fun x => !(x.number == n && x.done) } }) ∧
  (∀ i, (i = .extest ∨ i = .extestPulse ∨ i = .extestTrain ∨ i = .clamp ∨ i = .highz) → s.chip.power.resetLow = false →
    exec (.jtagInstruction i) s = .next { s with chip := { s.chip with board.jtag := .bypass } }) ∧
  exec (.jtagInstruction .idcode) s = .next { s with chip :=
    { s.chip with board.jtag := .idcode, rd := le 4 (0x1 * 2 ^ 28 + 0x0672 * 2 ^ 12 + Config.idcodeMaker.toNat * 2 + 1) } }

/-- R343, R344, R346: the doorbell, a CANCEL, the deadline and the taking of a command, each on a mailbox of this
device's functions or MT that its sender reaches. -/
def Obligations.MailboxEvents : Prop := ∀ mb sq s, validView mb = true → s.chip.mailboxUp = true →
  s.chip.reaches mb = true →
  (((s.chip.box mb).state = .idle ∨ (s.chip.box mb).state = .done) → (s.chip.box mb).seq = sq % 65536 →
    s.chip.power.standby = false →
    ∃ t, exec (.mbxGo mb sq) s = .next t ∧ t.mem = s.mem ∧
      t.chip.box mb = { s.chip.box mb with
        state := .queued, stateSeq := (s.chip.box mb).seq, order := s.chip.up, doorbell := s.chip.t64,
        deadlineAt := s.chip.up + (if (s.chip.box mb).deadline = 0 then 1000 else (s.chip.box mb).deadline) * msU,
        cancelDue := false, commitAt := none, parked := none } ∧ ∀ k, k ≠ mb → t.chip.box k = s.chip.box k) ∧
  (¬ (((s.chip.box mb).state = .idle ∨ (s.chip.box mb).state = .done) ∧ (s.chip.box mb).seq = sq % 65536) →
    exec (.mbxGo mb sq) s = .next { s with
        chip := s.chip.setBox mb { s.chip.box mb with ignored := min ((s.chip.box mb).ignored + 1) 65535 } }) ∧
  (((s.chip.box mb).state = .queued ∨ (s.chip.box mb).state = .running) → s.chip.isRelay mb = false →
    (s.chip.box mb).commitAt ≠ some s.chip.up → (∀ p, p < 64 → ∀ k, (s.chip.port p).calib = some k → k.mailbox ≠ mb) →
    ((s.chip.box mb).seq = sq % 65536 → s.chip.up < (s.chip.box mb).deadlineAt →
      ∃ t, exec (.mbxCancel mb sq) s = .next t ∧ Ended mb stCANCELLED (s.chip.box mb).rsp [] t.chip ∧
        OnlyNotes mb s.chip t.chip) ∧
    ((s.chip.box mb).seq = sq % 65536 → (s.chip.box mb).deadlineAt ≤ s.chip.up →
      ∃ t, exec (.mbxCancel mb sq) s = .next t ∧ Ended mb stTIMEOUT (s.chip.box mb).rsp [] t.chip ∧
        (t.chip.box mb).ignored = min ((s.chip.box mb).ignored + 1) 65535) ∧
    (∃ t, exec (.mbxDeadlineExpiry mb) s = .next t ∧ Ended mb stTIMEOUT (s.chip.box mb).rsp [] t.chip ∧
        OnlyNotes mb s.chip t.chip)) ∧
  ((s.chip.box mb).state = .committed ∨
      ((s.chip.box mb).state = .done ∨ (s.chip.box mb).state = .held) ∧ (s.chip.box mb).commitAt = some s.chip.up →
    ((s.chip.box mb).seq = sq % 65536 →
      exec (.mbxCancel mb sq) s = .next { s with
        chip := s.chip.setBox mb { s.chip.box mb with cancelLate := min ((s.chip.box mb).cancelLate + 1) 65535 } }) ∧
    exec (.mbxDeadlineExpiry mb) s = .next { s with
        chip := s.chip.setBox mb { s.chip.box mb with cancelLate := min ((s.chip.box mb).cancelLate + 1) 65535 } })

/-- R155, R344, R346, R472: the command whose doorbell came first is taken and carried through, which ROLE.READ_KEYS,
that any mailbox may issue, shows; while the core stands in a hold, nothing is taken; a parked PORT.CAM_READ whose
camera has answered goes on to its end. -/
def Obligations.CommandTaking : Prop :=
  (∀ mb s,
  (s.chip.firstBell (fun b => b.state == .queued) = some mb → s.chip.mailboxUp = true → s.chip.power.coreHold = false →
    s.chip.power.recovery = false → s.chip.pairActive = true → 2 ≤ s.chip.stageNo → mb < 0x8000 →
    s.chip.boxFrozen mb = false → (s.chip.box mb).target = 0x3FF → (s.chip.box mb).opcode = 0x0909 →
    (s.chip.box mb).length = 0 → bit (s.chip.box mb).reqFlags 1 = false →
    ∃ t, exec .mbxTakeCommand s = .next t ∧
      Ended mb stOK (s.chip.box mb).rsp
        ((List.range 28).map fun k => BitVec.ofNat 8 (s.chip.mbx.keys.getD { state := 0, key := [] } k).state) t.chip) ∧
  (∀ sel, s.chip.firstBell sel = some mb →
    ∃ b, (mb, b) ∈ s.chip.mbx.boxes ∧ sel b = true ∧ ∀ e ∈ s.chip.mbx.boxes, sel e.2 = true →
      b.order < e.2.order ∨ b.order = e.2.order ∧ mb ≤ e.1) ∧
  (s.chip.power.coreHold = true → exec .mbxTakeCommand s = .next s)) ∧
  (∀ s mb b req p g st data,
  s.chip.firstBell (fun x => x.state == .running && (match x.parked with | some k => k.answer.isSome | none => false)) =
    some mb → b = s.chip.box mb → b.parked = some { on := .camera p g, answer := some (st, data), cancelSent := false } →
  b.opcode = 0x0223 → req = s.chip.requestOf mb → s.chip.mailboxUp = true → s.chip.power.coreHold = false →
  s.chip.pairActive = true → s.chip.boxFrozen mb = false → mb < 0x8000 → bit b.reqFlags 1 = false →
  (∀ k, k = u16 req 2 → st = 0 → data.length = k →
    ∃ t, exec .mbxParkedResume s = .next t ∧ Ended mb stOK b.rsp (le 4 0 ++ data) t.chip) ∧
  (st = noAnswer → ∃ t, exec .mbxParkedResume s = .next t ∧ Ended mb stTIMEOUT b.rsp [] t.chip) ∧
  (∀ k, k = u16 req 2 → st = 3 → data = [] →
    ∃ t, exec .mbxParkedResume s = .next t ∧
      Ended mb stBUSY b.rsp (le 1 3 ++ le 3 0 ++ List.replicate k 0) t.chip))

/-- R343, R350, R413: a command relayed from or to another device: its arrival, its answer, its cancelling and the
silence of its device. -/
def Obligations.RelayedCommands : Prop := ∀ src s, src < 1024 → s.chip.power.held = false →
  (∀ p, s.chip.mailboxUp = true → s.chip.power.standby = false →
    ((s.chip.box (0x8000 + src)).state = .idle ∨ (s.chip.box (0x8000 + src)).state = .done) →
    ∃ t, exec (.mbxReqReceived src p) s = .next t ∧ (t.chip.box (0x8000 + src)).state = .queued ∧
      (t.chip.box (0x8000 + src)).opcode = u16 p 0 ∧ (t.chip.box (0x8000 + src)).seq = u16 p 2 ∧
      (t.chip.box (0x8000 + src)).length = u32 p 4 ∧ (t.chip.box (0x8000 + src)).session = u32 p 8 ∧
      (t.chip.box (0x8000 + src)).target = u16 p 12 % 1024 ∧ (t.chip.box (0x8000 + src)).reqFlags = u8 p 14 % 4 ∧
      (t.chip.box (0x8000 + src)).req = Mem.writeBytes [] 0 ((p.drop 32).take (min 4096 (u32 p 4)))) ∧
  (∀ p r, s.chip.seam.relays.find? (fun x => x.target == src && x.sent && u16 x.bytes 2 == u16 p 2) = some r →
    r.late = false → s.chip.boxFrozen r.mailbox = false →
    (∃ t, exec (.mbxRspReceived src p) s = .next t ∧
      Ended r.mailbox (u16 p 16) (s.chip.box r.mailbox).rsp ((p.drop 32).take (min 4096 (u32 p 4))) t.chip ∧
      r.target = src)) ∧
  (∀ sq, (s.chip.box (0x8000 + src)).seq = sq % 65536 →
    ((s.chip.box (0x8000 + src)).state = .queued ∨ (s.chip.box (0x8000 + src)).state = .running) →
    (s.chip.box (0x8000 + src)).commitAt ≠ some s.chip.up → s.chip.up < (s.chip.box (0x8000 + src)).deadlineAt →
    ∃ t, exec (.mbxCancelReceived src sq) s = .next t ∧ Ended (0x8000 + src) stCANCELLED (s.chip.box (0x8000 + src)).rsp [] t.chip) ∧
  (∀ mb, validMb mb = true →
    ((s.chip.box mb).state = .queued ∨ (s.chip.box mb).state = .running ∧ (s.chip.box mb).parked ≠ none) →
    s.chip.isRelay mb = true → s.chip.boxFrozen mb = false →
    ∃ t, exec (.relayNoAnswer mb) s = .next t ∧ Ended mb stTIMEOUT (s.chip.box mb).rsp [] t.chip ∧
      (t.chip.box mb).rspFlags = 4)

/-- R42 to R50, R373: the time commands, each where its own checks pass, and a step that R46 refuses. -/
def Obligations.TimeCommands : Prop := ∀ mb req s,
  Ends cmdReadTime .timeReadStatus mb req s stOK
    (le 12 (tb96 s.chip.time.tb) ++ le 1 (discCode s.chip.time.disc) ++ le 1 (sourceCode s.chip.time.source) ++
      le 1 (s.chip.tbEvt mb) ++ [0] ++ le 4 (unsigned 32 s.chip.time.phaseErr) ++
      le 4 (unsigned 32 s.chip.time.freqCorr) ++ le 4 s.chip.time.cableDelay ++ le 4 s.chip.time.ppsHigh)
    s.chip s.mem ∧
  (∀ src, (src = .free ↔ u8 req 0 = 0) → (src = .ext ↔ u8 req 0 = 1) → (src = .seam ↔ u8 req 0 = 2) → u8 req 1 ≤ 1 →
    u32 req 4 ≤ 1000000 → 1 ≤ u32 req 8 → u32 req 8 ≤ 500000 → s.chip.time.pendingStep = none →
    Issues cmdSetSource mb req s.chip →
    ∃ t, exec (.timeSetSource mb req) s = .next t ∧ Ended mb stOK (s.chip.box mb).rsp [] t.chip ∧ t.mem = s.mem ∧
      t.chip.time.source = src ∧ (t.chip.time.useTen = true ↔ u8 req 1 = 1) ∧ t.chip.time.cableDelay = u32 req 4 ∧
      t.chip.time.ppsHigh = u32 req 8 ∧ t.chip.time.tb = s.chip.time.tb ∧
      (src = .free → t.chip.time.disc = .freeRun) ∧
      (src ≠ .free → s.chip.time.disc = .freeRun → (src = .ext ∨ s.chip.isRoot = false) →
        t.chip.time.disc = .acquire) ∧
      (src = .seam → s.chip.isRoot = true → t.chip.time.disc = .locked)) ∧
  (u8 req 0 = 1 → i64 req 8 = 0 → s.chip.stepInRange 1 (u48 req 2) 0 = true → s.chip.time.source = .free →
    s.chip.anyArmed = false → s.chip.time.pendingStep = none → s.chip.mbx.tickets.length < 64 →
    Ends cmdTimeStep .timeStep mb req s stPENDING (le 4 s.chip.mbx.nextTicket ++ le 4 0)
      { s.chip with
        time.setState := 1, time.setCause := 0,
        time.pendingStep := some { sec := u48 req 2, ticket := some s.chip.mbx.nextTicket },
        mbx.tickets := s.chip.mbx.tickets ++
          [{ id := s.chip.mbx.nextTicket, opcode := 0x0703, mailbox := mb, instant := s.chip.nextSecond / 65536,
             session := (s.chip.box mb).session, role := (s.chip.ctxOf mb).role, slot := (s.chip.ctxOf mb).slot,
             kind := .timeStep }],
        mbx.nextTicket := (s.chip.mbx.nextTicket + 1) % 2 ^ 32 } s.mem) ∧
  (u8 req 0 = 2 → u48 req 2 = 0 → s.chip.stepInRange 2 0 (i64 req 8) = true → s.chip.time.source = .free →
    s.chip.anyArmed = false → s.chip.time.pendingStep = none → Issues cmdTimeStep mb req s.chip →
    ∃ t more, exec (.timeStep mb req) s = .next t ∧ Ended mb stOK (s.chip.box mb).rsp [] t.chip ∧
      (t.chip.time.tb : Int) = s.chip.time.tb + i64 req 8 * 65536 ∧ t.chip.time.setState = 2 ∧
      t.chip.time.setCause = 0 ∧ bit t.chip.time.evt 3 = true ∧ t.chip.time.up = s.chip.time.up ∧
      t.chip.ev.waiting = s.chip.ev.waiting ++
        { line := 0, kind := 1, inst := 0, detail := 2, value := s.chip.t64 % 2 ^ 64, time := t.chip.t64,
          source := 0x3FF } :: more) ∧
  (s.chip.time.source ≠ .free → s.chip.time.pendingStep = none → u8 req 0 = 2 → u48 req 2 = 0 →
    s.chip.stepInRange 2 0 (i64 req 8) = true → Issues cmdTimeStep mb req s.chip →
    ∃ t, exec (.timeStep mb req) s = .next t ∧ Ended mb stBADSTATE (s.chip.box mb).rsp [] t.chip ∧
      t.chip.time = { s.chip.time with setState := 3, setCause := 1 }) ∧
  (u8 req 0 ≤ 1 → u8 req 1 ≤ 1 →
    Ends cmdHostControl .timeSetHostControl mb req s stOK []
      { s.chip with
        time.hostCtl := if u8 req 1 = 1 then u8 req 0 :: s.chip.time.hostCtl.filter (· != u8 req 0)
          else s.chip.time.hostCtl.filter (· != u8 req 0) } s.mem)

/-- R43, R45 to R48, R50: the reads of the two latching time registers and GO of a PF; the steps, the edges and the
losses that move the timebase and its discipline. -/
def Obligations.TimeEvents : Prop :=
  (∀ s, s.chip.power.held = false →
  (∀ view, validView view = true → s.chip.reaches view = true →
    exec (.tbNsRead view) s = .next { s with
      chip := ({ s.chip with
        rd := le 4 (s.chip.time.tb % secU / 65536),
        time.secLatch := s.chip.time.secLatch.put view (s.chip.time.tb / secU * 65536 + s.chip.time.tb % 65536) } : Chip).complete
          view 0 0 } ∧
    exec (.tbT64LoRead view) s = .next { s with
      chip := ({ s.chip with
        rd := le 4 s.chip.t64, time.hiLatch := s.chip.time.hiLatch.put view (s.chip.t64 / 2 ^ 32 % 2 ^ 32) } : Chip).complete
          view 0 0 }) ∧
  (∀ (port : Fin 2) g, g = s.chip.time.staged.getD StageRegs.reset port.val → s.chip.reaches (port.val * 128) = true →
    (s.chip.time.pendingStep ≠ none → exec (.tbSetGo port) s = .next s) ∧
    (s.chip.time.pendingStep = none → port.val ∉ s.chip.time.hostCtl →
      exec (.tbSetGo port) s = .next { s with chip := { s.chip with time.setState := 3, time.setCause := 2 } }) ∧
    (s.chip.time.pendingStep = none → port.val ∈ s.chip.time.hostCtl → g.mode = 1 →
      s.chip.stepInRange 1 g.sec (signed 64 g.ofs) = true → s.chip.time.source = .free → s.chip.anyArmed = false →
      exec (.tbSetGo port) s = .next { s with
        chip := { s.chip with
          time.setState := 1, time.setCause := 0, time.pendingStep := some { sec := g.sec, ticket := none } } }) ∧
    (s.chip.time.pendingStep = none → port.val ∈ s.chip.time.hostCtl → g.mode = 2 →
      s.chip.stepInRange 2 g.sec (signed 64 g.ofs) = true → s.chip.time.source = .free → s.chip.anyArmed = false →
      ∃ t, exec (.tbSetGo port) s = .next t ∧ (t.chip.time.tb : Int) = s.chip.time.tb + signed 64 g.ofs * 65536 ∧
        t.chip.time.setState = 2 ∧ bit t.chip.time.evt 3 = true))) ∧
  (∀ s, s.chip.power.held = false →
  (∀ p, s.chip.time.pendingStep = some p →
    ∃ t, exec .stepAtSecondApply s = .next t ∧ t.chip.time.tb = p.sec * secU ∧ t.chip.time.pendingStep = none ∧
      t.chip.time.setState = 2 ∧ bit t.chip.time.evt 3 = true ∧
      t.chip.time.up + s.chip.time.tb = s.chip.time.up + (s.chip.time.tb / secU + 1) * secU) ∧
  (∀ phase freq err ten, s.chip.time.source = .ext → s.chip.time.disc = .acquire → 7 ≤ s.chip.time.good →
    phase.natAbs ≤ 20000 → (s.chip.time.useTen = true → ten = true ∧ err.natAbs ≤ 100) →
    ∃ t, exec (.ppsInEdge phase ⟨freq, err, ten⟩) s = .next t ∧ t.chip.time.disc = .locked ∧ t.chip.time.phaseErr = phase ∧
      t.chip.time.freqCorr = freq ∧ bit t.chip.time.evt 0 = true ∧
      t.chip.ev.waiting = s.chip.ev.waiting ++
        [{ line := 0, kind := 2, inst := 0, detail := 0x21, value := unsigned 64 phase % 2 ^ 64, time := s.chip.t64,
           source := 0x3FF }]) ∧
  (∀ phase freq err ten, s.chip.time.source = .ext → s.chip.time.disc = .acquire → 20000 < phase.natAbs →
    exec (.ppsInEdge phase ⟨freq, err, ten⟩) s = .next { s with
      chip := { s.chip with
        time.phaseErr := phase, time.freqCorr := freq, time.tenOk := ten, time.good := 0,
        time.acqStep := if 1000000 < phase.natAbs then some phase else none } }) ∧
  (s.chip.time.source = .ext → s.chip.time.disc = .locked →
    (∃ t, exec .ppsLossTimeout s = .next t ∧ t.chip.time.disc = .holdover ∧ bit t.chip.time.evt 1 = true ∧
      bit t.chip.time.evt 2 = true ∧ t.chip.time.freqCorr = s.chip.time.freqCorr) ∧
    (s.chip.time.useTen = true → ∃ t, exec .tenInLossTimeout s = .next t ∧ t.chip.time.disc = .holdover ∧
      t.chip.time.tenOk = false ∧ t.chip.time.freqCorr = s.chip.time.freqCorr)) ∧
  (∀ phase freq err ten, s.chip.time.source = .ext → s.chip.time.disc = .holdover →
    ∃ t, exec (.ppsInEdge phase ⟨freq, err, ten⟩) s = .next t ∧ t.chip.time.freqCorr = s.chip.time.freqCorr ∧
      t.chip.time.disc = if s.chip.time.useTen = true ∧ ten = false then .holdover else .acquire) ∧
  (s.chip.time.source = .seam → s.chip.isRoot = false → s.chip.time.disc = .locked →
    ∃ t, exec .seamExchangeLoss s = .next t ∧ t.chip.time.disc = .holdover ∧ t.chip.seam.parent = none ∧
      t.chip.time.freqCorr = s.chip.time.freqCorr) ∧
  (∀ e, s.chip.time.acqStep = some e → s.chip.time.disc = .acquire → s.chip.anyArmed = false →
    s.chip.time.pendingStep = none → Chip.settable (((s.chip.time.tb / secU + 1) * secU : Nat) - psU e) = true →
    ∃ t, exec .acquisitionStep s = .next t ∧
      (t.chip.time.tb : Int) = ((s.chip.time.tb / secU + 1) * secU : Nat) - psU e ∧ t.chip.time.acqStep = none ∧
      bit t.chip.time.evt 3 = true) ∧
  exec .ppsOutRise s = .next { s with
    chip := { s.chip with time.ppsUntil := some (s.chip.time.tb + s.chip.time.ppsHigh * usU) } })

/-- R70 to R73, R85, R91, R93, R97, R101: the position commands, each where its own checks pass. -/
def Obligations.PositionCommands : Prop := ∀ mb req s ch, ch = u8 req 0 → ch ≤ 7 →
  (∀ m, m = encMode (u8 req 1) → u8 req 1 ≤ 8 → 1 ≤ u8 req 2 → u8 req 3 ≤ 7 → 5 ≤ u16 req 4 → u8 req 6 ≤ 7 →
    u8 req 8 ≤ 1 → u8 req 9 ≤ 2 → u8 req 10 ≤ 1 → -(2 ^ 47) ≤ i64 req 12 → i64 req 12 < 2 ^ 47 →
    s.chip.chanArmed ch = false → s.chip.covers 3 ch = false →
    Ends cmdSetChannel .posSetChannel mb req s stOK []
      (s.chip.setEnc ch { s.chip.enc ch with
        mode := m, filterN := u8 req 2, term := u8 req 3, wbTime := u16 req 4, wbMask := u8 req 6,
        qerrLimit := u8 req 7, invert := u8 req 8 == 1, indexAction := u8 req 9, qualifier := u8 req 10,
        home := i64 req 12, serPrev := none, serFails := 0,
        wbNow := (s.chip.enc ch).wbNow &&&
          (if m = .off then 0 else if m = .bissC ∨ m = .ssi then u8 req 6 % 2 else u8 req 6) }) s.mem) ∧
  (u8 req 1 ≤ u8 req 2 → u8 req 2 ≤ 10 → u8 req 3 ≤ 1 → 1000 ≤ u32 req 4 → u32 req 4 ≤ 10000000 → u32 req 4 % 10 = 0 →
    1 ≤ u32 req 8 → u32 req 8 ≤ 1000000 → s.chip.chanArmed ch = false →
    Ends cmdSetSpeed .posSetSpeed mb req s stOK []
      (s.chip.setEnc ch { s.chip.enc ch with
        kminLog2 := u8 req 1, kmaxLog2 := u8 req 2, auto := u8 req 3 == 1, targetNs := u32 req 4, stopUs := u32 req 8,
        kLog2 := if u8 req 3 = 1 then u8 req 1 else u8 req 2 }) s.mem) ∧
  (1 ≤ u8 req 1 → u8 req 1 ≤ 100 → 8 ≤ u8 req 2 → u8 req 2 ≤ 40 → u8 req 3 ≤ 1 → u8 req 4 ≤ 2 → 2000 ≤ u32 req 8 →
    u32 req 8 ≤ 1000000 → u32 req 8 % 10 = 0 → 1000 ≤ u32 req 12 → u32 req 12 ≤ 100000 → u32 req 12 % 10 = 0 →
    u32 req 16 ≤ 100000 → u32 req 16 % 10 = 0 → 1000 ≤ u32 req 20 → u32 req 20 ≤ 100000 → 1 ≤ u64 req 24 →
    u64 req 24 ≤ 2 ^ 39 →
    (if (s.chip.enc ch).mode = .ssi then u8 req 2 + 2 else u8 req 2 + 12) * 10000 + u32 req 12 * u8 req 1 ≤
      u32 req 8 * u8 req 1 →
    s.chip.chanArmed ch = false →
    Ends cmdSetSerial .posSetSerial mb req s stOK []
      (s.chip.setEnc ch { s.chip.enc ch with
        serRate := u8 req 1, serBits := u8 req 2, serCode := u8 req 3, serParity := u8 req 4, serPeriod := u32 req 8,
        serPause := u32 req 12, serDelay := u32 req 16, serStart := u32 req 20, serJump := u64 req 24, serPrev := none,
        serFails := 0 }) s.mem) ∧
  (-(2 ^ 47) ≤ i64 req 8 → i64 req 8 < 2 ^ 47 → s.chip.chanArmed ch = false →
    Ends cmdPreset .posPreset mb req s stOK []
      ((s.chip.setEnc ch { s.chip.enc ch with raw := i64 req 8, xc := i64 req 8 }).pushHistory ch) s.mem) ∧
  ((s.chip.enc ch).wbNow = 0 → s.chip.chanArmed ch = false → Issues cmdClearFault mb req s.chip →
    ∃ t, exec (.posClearFault mb req) s = .next t ∧ Ended mb stOK (s.chip.box mb).rsp [] t.chip ∧ t.mem = s.mem ∧
      t.chip.enc ch = { s.chip.enc ch with
        fault := false, sticky := 0, qerrCount := 0, serrCount := 0, serPrev := none, serFails := 0 } ∧
      t.chip.faulted 9 ch = false ∧
      ∀ k, k ≠ ch → t.chip.enc k = s.chip.enc k) ∧
  Ends cmdReadPos .posReadStatus mb req s stOK (blockBytes (s.chip.posBlock ch)) s.chip s.mem ∧
  (s.chip.chanArmed ch = true → (s.chip.enc ch).wbNow = 0 →
    Ends cmdClearFault .posClearFault mb req s stBADSTATE [] s.chip s.mem) ∧
  (ch ≤ 3 → u8 req 1 ≤ 7 → 4 ≤ u16 req 2 → u16 req 2 ≤ 1000 → 1 ≤ u32 req 4 → u32 req 4 ≤ u32 req 8 →
    u32 req 8 ≤ 16777215 → (∀ k, (k = 2 * ch ∨ k = 2 * ch + 1) → (s.chip.enc k).mode ≠ .bissC ∧ (s.chip.enc k).mode ≠ .ssi) →
    ∀ v, v = s.chip.divider ch →
    Ends cmdSetDivider .posSetDivider mb req s stOK []
      (s.chip.setDivider ch { v with
        source := some (u8 req 1), gap := u16 req 2, m := u32 req 4, n := u32 req 8,
        acc := if v.n = u32 req 8 ∧ v.source = some (u8 req 1) then v.acc else 0,
        backlog := if v.n = u32 req 8 ∧ v.source = some (u8 req 1) then v.backlog else 0 }) s.mem)

/-- R79 to R84: what the incremental and Hall decoders do at a change of their inputs, outside FAULT; a channel in OFF
follows its inputs and counts nothing. -/
def Obligations.PositionDecoders : Prop := ∀ s (ch : Fin 8), s.chip.power.held = false →
  (s.chip.enc ch.val).fault = false →
  (∀ a b, ((s.chip.enc ch.val).mode = .quadX4 ∨
      (s.chip.enc ch.val).mode = .quadX2 ∧ (b2n a = 1 ↔ bit (s.chip.enc ch.val).ab 1 = false) ∨
      (s.chip.enc ch.val).mode = .quadX1 ∧ b2n b = 0 ∧ bit (s.chip.enc ch.val).ab 0 = false) →
    (((s.chip.enc ch.val).ab, b2n a * 2 + b2n b) ∈ [(0, 2), (2, 3), (3, 1), (1, 0)] →
      ∃ t, exec (.quadDecode ch a b) s = .next t ∧ (t.chip.enc ch.val).ab = b2n a * 2 + b2n b ∧
        Counted ch.val (if (s.chip.enc ch.val).invert then -1 else 1) s.chip t.chip) ∧
    (((s.chip.enc ch.val).ab, b2n a * 2 + b2n b) ∈ [(2, 0), (3, 2), (1, 3), (0, 1)] →
      ∃ t, exec (.quadDecode ch a b) s = .next t ∧ (t.chip.enc ch.val).ab = b2n a * 2 + b2n b ∧
        Counted ch.val (if (s.chip.enc ch.val).invert then 1 else -1) s.chip t.chip)) ∧
  (∀ a b, ((s.chip.enc ch.val).mode = .quadX1 ∨ (s.chip.enc ch.val).mode = .quadX2 ∨ (s.chip.enc ch.val).mode = .quadX4) →
    ((s.chip.enc ch.val).ab, b2n a * 2 + b2n b) ∈ [(0, 3), (3, 0), (1, 2), (2, 1)] →
    ∃ t, exec (.quadDecode ch a b) s = .next t ∧ (t.chip.enc ch.val).ab = b2n a * 2 + b2n b ∧
      Errored ch.val 1 s.chip t.chip) ∧
  (∀ a b, ((s.chip.enc ch.val).mode = .quadX2 ∧ b2n a = (s.chip.enc ch.val).ab / 2 ∨
      (s.chip.enc ch.val).mode = .quadX1 ∧ (b = true ∨ bit (s.chip.enc ch.val).ab 0 = true)) →
    ((s.chip.enc ch.val).ab, b2n a * 2 + b2n b) ∈ [(0, 2), (2, 3), (3, 1), (1, 0), (2, 0), (3, 2), (1, 3), (0, 1)] →
    exec (.quadDecode ch a b) s = .next { s with
      chip := s.chip.setEnc ch.val (sawInputs (s.chip.enc ch.val)
        ((b2n a * 2 + b2n b) * 2 + (s.chip.enc ch.val).hallNow % 2)) }) ∧
  ((s.chip.enc ch.val).mode = .pulseDir →
    (∀ b, ∃ t, exec (.pulseDirEdge ch b false) s = .next t ∧
      Counted ch.val (if b = (s.chip.enc ch.val).invert then -1 else 1) s.chip t.chip) ∧
    (∀ b, ∃ t, exec (.pulseDirEdge ch b true) s = .next t ∧ Errored ch.val 1 s.chip t.chip)) ∧
  ((s.chip.enc ch.val).mode = .upDown →
    (∀ a, ∃ t, exec (.upDownEdge ch a !a) s = .next t ∧
      Counted ch.val (if a = (s.chip.enc ch.val).invert then -1 else 1) s.chip t.chip) ∧
    exec (.upDownEdge ch true true) s = .next { s with
      chip := s.chip.setEnc ch.val (sawInputs (s.chip.enc ch.val) ((s.chip.enc ch.val).hallNow ||| 6)) }) ∧
  ((s.chip.enc ch.val).mode = .hall → ∀ u : Fin 8, u.val ≠ (s.chip.enc ch.val).hallNow →
    (((s.chip.enc ch.val).hallRef, u.val) ∈ [(4, 6), (6, 2), (2, 3), (3, 1), (1, 5), (5, 4)] →
      ∃ t, exec (.hallStateChange ch u) s = .next t ∧ (t.chip.enc ch.val).hallRef = u.val ∧
        Counted ch.val (if (s.chip.enc ch.val).invert then -1 else 1) s.chip t.chip) ∧
    (((s.chip.enc ch.val).hallRef, u.val) ∈ [(6, 4), (2, 6), (3, 2), (1, 3), (5, 1), (4, 5)] →
      ∃ t, exec (.hallStateChange ch u) s = .next t ∧ (t.chip.enc ch.val).hallRef = u.val ∧
        Counted ch.val (if (s.chip.enc ch.val).invert then 1 else -1) s.chip t.chip) ∧
    ((u.val = 0 ∨ u.val = 7) →
      ∃ t, exec (.hallStateChange ch u) s = .next t ∧ (t.chip.enc ch.val).hallRef = (s.chip.enc ch.val).hallRef ∧
        Errored ch.val 2 s.chip t.chip) ∧
    (∀ p q, hallPlace u.val = some p → hallPlace (s.chip.enc ch.val).hallRef = some q → (p + 6 - q) % 6 ∈ [2, 3, 4] →
      ∃ t, exec (.hallStateChange ch u) s = .next t ∧ (t.chip.enc ch.val).hallRef = u.val ∧
        Errored ch.val 1 s.chip t.chip) ∧
    (u.val = (s.chip.enc ch.val).hallRef → hallPlace u.val ≠ none →
      exec (.hallStateChange ch u) s = .next { s with
        chip := s.chip.setEnc ch.val (sawInputs (s.chip.enc ch.val) u.val) })) ∧
  (((s.chip.enc ch.val).mode = .quadX1 ∨ (s.chip.enc ch.val).mode = .quadX2 ∨ (s.chip.enc ch.val).mode = .quadX4) →
    ∀ u : Fin 8, u.val ≠ (s.chip.enc ch.val).hallNow →
      exec (.hallStateChange ch u) s = .next { s with
        chip := s.chip.setEnc ch.val (sawInputs (s.chip.enc ch.val) ((s.chip.enc ch.val).ab * 2 + u.val % 2)) }) ∧
  ((s.chip.enc ch.val).mode = .off →
    (∀ a b, b2n a * 2 + b2n b ≠ (s.chip.enc ch.val).ab →
      exec (.quadDecode ch a b) s = .next { s with
        chip := s.chip.setEnc ch.val (sawInputs (s.chip.enc ch.val)
          ((b2n a * 2 + b2n b) * 2 + (s.chip.enc ch.val).hallNow % 2)) }) ∧
    ∀ u : Fin 8, u.val ≠ (s.chip.enc ch.val).hallNow →
      exec (.hallStateChange ch u) s = .next { s with
        chip := s.chip.setEnc ch.val (sawInputs (s.chip.enc ch.val) u.val) })

/-- R74, R75, R87 to R90, R92, R98, R101: the index, wire breaks, serial readings, a divider's steps, the latching read
and the levels of the DO outputs. -/
def Obligations.PositionEvents : Prop := ∀ s (ch : Fin 8), s.chip.power.held = false →
  (((s.chip.enc ch.val).mode = .quadX1 ∨ (s.chip.enc ch.val).mode = .quadX2 ∨ (s.chip.enc ch.val).mode = .quadX4 ∨
      (s.chip.enc ch.val).mode = .pulseDir ∨ (s.chip.enc ch.val).mode = .upDown) →
    ∀ ab e, e = sawInputs (s.chip.enc ch.val) ((s.chip.enc ch.val).hallNow ||| 1) → ((s.chip.enc ch.val).qualifier = 0 ∨ ab = true) →
    ((s.chip.enc ch.val).indexAction = 1 →
      ∃ t, exec (.indexEdge ch ab) s = .next t ∧
        t.chip.enc ch.val = { e with
          zCnt := (s.chip.enc ch.val).raw,
          zTime := (s.chip.time.tb - (s.chip.enc ch.val).filterN * 163840) / 65536 }) ∧
    ((s.chip.enc ch.val).indexAction = 2 → (s.chip.enc ch.val).fault = false →
      ∃ t, exec (.indexEdge ch ab) s = .next t ∧
        t.chip.enc ch.val = { e with
          raw := (s.chip.enc ch.val).home, xc := (s.chip.enc ch.val).home, reverse := false, indexAction := 0,
          zCnt := (s.chip.enc ch.val).raw,
          zTime := (s.chip.time.tb - (s.chip.enc ch.val).filterN * 163840) / 65536 })) ∧
  (∀ p : Fin 3, (s.chip.enc ch.val).mode ≠ .off → ((s.chip.enc ch.val).mode ≠ .bissC ∧ (s.chip.enc ch.val).mode ≠ .ssi ∨ p.val = 0) →
    bit (s.chip.enc ch.val).wbMask p.val = true → bit (s.chip.enc ch.val).wbNow p.val = false →
    ∃ t, exec (.wireBreakSet ch p) s = .next t ∧ (t.chip.enc ch.val).fault = true ∧
      (t.chip.enc ch.val).raw = (s.chip.enc ch.val).raw ∧ (t.chip.enc ch.val).xc = (s.chip.enc ch.val).xc ∧
      ((s.chip.enc ch.val).fault = false → (t.chip.enc ch.val).speed = .invalid) ∧
      bit (t.chip.enc ch.val).sticky 0 = true ∧ bit (t.chip.enc ch.val).wbNow p.val = true ∧
      ((s.chip.enc ch.val).fault = false → t.chip.faulted 9 ch.val = true) ∧
      (s.chip.covers 3 ch.val = false → t.chip.ev.waiting.getLast? =
        some { line := 8, kind := 1, inst := ch.val, detail := 0x1000 + 2 ^ p.val,
               value := unsigned 64 (s.chip.enc ch.val).raw, time := s.chip.t64, source := 0x3FF })) ∧
  (∀ p : Fin 3, exec (.wireBreakClear ch p) s = .next { s with
      chip := s.chip.setEnc ch.val { s.chip.enc ch.val with
        wbNow := clearBits (s.chip.enc ch.val).wbNow (2 ^ p.val) } }) ∧
  ((s.chip.enc ch.val).mode = .ssi → (s.chip.enc ch.val).serParity = 0 → (s.chip.enc ch.val).serCode = 0 →
    ∀ r par, r < 2 ^ (s.chip.enc ch.val).serBits → (s.chip.enc ch.val).fault = false →
    ((s.chip.enc ch.val).serPrev = none →
      ∃ t, exec (.serialReading ch (.ssi r par)) s = .next t ∧
        (t.chip.enc ch.val).raw = wrap48 ((s.chip.enc ch.val).home + r) ∧
        ((t.chip.enc ch.val).xc, (t.chip.enc ch.val).reverse) =
          (if 0 < posDiff (t.chip.enc ch.val).raw (s.chip.enc ch.val).xc then ((t.chip.enc ch.val).raw, false)
           else if posDiff (t.chip.enc ch.val).raw (s.chip.enc ch.val).xc < -1 then
             (wrap48 ((t.chip.enc ch.val).raw + 1), true)
           else ((s.chip.enc ch.val).xc, (s.chip.enc ch.val).reverse)) ∧
        (t.chip.enc ch.val).serPrev = some r) ∧
    (∀ p d, (s.chip.enc ch.val).serPrev = some p → d = signed (s.chip.enc ch.val).serBits
        (unsigned (s.chip.enc ch.val).serBits ((r : Int) - p)) → d.natAbs ≤ (s.chip.enc ch.val).serJump → d ≠ 0 →
      ∃ t, exec (.serialReading ch (.ssi r par)) s = .next t ∧ (t.chip.enc ch.val).serPrev = some r ∧
        Counted ch.val (if (s.chip.enc ch.val).invert then -d else d) s.chip t.chip) ∧
    ((s.chip.enc ch.val).serFails = 2 →
      ∃ t, exec (.serialReading ch .heldLow) s = .next t ∧ (t.chip.enc ch.val).fault = true ∧
        (t.chip.enc ch.val).raw = (s.chip.enc ch.val).raw ∧ bit (t.chip.enc ch.val).sticky 3 = true ∧
        (t.chip.enc ch.val).serrCount = min ((s.chip.enc ch.val).serrCount + 1) 65535)) ∧
  (∀ (p : Fin 4) k, (s.chip.divider p.val).source = some k → (s.chip.divider p.val).backlog ≠ 0 →
    ∃ t, exec (.dividerOutputStep p) s = .next t ∧
      t.chip.pos.divs = s.chip.pos.divs.put p.val { s.chip.divider p.val with
        backlog := (s.chip.divider p.val).backlog - (if 0 < (s.chip.divider p.val).backlog then 1 else -1),
        emitted := (s.chip.divider p.val).emitted + (if 0 < (s.chip.divider p.val).backlog then 1 else -1) } ∧
      t.chip.pos.chans = s.chip.pos.chans) ∧
  (s.chip.power.pwrEn = true →
    s.chip.doPin ch.val =
      (if (s.chip.enc ch.val).mode = .off then .highZ
       else if (s.chip.enc ch.val).mode = .bissC ∨ (s.chip.enc ch.val).mode = .ssi then .level true
       else if (s.chip.divider (ch.val / 2)).source = none then .highZ
       else .level (phaseLevel (ch.val % 2 == 1) (s.chip.divider (ch.val / 2)).emitted))) ∧
  (∀ view, validView view = true → s.chip.reaches view = true →
    exec (.posCntLoRead view ch) s = .next { s with
      chip := ({ s.chip with
        rd := le 4 (unsigned 48 (s.chip.enc ch.val).raw % 2 ^ 32),
        pos.latches := s.chip.pos.latches.put (view * 8 + ch.val) (s.chip.posBlock ch.val) } : Chip).complete view 0 0 })

/-- R374, R432 to R435, R439, R442, R445: the safety commands, each where its own checks pass, and LEAVE_SAFE_STATE
where it does not. -/
def Obligations.SafetyCommands : Prop := ∀ mb req s,
  (∀ i scope, i = u8 req 0 → scope = u64 req 8 → i ≤ 3 → clearBits scope (Chip.scopeMask i) = 0 →
    (u8 req 1 = 1 → s.chip.safety.all = [] → (i = 0 → bits scope 0 16 = 0) → (i = 2 → s.chip.armedIn scope = []) →
      (i = 3 → ∀ k < 8, bit scope k = true → Chip.encUnsafe (s.chip.enc k) = false) →
      Ends cmdSetFunction .safetySetFunction mb req s stOK []
        (s.chip.setSafeFn i { s.chip.safeFn i with
          enabled := true, scope := scope,
          state := if (s.chip.safeFn i).state = .disabled then .active else (s.chip.safeFn i).state }) s.mem) ∧
    (u8 req 1 = 0 → (i = 3 → (s.chip.safeFn 2).enabled = false) →
      Ends cmdSetFunction .safetySetFunction mb req s stOK []
        (s.chip.setSafeFn i { enabled := false, scope := scope, state := .disabled, cause := 0, detect := 0,
                              onlyMode := false, causes := [] }) s.mem)) ∧
  (∀ one : Nat → List Byte, (∀ k, one k =
      le 1 (if (s.chip.safeFn k).enabled then 1 else 0) ++ le 1 (fnCode (s.chip.safeFn k).state) ++
        le 2 (s.chip.safeFn k).cause ++ le 8 (s.chip.safeFn k).scope ++ le 8 (s.chip.safeFn k).detect) →
    Ends cmdReadSafety .safetyReadStatus mb req s stOK
      (le 1 (if s.chip.safety.safe then 1 else 0) ++
        le 1 ((if s.chip.safety.pinA then 1 else 0) + 2 * (if s.chip.safety.pinB then 1 else 0)) ++ le 2 0 ++
        one 0 ++ one 1 ++ one 2 ++ one 3) s.chip s.mem) ∧
  Ends cmdReadFaults .safetyReadFaults mb req s stOK
    (le 1 s.chip.mgmt.faults.length ++ le 7 0 ++ (s.chip.mgmt.faults.map fun f =>
      le 1 f.kind ++ le 1 f.inst ++ le 2 0 ++ le 4 (min ((s.chip.up - f.since) / msU) 0xFFFFFFFF) ++ le 8 f.t64).flatten)
    s.chip s.mem ∧
  ((s.chip.safety.all ≠ [] ∨ ∃ i < 4, (s.chip.safeFn i).state = .demand) →
    Ends cmdLeaveSafe .safetyLeaveSafeState mb req s stBADSTATE [] s.chip s.mem) ∧
  (s.chip.safety.all = [] → (∀ i < 4, (s.chip.safeFn i).state ≠ .demand) → s.chip.safety.safe = true →
    Issues cmdLeaveSafe mb req s.chip →
    ∃ t, exec (.safetyLeaveSafeState mb req) s = .next t ∧ Ended mb stOK (s.chip.box mb).rsp [] t.chip ∧
      t.chip.safety.safe = false ∧ t.chip.safety.resume = true ∧ t.chip.safety.beat = s.chip.safety.beat ∧
      ∀ i < 4, t.chip.safeFn i =
        if (s.chip.safeFn i).state = .latched then
          { s.chip.safeFn i with state := .active, cause := 0, detect := 0 }
        else s.chip.safeFn i)

/-- R436, R437, R439, R440, R442, R448, R450, R451: the monitor's own checks, their reaction and the pins; the fault,
the self-test and the return of a management pair. How long a momentary cause is present is the model's choice (log
21). -/
def Obligations.MonitorAndPairs : Prop :=
  (∀ s, s.chip.power.held = false →
  (∀ core, ((0x0F02, if core then 0 else 1) ∉ s.chip.safety.all) →
    ∃ t, exec (.supplyOutOfRange core true) s = .next t ∧ t.chip.safety.safe = true ∧
      (∀ i < 4, (s.chip.safeFn i).enabled = true → (t.chip.safeFn i).state = .demand ∧
        ((s.chip.safeFn i).state = .active → (t.chip.safeFn i).cause = 0x0F02 ∧ (t.chip.safeFn i).detect = s.chip.t64)) ∧
      (s.chip.safety.safe = false → t.chip.safety.pinA = false ∧ t.chip.safety.pinB = true ∧
        t.chip.safety.beat = false ∧
        t.chip.ev.waiting = s.chip.ev.waiting ++
          [{ line := 0x22, kind := 1, inst := 0xFF, detail := 0x0F02, value := s.chip.t64 % 2 ^ 64, time := s.chip.t64,
             source := 0x3FF }])) ∧
  (∀ core, s.chip.safety.all = [(0x0F02, if core then 0 else 1)] →
    ∃ t, exec (.supplyOutOfRange core false) s = .next t ∧ t.chip.safety.all = [] ∧
      t.chip.safety.safe = s.chip.safety.safe ∧
      ∀ i < 4, (s.chip.safeFn i).state = .demand → (s.chip.safeFn i).causes = [] → (s.chip.safeFn i).onlyMode = false →
        t.chip.safeFn i = { s.chip.safeFn i with state := .latched }) ∧
  (∀ ch : Fin 2, (s.chip.safeFn 1).enabled = true → (s.chip.safeFn 1).state = .active → (s.chip.safeFn 1).causes = [] →
    s.chip.safety.all = [] →
    (∀ u, s.chip.safety.lastT = some u → s.chip.t64 < u →
      ∃ t, exec (.safetyRegisterCheck ch true true ⟨true, HwWrong.none⟩) s = .next t ∧ t.chip.safety.safe = true ∧
        (t.chip.safeFn 1).state = .demand ∧ (t.chip.safeFn 1).cause = 0x0202 ∧ t.chip.safety.lastT = some s.chip.t64) ∧
    (∀ u, s.chip.safety.lastT = some u → u ≤ s.chip.t64 →
      ∃ t, exec (.safetyRegisterCheck ch true true ⟨true, HwWrong.none⟩) s = .next t ∧ t.chip.safety.safe = s.chip.safety.safe ∧
        t.chip.safeFn 1 = s.chip.safeFn 1 ∧ t.chip.safety.lastT = some s.chip.t64)) ∧
  (s.chip.safety.beat = true → s.chip.safety.safe = false → s.chip.safety.modeOnly = false →
    (∃ t, exec (.heartbeatPeriod true true) s = .next t ∧ t.chip.safety.pinA = true ∧ t.chip.safety.pinB = false ∧
      t.chip.safety.safe = false ∧ t.chip.safety.beat = true) ∧
    ((0x0F04, 0) ∉ s.chip.safety.all →
      ∃ t, exec (.heartbeatPeriod false true) s = .next t ∧ t.chip.safety.pinA = false ∧ t.chip.safety.pinB = true ∧
        t.chip.safety.safe = true ∧ t.chip.faulted 0x0A 0 = true)) ∧
  (s.chip.safety.resume = true → s.chip.safety.safe = false → s.chip.safety.modeOnly = false → s.chip.safety.all = [] →
    (∀ i < 4, (s.chip.safeFn i).enabled = true → (s.chip.safeFn i).state = .active) →
    ∃ t, exec (.heartbeatPeriod true true) s = .next t ∧ t.chip.safety.pinA = true ∧ t.chip.safety.pinB = false ∧
      t.chip.safety.beat = true ∧ t.chip.safety.resume = false)) ∧
  (∀ s, s.chip.power.held = false →
  (s.chip.mgmt.active = 0 → s.chip.mgmt.pairA = .active → s.chip.mgmt.pairB = .standby → s.chip.mbx.tickets = [] →
    ∃ t, exec .lockstepMismatch s = .next t ∧ t.chip.mgmt.pairA = .faulted ∧ t.chip.mgmt.pairB = .active ∧
      t.chip.mgmt.active = 1 ∧ t.chip.board.running = s.chip.mgmt.imageB ∧ t.chip.faulted 0x06 0 = true ∧
      (∀ i < 4, (t.chip.mc i).abandoned = true) ∧ t.chip.store = s.chip.store ∧ t.chip.trig = s.chip.trig) ∧
  (s.chip.mgmt.active = 0 → s.chip.mgmt.pairA = .active → s.chip.mgmt.pairB ≠ .standby → s.chip.mbx.tickets = [] →
    ∃ t, exec .lockstepMismatch s = .next t ∧ t.chip.mgmt.pairA = .faulted ∧ t.chip.mgmt.pairB = s.chip.mgmt.pairB) ∧
  (∀ p : Fin 2, s.chip.pairState p.val = .faulted →
    exec (.pairSelfTestDone p false) s = .next s ∧
    (s.chip.pairActive = true →
      ∃ t, exec (.pairSelfTestDone p true) s = .next t ∧ t.chip.pairState p.val = .standby ∧
        t.chip.pairState (1 - p.val) = s.chip.pairState (1 - p.val) ∧ t.chip.faulted 0x06 p.val = false ∧
        t.chip.mgmt.mirrored = 0) ∧
    (s.chip.pairActive = false →
      ∃ t, exec (.pairSelfTestDone p true) s = .next t ∧ t.chip.pairState p.val = .active ∧
        t.chip.mgmt.active = p.val ∧ t.chip.faulted 0x06 p.val = false)) ∧
  (∀ p : Fin 2, s.chip.pairState p.val = .booting → s.chip.pairActive = true →
    ∃ t, exec (.standbyPairReady p) s = .next t ∧ t.chip.pairState p.val = .standby ∧ t.chip.mgmt.mirrored = 0 ∧
      t.chip.pairState (1 - p.val) = s.chip.pairState (1 - p.val) ∧ t.chip.ev = s.chip.ev))

/-- R51 to R54, R371: the arming of trigger compare units, each where its own checks pass; an armed unit is not armed
again. -/
def Obligations.TriggerArming : Prop := ∀ mb req s u h x, u = u8 req 0 → h = trigHead (s.chip.ctxOf mb) req →
  x = s.chip.comparePos h → s.chip.headBad (s.chip.ctxOf mb) u req h = false →
  ∀ fresh : TrigUnit, fresh = { s.chip.unit u with
      state := 1, spent := false, head := h, index := 0, used := 0, hi := none, lo := none, seen := x, low := x,
      high := x, sent := none, motion := false, held := [], overrun := false } →
  (s.chip.headBusy u h = false →
    (∀ v : Int, v = (if posSource h.source then i64 req 12 else u64 req 12) →
      (posSource h.source = true → -(2 ^ 47) ≤ v ∧ v < 2 ^ 47 ∧ Chip.behind x v h.direction = false) →
      (h.source = 8 → s.chip.time.tb + h.lead * nsU ≤ v * 65536) →
      Ends cmdArmOneshot .trigArmOneshot mb req s stOK []
        (s.chip.setUnit u { fresh with mode := .oneShot v }) s.mem) ∧
    (∀ v : Int, v = (if posSource h.source then i64 req 12 else u64 req 12) → 1 ≤ u32 req 20 → u8 req 28 = 0 →
      (posSource h.source = true → -(2 ^ 47) ≤ v ∧ v < 2 ^ 47 ∧ Chip.behind x v h.direction = false) →
      (h.source = 8 → 1000 ≤ u32 req 20 ∧ s.chip.time.tb + h.lead * nsU ≤ v * 65536) →
      Ends cmdArmPeriodic .trigArmPeriodic mb req s stOK []
        (s.chip.setUnit u { fresh with mode := .periodic v (u32 req 20) (u32 req 24) }) s.mem) ∧
    (∀ k : Nat, h.source = 8 → 1000 ≤ u32 req 20 → u8 req 28 = 1 →
      s.chip.time.tb + h.lead * nsU ≤ (u64 req 12 + k * u32 req 20) * 65536 →
      (k ≠ 0 → (u64 req 12 + (k - 1) * u32 req 20) * 65536 < s.chip.time.tb + h.lead * nsU) →
      Ends cmdArmPeriodic .trigArmPeriodic mb req s stOK []
        (s.chip.setUnit u { fresh with
          mode := .periodic (u64 req 12 + k * u32 req 20 : Nat) (u32 req 20) (u32 req 24) }) s.mem) ∧
    (∀ v k : Int, v = i64 req 12 → posSource h.source = true → h.direction = 0 → 1 ≤ u32 req 20 → u8 req 28 = 1 →
      v.natAbs < 2 ^ 46 → x.natAbs < 2 ^ 46 → x < v + k * u32 req 20 → v + (k - 1) * u32 req 20 ≤ x →
      Ends cmdArmPeriodic .trigArmPeriodic mb req s stOK []
        (s.chip.setUnit u { fresh with mode := .periodic (v + k * u32 req 20) (u32 req 20) (u32 req 24) }) s.mem) ∧
    (∀ first n delta e, first = u32 req 12 → n = u32 req 16 → delta = i64 req 24 → e = s.chip.trig.table.getD 0 →
      posSource h.source = true → h.direction < 2 → 1 ≤ n → first + n ≤ 65536 →
      (∀ i, i + 1 < n → 0 < Chip.dirSign h.direction * posDiff (e (first + i + 1)) (e (first + i))) →
      -(2 ^ 47) ≤ delta → delta < 2 ^ 47 →
      (u8 req 20 = 0 ∨
        u8 req 20 = 1 ∧ 0 < Chip.dirSign h.direction * posDiff (e first + delta) (e (first + n - 1))) →
      Chip.behind x (e first) h.direction = false →
      Ends cmdArmTable .trigArmTable mb req s stOK []
        (s.chip.setUnit u { fresh with mode := .table first n (u8 req 20 == 1) delta }) s.mem)) ∧
  ((s.chip.unit u).state = 1 →
    (posSource h.source = true → -(2 ^ 47) ≤ i64 req 12 ∧ i64 req 12 < 2 ^ 47) →
    Ends cmdArmOneshot .trigArmOneshot mb req s stBADSTATE [] s.chip s.mem)

/-- R60 to R67, R371: the other trigger commands, each where its own checks pass. -/
def Obligations.TriggerCommands : Prop := ∀ mb req s,
  (∀ u, u = u8 req 0 → u ≤ 31 → (s.chip.unit u).state = 1 →
    ((s.chip.unit u).held = [] →
      Ends cmdDisarm .trigDisarm mb req s stOK [] (s.chip.setUnit u { s.chip.unit u with state := 0, held := [] }) s.mem) ∧
    (Issues cmdDisarm mb req s.chip →
      ∃ t, exec (.trigDisarm mb req) s = .next t ∧ Ended mb stOK (s.chip.box mb).rsp [] t.chip ∧
        (t.chip.unit u).state = 0 ∧ (t.chip.unit u).held = [])) ∧
  (∀ first n, first = u32 req 0 → n = u16 req 4 → 1 ≤ n → n ≤ 511 → first + n ≤ 65536 →
    (∀ i < n, -(2 ^ 47) ≤ i64 req (8 + 8 * i) ∧ i64 req (8 + 8 * i) < 2 ^ 47) → s.chip.tableUsed first n = false →
    Issues cmdLoadTable mb req s.chip →
    ∃ t, exec (.trigLoadTable mb req) s = .next t ∧ Ended mb stOK (s.chip.box mb).rsp [] t.chip ∧
      (∀ i < n, t.chip.trig.table.getD 0 (first + i) = i64 req (8 + 8 * i)) ∧
      ∀ k, (k < first ∨ first + n ≤ k) → t.chip.trig.table.getD 0 k = s.chip.trig.table.getD 0 k) ∧
  (∀ p, p = u8 req 0 → p ≤ 23 → u8 req 2 ≤ 2 → -1000000000 ≤ i64 req 4 → i64 req 4 ≤ 1000000000000 →
    i64 req 4 % 100 = 0 → u64 req 12 % 100 = 0 → s.chip.pinUsed p = false →
    (u8 req 1 ≤ 1 → u8 req 3 = 0xFF →
      Ends cmdSetPin .trigSetPin mb req s stOK []
        (s.chip.setPin p { s.chip.pin p with
          output := u8 req 1 == 1, edge := u8 req 2, unit := none, offset := i64 req 4, high := u64 req 12 }) s.mem) ∧
    (∀ u, u = u8 req 3 → u8 req 1 = 1 → u ≤ 31 → 2000 ≤ u64 req 12 → u64 req 12 ≤ 4000000000000 →
      ((s.chip.unit u).state = 1 → -i64 req 4 ≤ (s.chip.unit u).head.lead * 1000 - 1000000 ∨ 0 ≤ i64 req 4) →
      Ends cmdSetPin .trigSetPin mb req s stOK []
        (s.chip.setPin p { s.chip.pin p with
          output := true, edge := u8 req 2, unit := some u, offset := i64 req 4, high := u64 req 12 }) s.mem)) ∧
  (∀ p t0, p = u8 req 0 → p ≤ 23 → u8 req 1 = 1 → ofTb96 (fieldAt req 4 12) = some t0 →
    s.chip.time.tb ≤ steps100 (roundDiv (t0 * 10) 65536).toNat →
    u64 req 16 % 100 = 0 → 2000 ≤ u64 req 16 → u64 req 16 ≤ 4000000000000 → u64 req 24 = 0 → 1 ≤ u16 req 32 → (s.chip.pin p).output = true →
    s.chip.time.pendingStep = none → ((s.chip.pin p).pulses.filter (·.scheduled)).length < 16 →
    Ends cmdSchedule .trigSchedulePulses mb req s stOK []
      (s.chip.setPin p { s.chip.pin p with
        pulses := (s.chip.pin p).pulses ++
          [{ start := steps100 (roundDiv (t0 * 10) 65536).toNat, high := steps100 (u64 req 16 / 100), period := 0, count := 1,
             scheduled := true }] }) s.mem) ∧
  (∀ w a b, w = u8 req 0 → w ≤ 15 → u8 req 1 ≤ 1 → winEvent (u8 req 2) (u8 req 4) (u8 req 6) (u64 req 8) = some a →
    winEvent (u8 req 3) (u8 req 5) (u8 req 7) (u64 req 16) = some b → winClash a b = false →
    s.chip.time.pendingStep = none → (s.chip.window w).phase ≠ .opened →
    (∀ i, a = .time i → s.chip.time.tb ≤ i * 65536) → Issues cmdArmWindow mb req s.chip →
    ∃ t, exec (.trigArmWindow mb req) s = .next t ∧ Ended mb stOK (s.chip.box mb).rsp [] t.chip ∧
      (t.chip.window w).phase = .waiting ∧ ((t.chip.window w).rearm = true ↔ u8 req 1 = 1) ∧
      (t.chip.window w).start = a ∧ (t.chip.window w).stop = b ∧
      ∀ e, e ∈ (t.chip.window w).events ↔
        (∃ i, a = .time i ∧ e = { at_ := i * 65536, stop := false }) ∨
          (∃ i, b = .time i ∧ e = { at_ := i * 65536, stop := true })) ∧
  (∀ w ws, w = u8 req 0 → w ≤ 15 → ws = s.chip.window w → u8 req 1 ≤ 1 → ws.phase ≠ .unarmed →
    (if u8 req 1 = 1 then ws.stop else ws.start) = .command → Issues cmdWindowEvent mb req s.chip →
    ∃ t before after, exec (.trigWindowEvent mb req) s = .next t ∧ Ended mb stOK (s.chip.box mb).rsp [] t.chip ∧
      ws.events = before ++ after ∧
      t.chip.window w = { ws with events := before ++ { at_ := s.chip.time.tb, stop := u8 req 1 == 1 } :: after } ∧
      (∀ e ∈ before, e.at_ ≤ s.chip.time.tb) ∧ ∀ e, after.head? = some e → s.chip.time.tb < e.at_) ∧
  (∀ u v sign, u = u8 req 0 → u ≤ 31 → v = s.chip.unit u →
    sign = (if posSource v.head.source = true ∧ v.head.direction = 1 then -1 else 1) →
    Ends cmdReadTrig .trigReadStatus mb req s stOK
      (le 1 (if v.state = 1 ∧ s.chip.unitHeld u = true then 2 else v.state) ++ le 1 (if v.overrun then 1 else 0) ++ le 2 0 ++ le 4 v.fired ++ le 4 v.late ++ le 4 v.skipped ++
        le 8 (unsigned 64 (if v.state = 1 ∧ v.spent = false then (s.chip.seqPos v.mode sign v.index).getD 0 else 0)) ++
        le 8 v.lastInstant) s.chip s.mem)

/-- R50, R56 to R64, R66, R68, R69, R411, R438: what the units, the pins and the windows do at their instants. -/
def Obligations.TriggerEvents : Prop := ∀ s, s.chip.power.held = false →
  (∀ (u : Fin 32) v x, v = s.chip.unit u.val → v.state = 1 → v.spent = false → v.head.source = 8 →
    v.mode = .oneShot x → v.head.port = none → v.head.window = none → s.chip.boundPins u.val = [] → s.chip.safeHeld u.val = false →
    s.chip.time.tb ≤ x.toNat * 65536 →
    ∃ t, exec (.timeUnitSend u) s = .next t ∧
      t.chip.unit u.val = { v with
        index := v.index + 1, used := v.used + 1, spent := true, fired := (v.fired + 1) % 2 ^ 32,
        lastInstant := x.toNat * 65536 / 65536,
        fires := v.fires ++
          [{ instant := x.toNat * 65536, tp := x.toNat * 65536, delayed := false, lost := false, fireId := none,
             port := none, event := v.head.event, window := none, source := 8 }] }) ∧
  (∀ (u : Fin 32) v x, v = s.chip.unit u.val → v.state = 1 → v.spent = false → v.head.source = 8 →
    v.mode = .oneShot x → s.chip.unitHeld u.val = true → s.chip.time.tb < x.toNat * 65536 →
    exec (.timeUnitSend u) s = .next { s with
      chip := s.chip.setUnit u.val { v with
        index := v.index + 1, used := v.used + 1, spent := true, held := v.held ++ [{ tp := x.toNat * 65536, pos := none }] } }) ∧
  (∀ (u : Fin 32) v f, v = s.chip.unit u.val → v.held = [] → v.fires = [f] → f.lost = false → f.port = none →
    f.source < 0x40 → s.chip.latchWrong u.val = false →
    ∃ t, exec (.fireInstant u) s = .next t ∧
      t.chip.unit u.val = { v with fires := [], state := if v.state = 1 ∧ v.spent = true then 3 else v.state } ∧
      t.chip.ev.waiting = s.chip.ev.waiting ++
        (if f.event then
          [{ line := 3, kind := 1, inst := u.val, detail := 0xFF,
             value := unsigned 64 (if f.source < 8 then (s.chip.enc f.source).raw else 0) % 2 ^ 64,
             time := f.instant / 65536, source := 0x3FF }] else [])) ∧
  (∀ (p : Fin 24) v q, v = s.chip.pin p.val → v.output = true → v.pulses = [q] → v.falls = [] →
    exec (.pinPulseStart p) s = .next { s with
      chip := s.chip.setPin p.val { v with
        pulses := if q.period = 0 ∨ q.count ≤ 1 then []
          else [{ q with start := round100 (q.start + q.period), count := q.count - 1 }],
        falls := [round100 (q.start + q.high)] } }) ∧
  (∀ (p : Fin 24) v f, v = s.chip.pin p.val → v.falls = [f] →
    exec (.pinPulseEnd (some p)) s = .next { s with chip := s.chip.setPin p.val { v with falls := [] } }) ∧
  exec (.pinPulseEnd none) s = .next { s with chip := { s.chip with time.ppsUntil := none } } ∧
  (∀ (p : Fin 24) r, (s.chip.pin p.val).output = false →
    ((s.chip.pin p.val).edge = 2 ∨ (s.chip.pin p.val).edge = (if r then 0 else 1)) →
    (s.chip.ev.waiting.filter fun e => e.line == (if p.val < 12 then 4 else 5) && e.inst == p.val).length < 64 →
    ∃ t more, exec (.pinInputEdge p r) s = .next t ∧
      t.chip.ev.waiting = s.chip.ev.waiting ++
        { line := if p.val < 12 then 4 else 5, kind := 1, inst := p.val, detail := round100 s.chip.time.tb % 65536,
          value := if r then 1 else 0, time := round100 s.chip.time.tb / 65536, source := 0x3FF } :: more) ∧
  (∀ (w : Fin 16) ws e rest, ws = s.chip.window w.val → ws.events = e :: rest →
    (∀ f ∈ rest, 163840 ≤ ((e.at_ : Int) - f.at_).natAbs) →
    (ws.phase = .waiting → e.stop = false → (ws.rearm = false ∨ ws.ended = 0 ∨ ws.ended < e.at_) →
      exec (.windowEventAct w) s = .next { s with
        chip := s.chip.setWindow w.val { ws with events := rest, phase := .opened, tStart := e.at_ } }) ∧
    (ws.phase = .opened → e.stop = true → ws.tStart + 163840 ≤ e.at_ →
      ∃ t, exec (.windowEventAct w) s = .next t ∧
        t.chip.window w.val = { ws with
          events := rest, phase := if ws.rearm then .waiting else .ended, ended := e.at_,
          past := (ws.tStart, e.at_) :: ws.past } ∧
        t.chip.ev.waiting = s.chip.ev.waiting ++
          [{ line := 7, kind := 1, inst := w.val, detail := 0, value := ws.tStart / 65536 % 2 ^ 64,
             time := e.at_ / 65536, source := 0x3FF }]) ∧
    (ws.phase = .waiting → e.stop = true → ws.rearm = false →
      ∃ t, exec (.windowEventAct w) s = .next t ∧ (t.chip.window w.val).phase = .ended ∧
        t.chip.ev.waiting = s.chip.ev.waiting ++
          [{ line := 7, kind := 1, inst := w.val, detail := 2, value := 0, time := e.at_ / 65536, source := 0x3FF }]) ∧
    (ws.phase = .opened → e.stop = false → exec (.windowEventAct w) s = .next { s with
        chip := s.chip.setWindow w.val { ws with events := rest, ignored := ws.ignored + 1 } })) ∧
  (∀ (w : Fin 16) (i : Fin 512) st f rest, s.chip.stream? i.val = some st → st.window = some w.val →
    st.frames = f :: rest → f.phase = .judging → (∀ g ∈ rest, g.phase = .judging) →
    Chip.windowPasses (s.chip.window w.val) f.trigAt = false → st.place.seam = true →
    exec (.windowFrameJudge w i) s = .next { s with chip := s.chip.setStream i.val { st with frames := rest } }) ∧
  (∀ (u : Fin 32) v x, v = s.chip.unit u.val → v.state = 1 → v.spent = false → v.head.source = 8 →
    v.mode = .oneShot x → v.head.port ≠ none → v.held = [] → v.fires = [] → s.chip.unitHeld u.val = false →
    s.chip.shadowWrong u.val = true → s.chip.time.tb < x.toNat * 65536 →
    s.chip.time.tb + s.chip.lMin v.head.port ≤ x.toNat * 65536 →
    ∃ t, exec (.timeUnitSend u) s = .next t ∧ t.chip.cam = s.chip.cam ∧
      (0x0301, u.val) ∈ (t.chip.safeFn 2).causes ∧
      t.chip.unit u.val = { v with
        index := v.index + 1, used := v.used + 1, spent := true,
        fires := [{ instant := x.toNat * 65536, tp := x.toNat * 65536, delayed := false, lost := true, fireId := none,
                    port := v.head.port, event := false, window := none, source := 8 }] }) ∧
  (∃ t, exec .positionPublication s = .next t ∧
    ∀ ch < 8, t.chip.enc ch = { s.chip.enc ch with speed := Chip.publishedSpeed (s.chip.enc ch) s.chip.time.tb })

/-- R102 to R106, R125, R130: roles and rates of quads, each where its own checks pass. -/
def Obligations.QuadCommands : Prop := ∀ mb req s,
  (∀ q role, q = u8 req 0 → role = roleOf (u8 req 1) → q ≤ 15 → u8 req 1 ≤ 2 → u8 req 2 ≤ 1 → u8 req 3 ≤ 3 →
    (role = .seam ∨ u8 req 3 = 0) → s.chip.wideBonds q = [] →
    (role = .seam → 4 ≤ s.chip.stageNo) →
    (s.chip.seam.links.filter fun e => e.2.quad != q).length +
      (if role = .seam then (layoutLinks (u8 req 3)).length else 0) ≤ 16 →
    s.chip.quadUsed q = false →
    ¬ ((s.chip.quad q).role = role ∧ (s.chip.quad q).mode = u8 req 2 ∧ (s.chip.quad q).layout = u8 req 3) →
    Issues Sys2Proof.Machine.cmdSetRole mb req s.chip →
    ∃ t, exec (.laneSetRole mb req) s = .next t ∧ Ended mb stOK (s.chip.box mb).rsp [] t.chip ∧ t.mem = s.mem ∧
      (t.chip.quad q).role = role ∧ (t.chip.quad q).mode = u8 req 2 ∧ (t.chip.quad q).layout = u8 req 3 ∧
      (t.chip.quad q).synthLock = false ∧ ((t.chip.quad q).synthOn = true ↔ role ≠ .off) ∧
      ∀ n, n / 4 = q →
        (t.chip.lane n).coeffs =
          (if (s.chip.quad q).role = role ∧ (s.chip.quad q).mode = u8 req 2 then (s.chip.lane n).coeffs else []) ∧
        swingOk (u8 req 2) (t.chip.lane n).swing (t.chip.lane n).taps = true ∧ (t.chip.lane n).txOn = false ∧
        (role = .off → (t.chip.lane n).state = .off ∧ (t.chip.lane n).power = 2) ∧
        (role ≠ .off → ((t.chip.lane n).state = .detect ∨ (t.chip.lane n).state = .wait) ∧ (t.chip.lane n).power = 0)) ∧
  (∀ m rate, m = u16 req 0 → rate = u8 req 2 → m ≠ 0 → rate ≤ 3 →
    (∀ q < 16, bit m q = true → ∀ e ∈ s.chip.wideBonds q, ∀ i < e.2.width / 4, bit m (e.1 / 4 + i) = true) →
    (∀ e ∈ s.chip.cam.ports, e.2.configured = true → bit m (e.1 / 4) = true → ∀ x ∈ s.chip.store.streams,
      x.2.port = e.1 → x.2.rIn ≤ Chip.bondPayload e.2 rate) →
    Issues cmdSetRate mb req s.chip →
    (s.chip.stageNo = 3 →
      ∃ t, exec (.laneSetRate mb req) s = .next t ∧ Ended mb stOK (s.chip.box mb).rsp [] t.chip ∧
        t.chip.lanes.lanes = s.chip.lanes.lanes ∧
        ∀ q < 16, t.chip.quad q = if bit m q then { s.chip.quad q with cfgRate := rate } else s.chip.quad q) ∧
    (s.chip.stageNo = 4 →
      ∃ t more, exec (.laneSetRate mb req) s = .next t ∧ Ended mb stOK (s.chip.box mb).rsp [] t.chip ∧
        (∀ q < 16, bit m q = true → (t.chip.quad q).rate = rate ∧ (t.chip.quad q).cfgRate = rate ∧
          ((s.chip.quad q).role ≠ .off → (s.chip.quad q).synthOn = true → (t.chip.quad q).synthLock = false ∧
            ∀ n, n / 4 = q → (s.chip.lane n).power ≠ 2 → (s.chip.lane n).state ≠ .test →
              ((t.chip.lane n).state = .detect ∨ (t.chip.lane n).state = .wait) ∧ (t.chip.lane n).txOn = false)) ∧
        t.chip.ev.waiting = s.chip.ev.waiting ++
          { line := 0xB, kind := 3, inst := m, detail := rate, value := 0, time := s.chip.t64, source := 0x3FF } :: more))

/-- R104, R105, R111, R125, R131 to R137, R357, R367: the commands of one lane, each where its own checks pass. -/
def Obligations.LaneCommands : Prop := ∀ mb req s n l, n = u8 req 0 → l = s.chip.lane n → n ≤ 63 →
  (u8 req 1 = 1 → ((s.chip.ctxOf mb).grantAll = true ∨ (s.chip.ctxOf mb).role = 1) → u16 req 2 ≤ u16 req 4 → u8 req 11 ≤ 2 →
    (breaksLimits l (limitsOf req) = false →
      Ends cmdSetTx .laneSetTx mb req s stOK []
        (s.chip.setLane n { l with
          limits := some { swingMin := u16 req 2, swingMax := u16 req 4,
                           tapMax := [u8 req 6, u8 req 7, u8 req 8, u8 req 9, u8 req 10], precode := u8 req 11 } }) s.mem) ∧
    (breaksLimits l (limitsOf req) = true → Ends cmdSetTx .laneSetTx mb req s stBADSTATE [] s.chip s.mem)) ∧
  (u8 req 1 = 0 → settingOk (s.chip.quad (n / 4)).mode req = true →
    ∀ limits, limits = (match s.chip.mbx.limits.find? fun e => e.kind == 0 && e.key == n && decide (s.chip.up ≤ e.endAt) with
      | some e => limitsFrom e.old
      | none => l.limits) →
    (withinLimits limits req = true →
      Ends cmdSetTx .laneSetTx mb req s stOK []
        (s.chip.setLane n { l with
          txInv := u8 req 2 == 1, txPre := u8 req 3 == 1 && decide ((s.chip.quad (n / 4)).rate < 2),
          preSet := some (u8 req 3 == 1), swing := u16 req 4,
          taps := [i8 req 6, i8 req 7, i8 req 8, i8 req 9, i8 req 10] }) s.mem) ∧
    (withinLimits limits req = false → Ends cmdSetTx .laneSetTx mb req s stLIMIT [] s.chip s.mem)) ∧
  (l.state ≠ .off → l.state ≠ .test →
    (u8 req 1 = 0 → u8 req 2 ≤ 2 →
      Ends cmdSetAdapt .laneSetAdapt mb req s stOK [] (s.chip.setLane n { l with policy := u8 req 2 }) s.mem) ∧
    (u8 req 1 = 1 → Ends cmdSetAdapt .laneSetAdapt mb req s stOK []
      { s.chip.setLane n { l with frozen := true, heldDraw := if l.frozen then l.heldDraw else s.chip.draw } with
        draw := s.chip.draw + 1 } s.mem) ∧
    (u8 req 1 = 2 → Ends cmdSetAdapt .laneSetAdapt mb req s stOK [] (s.chip.setLane n { l with frozen := false }) s.mem) ∧
    (u8 req 1 = 3 → adapting l.state = true → Issues cmdSetAdapt mb req s.chip →
      ∃ t, exec (.laneSetAdapt mb req) s = .next t ∧ Ended mb stOK (s.chip.box mb).rsp [] t.chip ∧
        (t.chip.lane n).locked = false ∧
        ((t.chip.lane n).state = .acquire ∨ (t.chip.lane n).state = .wait ∧ s.chip.admits (n / 4) = false))) ∧
  (u8 req 1 ≤ 2 → s.chip.portOf n ≠ some n → s.chip.carriesRoute n = false →
    (s.chip.upperCam n = true → u8 req 1 = 1) → ((s.chip.quad (n / 4)).role = .off → u8 req 1 = 2) →
    Issues cmdSetPower mb req s.chip →
    ∃ t, exec (.laneSetPower mb req) s = .next t ∧ Ended mb stOK (s.chip.box mb).rsp [] t.chip ∧
      (t.chip.lane n).power = u8 req 1 ∧
      (u8 req 1 = 2 → (t.chip.lane n).state = .l2 ∧ (t.chip.lane n).txOn = false ∧
        (t.chip.lane n).coeffs = l.coeffs) ∧
      (u8 req 1 ≠ 2 → l.power = 2 → (t.chip.quad (n / 4)).synthOn = true ∧
        ((t.chip.lane n).state = .detect ∨ (t.chip.lane n).state = .wait)) ∧
      (u8 req 1 ≠ 2 → l.power ≠ 2 → (t.chip.lane n).state = l.state)) ∧
  (u8 req 1 ≤ 7 → u8 req 2 ≤ 2 → u8 req 3 ≤ 1 → (u8 req 1 ≤ 5 ∨ (s.chip.quad (n / 4)).rate ≤ 1) →
    s.chip.placed n = false → (s.chip.quad (n / 4)).role ≠ .off → Issues cmdSetTest mb req s.chip →
    ∃ t, exec (.laneSetTest mb req) s = .next t ∧ Ended mb stOK (s.chip.box mb).rsp [] t.chip ∧
      (t.chip.lane n).pattern = u8 req 1 ∧ (t.chip.lane n).loop = u8 req 2 ∧
      ((t.chip.lane n).checker = true ↔ u8 req 3 = 1) ∧ (t.chip.lane n).chkSync = false ∧
      (¬ (u8 req 1 = 0 ∧ u8 req 2 = 0) → (t.chip.lane n).state = .test ∧ (t.chip.lane n).txOn = false) ∧
      (u8 req 1 = 0 → u8 req 2 = 0 →
        (l.state = .test → (t.chip.lane n).state = .detect ∨ (t.chip.lane n).state = .wait) ∧
        (l.state ≠ .test → (t.chip.lane n).state = l.state))) ∧
  (∀ k size, k = u8 req 1 → size = u16 req 8 → k ≤ 3 → 1 ≤ u16 req 2 → 1 ≤ u32 req 4 → u32 req 4 ≤ 1000000 →
    (k = 1 ∧ 2 ≤ size ∧ size ≤ 64 ∨ k = 3 ∧ 1 ≤ size ∧ size ≤ 10000 ∨ (k = 0 ∨ k = 2) ∧ size = 0) →
    (k = 3 → s.chip.portOf n = some n → Ends cmdInject .laneInject mb req s stBADSTATE [] s.chip s.mem) ∧
    ((k = 3 → s.chip.portOf n ≠ some n) →
      Ends cmdInject .laneInject mb req s stOK []
        (s.chip.setLane n { l with
          injDone := 0, inj := some { kind := k, left := u16 req 2, interval := u32 req 4, size := size } }) s.mem)) ∧
  (l.frozen = false →
    Ends cmdReadCoeffs .laneReadCoeffs mb req s stOK
      ((List.range 58).map (Config.coeffByte n s.chip.draw) ++ le 2 l.eqfNow) { s.chip with draw := s.chip.draw + 1 } s.mem) ∧
  (l.frozen = true →
    Ends cmdReadCoeffs .laneReadCoeffs mb req s stOK
      ((List.range 58).map (Config.coeffByte n l.heldDraw) ++ le 2 l.eqfNow) s.chip s.mem) ∧
  Ends cmdReadLane .laneReadStatus mb req s stOK (wordBytes (laneBlock s.chip n)) s.chip s.mem ∧
  Ends cmdClearLane .laneClearCounts mb req s stOK []
    { s.chip with lanes.lanes := s.chip.lanes.lanes.map fun e =>
        if e.1 = n then (e.1, { e.2 with cw := 0, corr := 0, bad := 0, downCount := 0, lockCount := 0, flags := 0, chkErr := 0,
                                         chkBits := 0 }) else e } s.mem

/-- R112, R115, R118, R120, R123 to R127, R129 to R131: how quads and lanes come up, and the reference clock. -/
def Obligations.LaneBringUp : Prop := ∀ s (n : Fin 64) l q, s.chip.power.held = false → l = s.chip.lane n.val →
  q = s.chip.quad (n.val / 4) →
  (∀ k : Fin 16, (s.chip.quad k.val).synthOn = true → (s.chip.quad k.val).synthLock = false → s.chip.lanes.refOk = true →
    s.chip.startWaits .quad k.val = false →
    (∀ i, i / 4 = k.val → (s.chip.lane i).signal = true → (s.chip.lane i).state ≠ .detect ∧ (s.chip.lane i).state ≠ .down) →
    ∃ t, exec (.synthLock k) s = .next t ∧ t.chip.quad k.val = { s.chip.quad k.val with synthLock := true } ∧
      ∀ i, i / 4 = k.val → (s.chip.lane i).power = 0 → (s.chip.lane i).state ≠ .test → s.chip.upperCam i = false →
        t.chip.lane i = { s.chip.lane i with txOn := true, txIdle := true, txHead := [] }) ∧
  (∀ k w, k < 16 → s.chip.budgetUsed < 4 → (s.chip.quad k).waitNo = some w →
    (∀ j v, j < 16 → (s.chip.quad j).waitNo = some v → w < v ∨ w = v ∧ k ≤ j) →
    ∃ t, exec .startBudgetAdmit s = .next t ∧
      (∀ i, i / 4 = k → (t.chip.lane i).state =
        if (s.chip.lane i).state = .wait then .detect else (s.chip.lane i).state) ∧
      ∀ i, i / 4 ≠ k → t.chip.lane i = s.chip.lane i) ∧
  (q.synthLock = true → (l.state = .detect ∨ l.state = .down) → s.chip.admits (n.val / 4) = true →
    ∃ t, exec (.laneSignalDetect n) s = .next t ∧ (t.chip.lane n.val).state = .acquire ∧
      (s.chip.stageNo = 4 → (t.chip.lane n.val).attempt =
        if l.state = .down ∨ l.restart = true then (if q.rate ∈ l.coeffs ∧ l.forceFull = false then 1 else 0)
        else if l.policy = 2 then 2
        else if l.policy = 1 ∧ q.rate ∈ l.coeffs ∧ l.forceFull = false then 1 else 0)) ∧
  (l.state = .acquire →
    ∃ t, exec (.laneAcquireDone n) s = .next t ∧
      t.chip.lane n.val = { l with state := if l.attempt = 0 then .blind else .align }) ∧
  (l.state = .blind → ∃ t, exec (.laneBlindDone n) s = .next t ∧ t.chip.lane n.val = { l with state := .align }) ∧
  (l.state = .train → ∃ t, exec (.laneTrainDone n) s = .next t ∧ t.chip.lane n.val = { l with state := .qualify, qualWindow := false }) ∧
  (∀ skew, l.state = .qualify → l.qualWindow = false →
    ∃ t, exec (.laneQualifyDone n skew) s = .next t ∧
      ((t.chip.lane n.val).state = .acquire ∨ (t.chip.lane n.val).state = .wait ∧ s.chip.admits (n.val / 4) = false)) ∧
  (∀ skew, l.state = .qualify → l.qualWindow = true →
    ∃ t, exec (.laneQualifyDone n skew) s = .next t ∧ (t.chip.lane n.val).state = .up ∧
      q.rate ∈ (t.chip.lane n.val).coeffs ∧ (t.chip.lane n.val).skew = skew ∧
      { line := 0xB, kind := 1, inst := n.val, detail := 0, value := l.eqfNow % 2 ^ 64, time := s.chip.t64,
        source := 0x3FF } ∈ t.chip.ev.waiting) ∧
  ((l.state = .acquire ∨ l.state = .blind ∨ l.state = .align ∨ l.state = .train) →
    ∃ t, exec (.lanePhaseOverrun n) s = .next t ∧ (t.chip.lane n.val).state = .acquire ∧
      (t.chip.lane n.val).forceFull = false ∧
      (s.chip.stageNo = 4 → l.attempt = 1 → l.policy ≠ 2 → (t.chip.lane n.val).attempt = 0) ∧
      (l.state = .acquire → bit (t.chip.lane n.val).flags 9 = true)) ∧
  (∀ o, l.locked = false → l.state = .align → l.matches_ = 2 → o.errors ≤ 6 → o.precoded = false →
    l.hypothesis = (if o.inverted then 2 else 0) → o.crcOk = false →
    ∃ t, exec (.alignmentBlockReceived n o) s = .next t ∧ (t.chip.lane n.val).state = .train ∧
      (t.chip.lane n.val).locked = true ∧ (t.chip.lane n.val).rxInv = o.inverted ∧ (t.chip.lane n.val).rxPre = false ∧
      (t.chip.lane n.val).lockCount = min (l.lockCount + 1) 65535 ∧ bit (t.chip.lane n.val).flags 4 = true) ∧
  (q.synthLock = true → l.power = 0 → l.state ≠ .test → l.state ≠ .off → l.state ≠ .up → s.chip.upperCam n.val = false →
    q.role ≠ .off →
    ∃ t, exec (.alignmentPeriodBoundary n) s = .next t ∧ t.chip.ev = s.chip.ev ∧
      (t.chip.lane n.val).txOn = true ∧ (t.chip.lane n.val).txQuiet = false ∧
      (t.chip.lane n.val).txHead = t.chip.headOut n.val ∧ ((l.txOn = false ∨ l.txHead = []) → (t.chip.lane n.val).txSym = 0) ∧
      ((s.chip.placeOf n.val).1 ≠ 0 → (t.chip.lane n.val).txPeriod = l.txPeriod) ∧
      ((s.chip.placeOf n.val).1 = 0 → ∀ i < (s.chip.placeOf n.val).2.1,
        (t.chip.lane (n.val + i)).txPeriod = (l.txPeriod + 1) % 2 ^ 16)) ∧
  (l.state = .l1 → exec (.rxL1Timeout n) s = .next { s with chip := s.chip.setLane n.val { l with l1Long := true } }) ∧
  (∀ f, s.chip.lanes.refOk = true →
    ∃ t, exec (.refclkOutOfRange f) s = .next t ∧ t.chip.lanes.refOk = false ∧
      (∀ k < 16, (t.chip.quad k).synthLock = false) ∧
      (∀ i < 64, (s.chip.lane i).state ≠ .off → (t.chip.lane i).state = .down ∧ bit (t.chip.lane i).flags 0 = true ∧
        bit (t.chip.lane i).flags 1 = true ∧ (t.chip.lane i).downCount =
          if (s.chip.lane i).state = .down then (s.chip.lane i).downCount
          else min ((s.chip.lane i).downCount + 1) 65535) ∧
      (0x0F01, 0) ∈ t.chip.safety.all) ∧
  (s.chip.lanes.refOk = false →
    ∃ t, exec .refclkInRange s = .next t ∧ t.chip.lanes.refOk = true ∧ (0x0F01, 0) ∉ t.chip.safety.all ∧
      ∀ i < 64, (s.chip.lane i).state = .down → (s.chip.lane i).power ≠ 2 → (s.chip.lane i).pattern = 0 →
        (s.chip.lane i).loop = 0 → (s.chip.quad (i / 4)).role ≠ .off → (s.chip.quad (i / 4)).synthOn = true →
        (t.chip.lane i).state = .detect ∨ (t.chip.lane i).state = .wait)

/-- R114, R122, R123, R128, R131, R134, R136: what a lane that runs sees, and how it is lost. -/
def Obligations.LaneRunning : Prop := ∀ s (n : Fin 64) l q, s.chip.power.held = false → l = s.chip.lane n.val →
  q = s.chip.quad (n.val / 4) →
  (∀ e, l.state = .up → tUp q.rate ≤ e →
    exec (.eqfWindowClose n e) s = .next { s with
      chip := s.chip.setLane n.val { l with
        eqfNow := min e 400, eqfMin := min l.eqfMin (min e 400), lowRun := 0, lowWindows := 0 } }) ∧
  (∀ e, l.state = .up → e < tDown q.rate → l.lowRun = 3 →
    ∃ t, exec (.eqfWindowClose n e) s = .next t ∧ (t.chip.lane n.val).state ≠ .up ∧ (t.chip.lane n.val).locked = false ∧
      (t.chip.lane n.val).downCount = min (l.downCount + 1) 65535 ∧ bit (t.chip.lane n.val).flags 0 = true ∧
      (t.chip.lane n.val).eqfNow = e) ∧
  ((l.state = .up ∨ l.state = .train ∨ l.state = .qualify) → l.quietSeen = false →
    ∃ t, exec (.laneSignalLoss n) s = .next t ∧ (t.chip.lane n.val).state = .down ∧ (t.chip.lane n.val).locked = false ∧
      (t.chip.lane n.val).downCount = min (l.downCount + 1) 65535 ∧ bit (t.chip.lane n.val).flags 0 = true ∧
      bit (t.chip.lane n.val).flags 2 = true ∧
      { line := 0xB, kind := 2, inst := n.val, detail := 1, value := l.eqfNow % 2 ^ 64, time := s.chip.t64,
        source := 0x3FF } ∈ t.chip.ev.waiting) ∧
  ((l.state = .up ∨ l.state = .train ∨ l.state = .qualify) → l.quietSeen = true →
    ∃ t, exec (.laneSignalLoss n) s = .next t ∧ (t.chip.lane n.val).state = .l1 ∧
      (t.chip.lane n.val).heldState = l.state ∧
      (t.chip.lane n.val).downCount = l.downCount ∧ (t.chip.lane n.val).locked = l.locked) ∧
  (l.locked = true → l.state ≠ .l1 →
    (∀ k, k ≤ 15 →
      ∃ t, exec (.codewordReceived n k) s = .next t ∧
        t.chip.lane n.val = { l with cw := l.cw + 1, corr := l.corr + k, badRun := 0 }) ∧
    (∀ k, 15 < k → l.state = .up → l.badRun < 63 →
      ∃ t, exec (.codewordReceived n k) s = .next t ∧
        t.chip.lane n.val = { l with
          cw := l.cw + 1, bad := l.bad + 1, badRun := l.badRun + 1, flags := setBit l.flags 5 }) ∧
    (∀ k, 15 < k → l.state = .up → l.badRun = 63 →
      ∃ t, exec (.codewordReceived n k) s = .next t ∧ (t.chip.lane n.val).state ≠ .up ∧
        (t.chip.lane n.val).downCount = min (l.downCount + 1) 65535) ∧
    (∀ o, l.state = .up → l.missed = 3 → 6 < o.errors →
      ∃ t, exec (.alignmentBlockReceived n o) s = .next t ∧ (t.chip.lane n.val).state ≠ .up ∧
        (t.chip.lane n.val).locked = false ∧ (t.chip.lane n.val).downCount = min (l.downCount + 1) 65535 ∧
        bit (t.chip.lane n.val).flags 3 = true)) ∧
  (l.state = .l1 → l.locked = true → ∀ k, exec (.codewordReceived n k) s = .next s) ∧
  (l.checker = true → exec (.checkerSyncGain n) s = .next { s with chip := s.chip.setLane n.val { l with chkSync := true } }) ∧
  (l.chkSync = true →
    ∃ t e, exec (.checkerSyncLoss n) s = .next t ∧ 257 ≤ e ∧ e ≤ 1024 ∧
      t.chip.lane n.val = { l with chkSync := false, chkErr := l.chkErr + e, chkBits := l.chkBits + 1024 } ∧
      t.chip.draw = s.chip.draw + 1) ∧
  (∀ i, l.inj = some i →
    exec (.injectEvent n) s = .next { s with
      chip := s.chip.setLane n.val { l with
        injDone := min (l.injDone + 1) 65535,
        silentUntil := if i.kind = 3 then some (s.chip.up + i.size * usU) else l.silentUntil,
        inj := if i.left ≤ 1 then none else some { i with left := i.left - 1 } } }) ∧
  (∀ view, validView view = true → s.chip.reaches view = true →
    exec (.lnStateRead view n) s = .next { s with
      chip := ({ s.chip with
        rd := le 4 ((laneBlock s.chip n.val).getD 0 0),
        lanes.latches := s.chip.lanes.latches.put (view * 64 + n.val) (laneBlock s.chip n.val) } : Chip).complete view 0 0 })

/-- R103, R139 to R142, R154 to R156, R178, R367: the port commands, each where its own checks pass. -/
def Obligations.PortCommands : Prop := ∀ mb req s p v, p = u8 req 0 → v = s.chip.port p → p ≤ 63 →
  (∀ w new, w = u8 req 1 → new = { v with
      configured := true, width := w, protection := u8 req 2, fireAt := u8 req 3 == 0, expTag := u32 req 4,
      asym := i32 req 8, expTimeout := u32 req 12, frameTimeout := u32 req 16 } →
    bondOk s.chip p w = true → u8 req 2 ≤ 2 → u8 req 3 ≤ 1 → (w = 1 → u8 req 2 = 0) → (i32 req 8).natAbs ≤ 100000 →
    1 ≤ u32 req 12 → u32 req 12 ≤ 10000 → 1 ≤ u32 req 16 → u32 req 16 ≤ 10000 → v.state = .off →
    (∀ k ∈ overlaps s.chip p w, (s.chip.port k).state = .off ∧ ∀ e ∈ s.chip.store.streams, e.2.port ≠ k) →
    ingress (s.chip.setPort p new) p 0x1000 ≤ usable (s.chip.setPort p new) p true →
    Issues cmdPortConfigure mb req s.chip →
    ∃ t, exec (.portConfigure mb req) s = .next t ∧ Ended mb stOK (s.chip.box mb).rsp [] t.chip ∧
      t.chip.port p = new ∧ (∀ k ∈ overlaps s.chip p w, t.chip.port k = PortSt.reset) ∧
      ∀ k, k ≠ p → k ∉ overlaps s.chip p w → t.chip.port k = s.chip.port k) ∧
  (v.configured = true → v.state = .off → (∀ n, p ≤ n → n < p + v.width → (s.chip.quad (n / 4)).role = .camera) →
    Issues cmdPortEnable mb req s.chip →
    ∃ t, exec (.portEnable mb req) s = .next t ∧ Ended mb stOK (s.chip.box mb).rsp [] t.chip ∧
      (t.chip.port p).cause = 0 ∧ (t.chip.port p).configured = true ∧
      ((t.chip.port p).state = .linking ∨ (t.chip.port p).state = .discover ∧ s.chip.bondUp p = true)) ∧
  (v.state ≠ .off → Issues cmdPortDisable mb req s.chip →
    ∃ t, exec (.portDisable mb req) s = .next t ∧ Ended mb stOK (s.chip.box mb).rsp [] t.chip ∧
      (t.chip.port p).state = .off ∧ (t.chip.port p).frames = [] ∧ (t.chip.port p).fires = [] ∧
      (t.chip.port p).aligned = false ∧ (t.chip.port p).configured = v.configured) ∧
  (∀ op, ctrlOp (u16 req 2) false = some op → u32 req 4 % 4 = 0 → v.configured = true → v.state ≠ .off →
    v.state ≠ .linking → v.reqs.length < 8 → Issues cmdCamRead mb req s.chip →
    ∃ t g, exec (.portCamRead mb req) s = .next t ∧ Waits mb (.camera p g) t.chip ∧ (∀ r ∈ v.reqs, r.tag ≠ g) ∧
      (t.chip.port p).reqs = v.reqs ++
        [{ tag := g, op := op, addr := u32 req 4, len := u16 req 2, data := [], retried := false, owner := .mailbox mb }] ∧
      t.chip.cam.out = s.chip.cam.out ++ [.ctrlReq p g op (u32 req 4) (u16 req 2) [] v.txPsn]) ∧
  (∀ op, ctrlOp (u16 req 2) true = some op → u32 req 4 % 4 = 0 → v.configured = true → v.state ≠ .off →
    v.state ≠ .linking → v.reqs.length < 8 →
    (u32 req 4 < 0x200 → 0x100 < u32 req 4 + u16 req 2 →
      Ends cmdCamWrite .portCamWrite mb req s stNORIGHT [] s.chip s.mem) ∧
    ((0x200 ≤ u32 req 4 ∨ u32 req 4 + u16 req 2 ≤ 0x100) → Issues cmdCamWrite mb req s.chip →
      ∃ t g, exec (.portCamWrite mb req) s = .next t ∧ Waits mb (.camera p g) t.chip ∧ (∀ r ∈ v.reqs, r.tag ≠ g) ∧
        (t.chip.port p).reqs = v.reqs ++
          [{ tag := g, op := op, addr := u32 req 4, len := u16 req 2, data := req.drop 8, retried := false,
             owner := .mailbox mb }] ∧
        t.chip.cam.out = s.chip.cam.out ++ [.ctrlReq p g op (u32 req 4) (u16 req 2) (req.drop 8) v.txPsn])) ∧
  (u8 req 1 ≤ 23 → v.state = .ready → v.calib = none → (s.chip.pin (u8 req 1)).output = false → v.reqs.length < 8 →
    Issues cmdCalibrate mb req s.chip →
    ∃ t g, exec (.portCalibrate mb req) s = .next t ∧ Waits mb (.calibrate p) t.chip ∧
      (t.chip.port p).calib = some { mailbox := mb, pin := u8 req 1, wire := u32 req 4,
                                     instant := (s.chip.t64 + 1000000) * 65536, n := 0, sum := 0 } ∧
      t.chip.cam.out = s.chip.cam.out ++ [.ctrlReq p g 2 0x10C 8 (le 8 (s.chip.t64 + 1000000)) v.txPsn]) ∧
  (u8 req 1 ≤ 23 → v.state = .ready → v.calib = none → (s.chip.pin (u8 req 1)).output = false → 8 ≤ v.reqs.length →
    Issues cmdCalibrate mb req s.chip →
    ∃ t g, exec (.portCalibrate mb req) s = .next t ∧ Waits mb (.calibrate p) t.chip ∧ (t.chip.port p).reqs = v.reqs ∧
      (t.chip.port p).reqQueue = v.reqQueue ++
        [{ tag := g, op := 2, addr := 0x10C, len := 8, data := le 8 (s.chip.t64 + 1000000), retried := false,
           owner := .calibrate }]) ∧
  Ends cmdReadPort .portReadStatus mb req s stOK (wordBytes (portBlock s.chip p)) s.chip s.mem ∧
  Ends cmdClearPort .portClearCounts mb req s stOK []
    { s.chip with cam.ports := s.chip.cam.ports.map fun e => if e.1 = p then (e.1, e.2.cleared) else e } s.mem

/-- R123, R143 to R153, R168, R169, R172, R177: the packets and the overhead that a camera sends. -/
def Obligations.CameraPackets : Prop := ∀ s (p : Fin 64) v, s.chip.power.held = false → v = s.chip.port p.val →
  v.rxPsn < 2 ^ 32 →
  (s.chip.idlePeriod p.val = false → v.badPeriod = false →
  (∀ b, (v.state = .sync ∨ v.state = .held) → v.runs = [] → v.heldBlocks = [] → v.frames = [] → v.fires = [] →
    ∃ t, exec (.sofReceived p v.rxPsn b) s = .next t ∧
      (t.chip.port p.val).rxPsn = (v.rxPsn + 1) % 2 ^ 32 ∧
      (t.chip.port p.val).cNotReady = min (v.cNotReady + 1) 65535 ∧ (t.chip.port p.val).lastFrame = u32 b 6 ∧
      (t.chip.port p.val).frames = [] ∧ t.chip.store = s.chip.store) ∧
  (∀ b, v.state = .ready → v.fireAt = false → u16 b 10 = 0xFFFF → v.runs = [] → v.heldBlocks = [] → v.frames = [] →
    v.fires = [] → v.lastFree.find? ((sofOf b).sub * 16 + (sofOf b).index) = none → s.chip.startedOf p.val = [] →
    v.pendSets = [] →
    ∃ t f, exec (.sofReceived p v.rxPsn b) s = .next t ∧ (t.chip.port p.val).frames = [f] ∧ f.sof = sofOf b ∧
      f.got = [] ∧ f.eof = none ∧ f.holed = false ∧ (t.chip.port p.val).lastFrame = u32 b 6 ∧
      (t.chip.port p.val).rxPsn = (v.rxPsn + 1) % 2 ^ 32) ∧
  (∀ b payload f k, (v.state = .ready ∨ v.state = .sync ∨ v.state = .held) → v.runs = [] → v.heldBlocks = [] →
    v.frames = [f] → f.key = imgKey b 17 → f.broken = false → f.eof = none → f.got = [] → f.next = 0 → f.released = 0 →
    u32 b 10 = 0 → u16 b 14 = 0 → bit (u8 b 1) 7 = false → k = u8 b 16 + 1 → payload.length = k * 32 →
    crc32c payload = u32 b 18 → k < lineBlk f.sof → 0 < f.sof.height →
    ∃ t, exec (.imgReceived p v.rxPsn b payload) s = .next t ∧
      (t.chip.port p.val).frames = [{ f with data := f.data.writeBytes 0 payload, got := [(0, k)], next := k }] ∧
      (t.chip.port p.val).rxPsn = (v.rxPsn + 1) % 2 ^ 32) ∧
  (∀ b f n, (v.state = .ready ∨ v.state = .sync ∨ v.state = .held) → v.runs = [] → v.heldBlocks = [] → v.fires = [] →
    v.frames = [f] → f.key = imgKey b 15 → f.broken = false → n = f.sof.height * lineBlk f.sof → 0 < n →
    f.got = [(0, n)] → u8 b 14 = 0 → u32 b 10 = n → (∀ e ∈ s.chip.store.streams, e.2.port ≠ p.val) →
    ∃ t, exec (.eofReceived p v.rxPsn b) s = .next t ∧ (t.chip.port p.val).frames = [] ∧
      (v.state = .ready →
        (t.chip.port p.val).cIntact = min (v.cIntact + 1) (2 ^ 64 - 1) ∧ (t.chip.port p.val).cLost = v.cLost) ∧
      (v.state ≠ .ready →
        (t.chip.port p.val).cIntact = v.cIntact ∧ (t.chip.port p.val).cLost = min (v.cLost + 1) (2 ^ 32 - 1)))) ∧
  (∀ b payload, s.chip.idlePeriod p.val = true → v.malTimes.length ≤ 999 →
    (v.state = .ready ∨ v.state = .sync ∨ v.state = .held ∨ v.state = .discover) →
    ∀ i ∈ [Instr.sofReceived p v.rxPsn b, .imgReceived p v.rxPsn b payload, .eofReceived p v.rxPsn b],
      ∃ t, exec i s = .next t ∧ (t.chip.port p.val).cMalformed = min (v.cMalformed + 1) 65535 ∧
        (t.chip.port p.val).rxPsn = (v.rxPsn + 1) % 2 ^ 32 ∧
        (t.chip.port p.val).frames.map (·.key) = v.frames.map (·.key)) ∧
  (∀ n sub i f, v.frames = [f] → f.key = (n, sub, i) → (∀ e ∈ s.chip.store.streams, e.2.port ≠ p.val) →
    ∃ t, exec (.frameTimeout p n sub i) s = .next t ∧ (t.chip.port p.val).frames = [] ∧
      (t.chip.port p.val).cLost = min (v.cLost + 1) (2 ^ 32 - 1) ∧
      (f.holed = false → bit (t.chip.port p.val).flags 1 = true)) ∧
  ((v.state = .ready ∨ v.state = .sync ∨ v.state = .held ∨ v.state = .discover) → v.malTimes.length ≤ 999 →
    exec (.malformedBlockReceived p (.damaged none)) s = .next { s with
      chip := s.chip.setPort p.val { v with
        loss := true, frames := v.frames.map (fun f => { f with holed := true }),
        cMalformed := min (v.cMalformed + 1) 65535, malTimes := (s.chip.up :: v.malTimes).take 1000 } }) ∧
  ((v.state = .ready ∨ v.state = .sync ∨ v.state = .held ∨ v.state = .discover) → v.protection = 1 →
    ∀ l bad, bad = (s.chip.bondLanes p.val).filter (fun n => l.contains n || !(s.chip.lane n).delivers) →
      (bad.length = 1 → ∃ t, exec (.parityStripeComplete p l) s = .next t ∧
        t.chip.port p.val = { v with cRebuilt := min (v.cRebuilt + 1) (2 ^ 32 - 1) }) ∧
      (bad = [] → exec (.parityStripeComplete p l) s = .next s) ∧
      (1 < bad.length → exec (.parityStripeComplete p l) s = .next { s with
        chip := s.chip.setPort p.val { v with
          loss := true, frames := v.frames.map fun f => { f with holed := true } } })) ∧
  (∀ (n : Fin 64) b, s.chip.portOf n.val = some p.val →
    (v.state = .ready ∨ v.state = .sync ∨ v.state = .held ∨ v.state = .discover) → v.runs = [] →
    framedOk b = true → u8 b 0 = 0x70 →
    (if v.protection = 2 then 0 < u16 b 8 ∧ u16 b 8 < 2 ^ v.width ∧ s.chip.stripable p.val (u16 b 8) = true
     else u16 b 8 = 2 ^ (if v.protection = 1 then v.width - 1 else v.width) - 1) → u32 b 10 = v.rxPsn →
    ∃ t, exec (.ohLaneReceived n b) s = .next t ∧ (t.chip.port p.val).activeMask = u16 b 8 ∧
      (t.chip.lane n.val).oh = some (ohLaneOf b) ∧
      (t.chip.port p.val).rxPsn = v.rxPsn ∧ (t.chip.port p.val).frames = v.frames) ∧
  (∀ (n : Fin 64) b, s.chip.portOf n.val = some p.val →
    (v.state = .ready ∨ v.state = .sync ∨ v.state = .held ∨ v.state = .discover) → v.malTimes.length ≤ 999 →
    framedOk b = true → u8 b 0 = 0x70 →
    (if v.protection = 2 then u16 b 8 = 0 ∨ 2 ^ v.width ≤ u16 b 8 ∨ s.chip.stripable p.val (u16 b 8) = false
     else u16 b 8 ≠ 2 ^ (if v.protection = 1 then v.width - 1 else v.width) - 1) →
    ∃ t, exec (.ohLaneReceived n b) s = .next t ∧ (t.chip.port p.val).activeMask = u16 b 8 ∧
      (t.chip.port p.val).badPeriod = true ∧ (t.chip.port p.val).cMalformed = min (v.cMalformed + 1) 65535 ∧
      (t.chip.port p.val).rxPsn = v.rxPsn) ∧
  (∀ r n, v.runs = [r] → n = r.first → n < 2 ^ 32 → r.missing ≠ [] →
    (r.sent = 1 →
      ∃ t, exec (.darnRetryTimeout p n) s = .next t ∧
        (t.chip.port p.val).runs = [{ r with sent := 2 }] ∧
        (t.chip.port p.val).cDarnReq = min (v.cDarnReq + 1) (2 ^ 32 - 1) ∧
        t.chip.cam.out = s.chip.cam.out ++ [.darnReq p.val r.first r.count v.txPsn]) ∧
    (r.missing = [n] → v.heldBlocks = [] → v.frames = [] → v.rxPsn < 2 ^ 32 →
      (∃ t, exec (.darnLossTimeout p n) s = .next t ∧ (t.chip.port p.val).runs = [] ∧
        bit (t.chip.port p.val).flags 5 = true ∧ (t.chip.port p.val).loss = true) ∧
      (s.chip.idlePeriod p.val = false → v.badPeriod = false →
        ∃ t, exec (.darnGoneReceived p v.rxPsn n 1) s = .next t ∧ (t.chip.port p.val).runs = [] ∧
        bit (t.chip.port p.val).flags 5 = true ∧ (t.chip.port p.val).loss = true)))

/-- R154 to R158, R163 to R167, R177 to R179: the control channel, discovery, FIREs and time of a camera port. -/
def Obligations.CameraPortEvents : Prop := ∀ s (p : Fin 64) v, s.chip.power.held = false → v = s.chip.port p.val →
  (∀ n (e : RspEcho) st data, v.reqs = [] → v.state ≠ .off →
    (s.chip.packetsOn p.val = true → s.chip.idlePeriod p.val = false ∧ v.badPeriod = false) → n = v.rxPsn → n < 2 ^ 32 → v.runs = [] → v.heldBlocks = [] → v.frames = [] →
    ∃ t, exec (.ctrlRspReceived p n e st data) s = .next t ∧
      (t.chip.port p.val).cCtrlLate = min (v.cCtrlLate + 1) 255 ∧ (t.chip.port p.val).reqs = [] ∧
      (s.chip.packetsOn p.val = true → (t.chip.port p.val).rxPsn = (n + 1) % 2 ^ 32) ∧
      t.chip.ev.waiting = s.chip.ev.waiting ++
        [{ line := 0xE, kind := 1, inst := p.val, detail := e.tag % 256 * 256 + st % 256, value := e.addr % 2 ^ 64, time := s.chip.t64,
           source := 0x3FF }]) ∧
  (∀ r m, v.reqs = [r] → v.reqQueue = [] → r.owner = .mailbox m →
    (s.chip.box m).parked = some { on := .camera p.val r.tag, answer := none, cancelSent := false } →
    (∀ n (e : RspEcho) st data, e.tag = r.tag →
      (s.chip.packetsOn p.val = true → s.chip.idlePeriod p.val = false ∧ v.badPeriod = false) → n = v.rxPsn → n < 2 ^ 32 → v.runs = [] → v.heldBlocks = [] → v.frames = [] →
      ∃ t, exec (.ctrlRspReceived p n e st data) s = .next t ∧ (t.chip.port p.val).reqs = [] ∧
      t.chip.box m = { s.chip.box m with
        parked := some { on := .camera p.val r.tag, answer := some (st, data), cancelSent := false } }) ∧
    (r.retried = false → ∃ t, exec (.ctrlReqRetry p r.tag) s = .next t ∧
      (t.chip.port p.val).reqs = [{ r with retried := true }] ∧
      t.chip.cam.out = s.chip.cam.out ++ [.ctrlReq p.val r.tag r.op r.addr r.len r.data v.txPsn]) ∧
    (r.retried = true → ∃ t, exec (.ctrlReqTimeout p r.tag) s = .next t ∧ (t.chip.port p.val).reqs = [] ∧
      (t.chip.port p.val).cCtrlTimeout = min (v.cCtrlTimeout + 1) 255 ∧
      t.chip.box m = { s.chip.box m with
        parked := some { on := .camera p.val r.tag, answer := some (noAnswer, []), cancelSent := false } })) ∧
  (v.state = .discover → v.reqs = [] → v.caps = [] → v.attempts < 3 →
    ∃ t g, exec (.discoveryRetry p) s = .next t ∧ (t.chip.port p.val).attempts = v.attempts + 1 ∧
      t.chip.cam.out = s.chip.cam.out ++ [.ctrlReq p.val g 3 0 64 [] v.txPsn]) ∧
  (∀ o n, (s.chip.packetsOn p.val = true → s.chip.idlePeriod p.val = false ∧ v.badPeriod = false) →
    v.fires = [o] → o.answered = false → o.sofs = [] → o.ended = false → n = v.rxPsn → n < 2 ^ 32 → v.runs = [] →
    v.heldBlocks = [] → v.frames = [] →
    (∃ t, exec (.fireStatusReceived p n o.fireId 0) s = .next t ∧ (t.chip.port p.val).fires = [{ o with answered := true }] ∧
      t.chip.ev = s.chip.ev ∧ t.chip.store = s.chip.store) ∧
    (∀ st, 1 ≤ st → st ≤ 3 → ∃ t, exec (.fireStatusReceived p n o.fireId st) s = .next t ∧
      (t.chip.port p.val).fires = [] ∧ (t.chip.port p.val).cFireRefused = min (v.cFireRefused + 1) 65535 ∧
      (t.chip.port p.val).cLost = min (v.cLost + 1) (2 ^ 32 - 1) ∧
      { line := 0x11, kind := 1, inst := p.val, detail := st, value := o.instant / 65536 % 2 ^ 64, time := s.chip.t64,
        source := 0x3FF } ∈ t.chip.ev.waiting) ∧
    (∃ t, exec (.exposureTimeout p o.fireId) s = .next t ∧ (t.chip.port p.val).fires = [] ∧
      (t.chip.port p.val).cNoSof = min (v.cNoSof + 1) 255 ∧
      (t.chip.port p.val).cLost = min (v.cLost + 1) (2 ^ 32 - 1) ∧
      { line := 0x11, kind := 1, inst := p.val, detail := 4, value := o.instant / 65536 % 2 ^ 64, time := s.chip.t64,
        source := 0x3FF } ∈ t.chip.ev.waiting)) ∧
  (∀ (t1 t2 t3 i a ack : Nat) (t4 d : Int), i < (if v.protection = 1 then v.width - 1 else v.width) →
    (∀ j < i, (s.chip.lane (p.val + j)).state ≠ .up) → (s.chip.lane (p.val + i)).state = .up →
    t4 = (a : Int) - psU ((s.chip.lane (p.val + i)).skew * 100) → (v.state = .sync ∨ v.state = .held) → v.longLink = false → v.corrWait = false →
    v.thetas.length < 15 → d = (t4 - t1 - ((t3 : Int) - t2)) * 1000 - v.asym * 65536 →
    exec (.ohTimeReceived p t1 t2 t3 [(i, a)] ack) s = .next { s with
      chip := s.chip.setPort p.val { v with
        dDown := unsigned 32 (quot d 131072), longLink := decide (131072000000 < d),
        thetas := v.thetas ++ [((t2 : Int) - t1) * 2000 - d] } }) ∧
  (v.aligned = true → v.state = .ready → v.fires = [] → v.calib = none →
    ∃ t, exec (.syncExchangeTimeout p) s = .next t ∧ (t.chip.port p.val).aligned = false ∧
      (t.chip.port p.val).state = .sync ∧ bit (t.chip.port p.val).flags 3 = true) ∧
  (v.aligned = false → exec (.syncExchangeTimeout p) s = .next s) ∧
  (v.corrWait = true → ∃ t, exec (.camTimeTimeout p) s = .next t ∧ t.chip.cam = s.chip.cam ∧
    t.chip.ev.waiting = s.chip.ev.waiting ++
      [{ line := 0xE, kind := 2, inst := p.val, detail := v.corrSeq % 2 ^ 16, value := unsigned 64 v.theta % 2 ^ 64,
         time := s.chip.t64, source := 0x3FF }]) ∧
  (∀ view, validView view = true → s.chip.reaches view = true →
    exec (.cpStateRead view p) s = .next { s with
      chip := ({ s.chip with
        rd := le 4 ((portBlock s.chip p.val).getD 0 0),
        cam.latches := s.chip.cam.latches.put (view * 64 + p.val) (portBlock s.chip p.val) } : Chip).complete view 0 0 })

/-- R196 to R198, R200 to R202, R368: the life of a table of the table memory, allocated under the port's quota,
written, sealed and freed; parameter sets queue under rising tags, at most 8, and are cancelled and read. -/
def Obligations.TablesAndParameters : Prop :=
  (∀ mb req s,
  (∀ p n used, p = u8 req 0 → n = u32 req 4 → p ≤ 63 → 1 ≤ u8 req 1 → u8 req 1 ≤ 5 → 0 < n →
    (s.chip.port p).configured = true →
    used = ((s.chip.store.tables.filter fun e => e.2.port == p).map fun e => (e.2.size + 4095) / 4096 * 4096).sum →
    (used + (n + 4095) / 4096 * 4096 ≤ (s.chip.port p).width * 2 ^ 20 →
      Ends cmdAllocTable .pipeAllocTable mb req s stOK (le 4 s.chip.store.nextTable)
        { s.chip with
          store.tables := s.chip.store.tables.put s.chip.store.nextTable
            { port := p, kind := u8 req 1, size := n, sealed := false },
          store.nextTable :=
            if s.chip.store.nextTable + 1 = 2 ^ 32 then 1 else s.chip.store.nextTable + 1 } s.mem) ∧
    ((s.chip.port p).width * 2 ^ 20 < used + (n + 4095) / 4096 * 4096 →
      Ends cmdAllocTable .pipeAllocTable mb req s stBADSTATE [] s.chip s.mem)) ∧
  (∀ h t, h = u32 req 0 → s.chip.store.tables.find? h = some t →
    (t.sealed = false → u32 req 4 + (req.length - 32) ≤ t.size →
      Ends cmdWriteTable .pipeWriteTable mb req s stOK [] s.chip
        (s.mem.writeBytes (tableBase h + u32 req 4) (req.drop 32))) ∧
    (t.sealed = true → u32 req 4 + (req.length - 32) ≤ t.size →
      Ends cmdWriteTable .pipeWriteTable mb req s stBADSTATE [] s.chip s.mem) ∧
    (t.size < u32 req 4 + (req.length - 32) →
      Ends cmdWriteTable .pipeWriteTable mb req s stBADARG [] s.chip s.mem) ∧
    (t.sealed = false → crc32c (s.mem.readBytes (tableBase h) t.size) = u32 req 4 →
      tableOk t.kind (s.mem.readBytes (tableBase h) t.size) (declared s.chip t.port none) = true →
      Ends cmdSealTable .pipeSealTable mb req s stOK []
        { s.chip with store.tables := s.chip.store.tables.put h { t with sealed := true } } s.mem) ∧
    (t.sealed = false → crc32c (s.mem.readBytes (tableBase h) t.size) ≠ u32 req 4 →
      Ends cmdSealTable .pipeSealTable mb req s stBADARG [] s.chip s.mem) ∧
    (tableInUse s.chip h = false →
      Ends cmdFreeTable .pipeFreeTable mb req s stOK []
        { s.chip with store.tables := s.chip.store.tables.drop h } (s.mem.erase (tableBase h) t.size)) ∧
    (tableInUse s.chip h = true → Ends cmdFreeTable .pipeFreeTable mb req s stBADSTATE [] s.chip s.mem)) ∧
  (s.chip.store.tables.find? (u32 req 0) = none →
    Ends cmdWriteTable .pipeWriteTable mb req s stBADARG [] s.chip s.mem ∧
    Ends cmdSealTable .pipeSealTable mb req s stBADARG [] s.chip s.mem ∧
    Ends cmdFreeTable .pipeFreeTable mb req s stBADARG [] s.chip s.mem)) ∧
  (∀ mb req s p v, p = u8 req 0 → v = s.chip.port p → p ≤ 63 →
  (∀ b sub tag fl late, b = (req.drop 4).take 144 → sub = u8 b 4 % 4 → tag = u32 b 0 → fl = u8 b 5 →
    late = (!bit fl 0 && tagLate s.chip p sub tag) →
    setOk { chip := s.chip, mem := s.mem } p b = true →
    (bit fl 0 = true ∨ ∀ x ∈ v.pendSets, x.sub = sub → x.now = false → before32 x.tag tag = true) →
    (v.configured = false → Ends cmdQueueParams .pipeQueueParams mb req s stBADSTATE [] s.chip s.mem) ∧
    (v.configured = true →
    (v.pendSets.length < 8 → (late = true → bit fl 2 = true) →
      Ends cmdQueueParams .pipeQueueParams mb req s stOK (le 4 v.nextSet ++ le 1 (b2n late) ++ le 3 0)
        (s.chip.setPort p { v with
          pendSets := v.pendSets ++ [{ number := v.nextSet, sub := sub, tag := tag, flags := fl, late := late,
                                       mailbox := mb, queuedAt := s.chip.time.tb, bytes := b }],
          nextSet := if v.nextSet + 1 = 2 ^ 32 then 1 else v.nextSet + 1 }) s.mem) ∧
    (8 ≤ v.pendSets.length → Ends cmdQueueParams .pipeQueueParams mb req s stBUSY [] s.chip s.mem) ∧
    (v.pendSets.length < 8 → late = true → bit fl 2 = false →
      Ends cmdQueueParams .pipeQueueParams mb req s stBADSTATE [] s.chip s.mem))) ∧
  (u8 req 1 ≤ 3 → ∀ gone, gone = (fun x : ParamSet => x.sub == u8 req 1 && !before32 x.tag (u32 req 4)) →
    Ends cmdCancelParams .pipeCancelParams mb req s stOK (le 1 (v.pendSets.filter gone).length ++ le 3 0)
      (s.chip.setPort p { v with pendSets := v.pendSets.filter fun x => !gone x }) s.mem) ∧
  (u8 req 1 ≤ 3 → ∀ l a, l = v.pendSets.filter (fun x => x.sub == u8 req 1) → a = v.activeSets.find? (u8 req 1) →
    Ends cmdReadParams .pipeReadParams mb req s stOK
      (le 4 ((a.map (·.number)).getD 0) ++ le 4 ((a.map (·.tag)).getD 0) ++ le 1 l.length ++ le 3 0 ++
        l.flatMap fun x => le 4 x.number ++ le 4 x.tag ++ le 1 x.flags ++ le 3 0) s.chip s.mem))

/-- R183, R203 to R207, R211, R212, R368: a pipe returns to service, shows and clears its block, counts its swatches and
leaves service; an in-line line goes first, else one slice of the stream that the deficit round robin chooses, and
each adds its handshakes and its lines. PIPE.RESTORE ends in one of the two ways that R207 names; which one is open
(log 24). -/
def Obligations.PipeServiceAndWork : Prop :=
  (∀ s,
  (∀ mb req p q, p = u8 req 0 → q = s.chip.pipe p → p ≤ 15 →
    (q.state = .faulted → Issues cmdRestore mb req s.chip →
      ∃ t, exec (.pipeRestore mb req) s = .next t ∧
        (Ended mb stOK (s.chip.box mb).rsp [] t.chip ∧ (t.chip.pipe p).state = .idle ∧ (t.chip.pipe p).cause = 0 ∧
            (t.chip.pipe p).swPass = min (q.swPass + 16) (2 ^ 32 - 1) ∧ (t.chip.pipe p).swTime = s.chip.t64 ∨
          Ended mb stINTERNAL (s.chip.box mb).rsp [] t.chip ∧ (t.chip.pipe p).state = .faulted ∧
            ∃ n, 1 ≤ n ∧ n ≤ 16 ∧ (t.chip.pipe p).swFail = min (q.swFail + n) 65535 ∧
              (t.chip.pipe p).swPass = min (q.swPass + (16 - n)) (2 ^ 32 - 1))) ∧
    (q.state ≠ .faulted → Ends cmdRestore .pipeRestore mb req s stBADSTATE [] s.chip s.mem) ∧
    Ends cmdReadPipe .pipeReadStatus mb req s stOK (wordBytes (pipeBlock s.chip p)) s.chip s.mem) ∧
  (∀ mb req, u8 req 0 ≤ 15 ∨ u8 req 0 = 0xFF → Issues cmdClearPipe mb req s.chip →
    ∃ t, exec (.pipeClearCounts mb req) s = .next t ∧ Ended mb stOK (s.chip.box mb).rsp [] t.chip ∧
      ∀ k, k ≤ 15 → t.chip.pipe k = if u8 req 0 = 0xFF ∨ u8 req 0 = k then
          { s.chip.pipe k with
            hs := 0, frames := 0, swPass := 0, swFail := 0, stalls := 0, hdrRange := 0, hdrPartial := 0, dpUnrep := 0,
            flags := 0 }
        else s.chip.pipe k) ∧
  (∀ (p : Fin 16) q, s.chip.power.held = false → q = s.chip.pipe p.val →
    (∀ view, validView view = true → s.chip.reaches view = true →
      exec (.ppStateRead view p) s = .next { s with
        chip := ({ s.chip with
          rd := le 4 ((pipeBlock s.chip p.val).getD 0 0),
          store.latches := s.chip.store.latches.put (view * 16 + p.val) (pipeBlock s.chip p.val) } : Chip).complete view 0 0 }) ∧
    (q.state ≠ .faulted → 3 ≤ s.chip.stageNo →
      (∃ t, exec (.pipeSwatchRun p true) s = .next t ∧ (t.chip.pipe p.val).swPass = min (q.swPass + 1) (2 ^ 32 - 1) ∧
        (t.chip.pipe p.val).swTime = s.chip.t64 ∧ (t.chip.pipe p.val).state = q.state ∧
        (t.chip.pipe p.val).swNext = (q.swNext + 1) % 16) ∧
      (∃ t, exec (.pipeSwatchRun p false) s = .next t ∧ (t.chip.pipe p.val).swFail = min (q.swFail + 1) 65535 ∧
        (t.chip.pipe p.val).state = .faulted ∧ (t.chip.pipe p.val).cause = 1) ∧
      (∃ t, exec (.pipeStallTimeout p) s = .next t ∧ (t.chip.pipe p.val).stalls = min (q.stalls + 1) 65535 ∧
        (t.chip.pipe p.val).state = .faulted ∧ (t.chip.pipe p.val).cause = 2)) ∧
    (q.state = .faulted → exec (.pipeSwatchRun p true) s = .next s ∧ exec (.pipeSwatchRun p false) s = .next s ∧
      exec (.pipeStallTimeout p) s = .next s))) ∧
  (∀ s (p : Fin 16) q, s.chip.power.held = false → q = s.chip.pipe p.val →
  (s.chip.inLineNext p.val = none → exec (.pipeInlineLine p) s = .next s) ∧
  (s.chip.inLineNext p.val ≠ none → exec (.pipeSliceStart p) s = .next s) ∧
  (s.chip.inLineNext p.val = none → s.chip.startable s.mem p.val = [] → exec (.pipeSliceStart p) s = .next s) ∧
  (∀ sid f v, s.chip.inLineNext p.val = some (sid, f) → s.chip.stream? sid = some v →
    v.frames.find? (fun x => x.seq == f.seq && (x.phase == .input || x.phase == .processing)) = some f →
    f.stored.isSome = true → f.used + 1 < f.height → s.chip.store.banks.length < 2 →
    ∃ t w g, exec (.pipeInlineLine p) s = .next t ∧
      (t.chip.pipe p.val).hs = min (q.hs + f.count * (lineCost f.width + if f.used = 0 then 16 else 0)) (2 ^ 64 - 1) ∧
      t.chip.stream? sid = some w ∧ g ∈ w.frames ∧ g.seq = f.seq ∧ g.used = f.used + 1 ∧ g.phase = .processing) ∧
  (∀ st q' v, s.chip.inLineNext p.val = none → Chip.pickSlice q (s.chip.startable s.mem p.val) = some (st, q') →
    s.chip.stream? st.sid = some v →
    v.frames.find? (fun x => x.seq == st.frame.seq && (x.phase == .input || x.phase == .processing)) = some st.frame →
    st.frame.stored.isSome = true → st.frame.used + 64 < st.frame.height →
    s.chip.store.banks.length < 2 →
    ∃ t w g, exec (.pipeSliceStart p) s = .next t ∧
      (t.chip.pipe p.val).hs =
        min (q.hs + st.frame.count * (64 * lineCost st.frame.width + if st.frame.used = 0 then 16 else 0)) (2 ^ 64 - 1) ∧
      (t.chip.pipe p.val).rrNext = st.sid ∧
      t.chip.stream? st.sid = some w ∧ g ∈ w.frames ∧ g.seq = st.frame.seq ∧ g.used = st.frame.used + 64 ∧
      g.phase = .processing))

/-- R24 to R27, R208, R241, R242, R370: STREAM.CREATE, STREAM.MOVE and STREAM.DESTROY. What admission asks is said by
`admitStream`: the refusal detail of R26, or none where everything fits. -/
def Obligations.StreamLife : Prop := ∀ mb req s sid, sid = u16 req 0 →
  (∀ v new, v = parseStream req → s.chip.stream? sid = none → createOk req v = true →
    outOk v.out v.mode (v.place.placement = .passBy) v.w v.h = true → outArgs (req.drop 52) = true →
    levelCovers v.out v.w v.h v.f = true → colourFits ⟨s.chip, s.mem⟩ v.port v.sub v.out v.w v.h = true →
    (v.port = 0xFE ∨ capsOk s.chip v.port v.sub v.w v.h v.e v.out.format = true) → createState s.chip sid v = true →
    (v.out.press ≠ 2 ∨ v.cls ≠ 2) → new = s.chip.demands v v.place →
    (s.chip.admitStopped = false ∨ Chip.addsDemand [] new = false) →
    (s.chip.rung mb).overCap mb sid v v.place new = false →
    (∀ d, s.chip.admitStream sid v.prot [] new = some d →
      (u8 d 0 ≠ 6 → Ends cmdCreate .streamCreate mb req s stNOCAP d s.chip s.mem) ∧
      (u8 d 0 = 6 → Issues cmdCreate mb req s.chip →
        ∃ t, exec (.streamCreate mb req) s = .next t ∧ Ended mb stNOCAP (s.chip.box mb).rsp d t.chip ∧
          t.chip.ev.waiting = s.chip.ev.waiting ++
            [{ line := 0x1E, kind := 3, inst := s.chip.seam.id.getD 0xFFFF, detail := u16 d 2, value := 0, time := s.chip.t64,
               source := 0x3FF }] ∧ t.chip.store = s.chip.store)) ∧
    (s.chip.admitStream sid v.prot [] new = none → Issues cmdCreate mb req s.chip →
      ∃ t, exec (.streamCreate mb req) s = .next t ∧
        (∀ dev link left, routeRefusal s.chip v.place [] new = some (dev, link, left) →
          Ended mb stNOCAP (s.chip.box mb).rsp
            (Chip.detail 6 link (((new.find? (·.res == 6)).map (·.demand)).getD 0) (left * scale)) t.chip ∧
          t.chip.ev.waiting = s.chip.ev.waiting ++
            [{ line := 0x1E, kind := 3, inst := dev, detail := link, value := 0, time := s.chip.t64, source := 0x3FF }] ∧
          t.chip.store = s.chip.store) ∧
        (routeRefusal s.chip v.place [] new = none →
          Ended mb stOK (s.chip.box mb).rsp (le 1 0 ++ le 1 0 ++ le 2 (basketSlots v.mode v.out v.w v.h)) t.chip ∧
          t.chip.stream? sid = some { v with resv := new } ∧ (∀ k, k ≠ sid → t.chip.stream? k = s.chip.stream? k) ∧
          (v.place.seam = false → (t.chip.wch (v.place.fn / 128) v.place.chan).fn = some v.place.fn ∧
            (t.chip.wch (v.place.fn / 128) v.place.chan).stream = sid)))) ∧
  (∀ v pl new, sid ≤ 511 → s.chip.stream? sid = some v → u8 req 2 ≤ 2 → u8 req 4 ≤ 1 → pl = movePlace req v →
    pl ≠ v.place → placeOk v pl = true → outOk v.out v.mode (pl.placement = .passBy) v.w v.h = true →
    new = s.chip.demands v pl →
    (v.old ≠ none → Ends cmdMove .streamMove mb req s stBUSY [] s.chip s.mem) ∧
    (v.old = none → (pl.placement = .inLine → ∀ k, (s.chip.pipe pl.pipe).inline = some k → k = sid) →
      s.chip.chansFree sid v.prot pl = true → (pl.seam = true → s.chip.reachable pl.seamId = true) →
      s.chip.ringsHold sid v pl = true → (s.chip.admitStopped = false ∨ Chip.addsDemand [] new = false) →
      (s.chip.rung mb).overCap mb sid v pl new = false → s.chip.admitStream sid v.prot [] new = none →
      routeRefusal s.chip pl [] new = none → Issues cmdMove mb req s.chip →
      ∃ t w, exec (.streamMove mb req) s = .next t ∧
        Ended mb stOK (s.chip.box mb).rsp (le 1 ((v.epoch + 1) % 256)) t.chip ∧ t.chip.stream? sid = some w ∧
        w.place = pl ∧ w.epoch = (v.epoch + 1) % 256 ∧ w.resv = new ∧
        w.old = some { epoch := v.epoch, place := v.place, resv := v.resv } ∧ w.started = v.started ∧ w.seqNext = v.seqNext ∧
        ∀ k, k ≠ sid → t.chip.stream? k = s.chip.stream? k)) ∧
  (∀ v, sid ≤ 511 → s.chip.stream? sid = some v →
    (v.started = false → v.frames = [] → Issues cmdDestroy mb req s.chip →
      ∃ t, exec (.streamDestroy mb req) s = .next t ∧ Ended mb stOK (s.chip.box mb).rsp [] t.chip ∧
        t.chip.stream? sid = none ∧ ∀ k, k ≠ sid → t.chip.stream? k = s.chip.stream? k) ∧
    (v.started = true ∨ v.frames ≠ [] → Ends cmdDestroy .streamDestroy mb req s stBADSTATE [] s.chip s.mem)) ∧
  (sid ≤ 511 → s.chip.stream? sid = none →
    Ends cmdDestroy .streamDestroy mb req s stBADSTATE [] s.chip s.mem ∧
    Ends cmdStart .streamStart mb req s stBADSTATE [] s.chip s.mem ∧
    Ends cmdStop .streamStop mb req s stBADSTATE [] s.chip s.mem)

/-- R224, R225, R242, R245, R261, R357, R370: the other stream commands. -/
def Obligations.StreamCommands : Prop := ∀ mb req s,
  (256 ≤ u16 req 0 → u16 req 0 ≤ 4096 →
    (s.chip.admitted 7 2 ≤ (23040 - u16 req 0) * scale →
      Ends cmdQuotas .streamSetQuotas mb req s stOK [] { s.chip with store.mQuota := u16 req 0 } s.mem) ∧
    ((23040 - u16 req 0) * scale < s.chip.admitted 7 2 →
      Ends cmdQuotas .streamSetQuotas mb req s stBADSTATE [] s.chip s.mem)) ∧
  (∀ sid v, sid = u16 req 0 → sid ≤ 511 → s.chip.stream? sid = some v →
    (v.started = false → (v.port = 0xFE ∨ v.rIn ≤ usable s.chip v.port false) →
      Ends cmdStart .streamStart mb req s stOK []
        { s.chip.setStream sid { v.noted s.chip.time.tb with started := true } with seam.landings := s.chip.seam.landings.drop sid } s.mem) ∧
    (v.started = true → Ends cmdStart .streamStart mb req s stBADSTATE [] s.chip s.mem) ∧
    (v.started = true →
      Ends cmdStop .streamStop mb req s stOK [] (s.chip.setStream sid { v.noted s.chip.time.tb with started := false }) s.mem) ∧
    (v.started = false → Ends cmdStop .streamStop mb req s stBADSTATE [] s.chip s.mem) ∧
    (∀ o w new passBy, o = parseOut (req.drop 2) → w = { v.noted s.chip.time.tb with out := o } →
      passBy = decide (v.place.placement = .passBy) → outOk o v.mode passBy v.w v.h = true →
      outArgs (req.drop 2) = true → levelCovers o v.w v.h v.f = true → colourFits ⟨s.chip, s.mem⟩ v.port v.sub o v.w v.h = true →
      (v.port = 0xFE ∨ capsOk s.chip v.port v.sub v.w v.h v.e o.format = true) →
      (fmtClass o.format = 3 → noColour s.chip v.port v.sub = false) → s.chip.ringsHold sid w v.place = true →
      new = s.chip.demands w v.place → (s.chip.admitStopped = false ∨ Chip.addsDemand v.resv new = false) →
      ∀ lim, lim = (s.chip.rung mb).limitFor mb 1 sid [b2n v.lossy, v.lowest] →
      ((o.press = 2 ∧ v.cls = 2 ∧ lim.getD 0 0 = 0 ∨ rAvg w passBy < lim.getD 1 0 * 1000000) →
        Ends cmdSetOutput .streamSetOutput mb req s stLIMIT [] s.chip s.mem) ∧
      ((o.press = 2 → v.cls = 2 → lim.getD 0 0 ≠ 0) → lim.getD 1 0 * 1000000 ≤ rAvg w passBy →
        (s.chip.rung mb).overCap mb sid w v.place new = false → s.chip.admitStream sid v.prot v.resv new = none →
        routeRefusal s.chip v.place v.resv new = none → Issues cmdSetOutput mb req s.chip →
        ∃ t, exec (.streamSetOutput mb req) s = .next t ∧ Ended mb stOK (s.chip.box mb).rsp [] t.chip ∧
          t.chip.stream? sid = some { w with resv := new } ∧ ∀ k, k ≠ sid → t.chip.stream? k = s.chip.stream? k)) ∧
    (u8 req 2 ≤ 1 → (v.out.press = 2 → v.cls = 2 → u8 req 2 = 1) →
      u32 req 4 * 1000000 ≤ rAvg v (v.place.placement = .passBy) →
      Ends cmdStreamLimits .streamSetLimits mb req s stOK []
        (s.chip.setStream sid { v with lossy := u8 req 2 == 1, lowest := u32 req 4 }) s.mem) ∧
    (u8 req 2 ≤ 1 → rAvg v (v.place.placement = .passBy) < u32 req 4 * 1000000 →
      Ends cmdStreamLimits .streamSetLimits mb req s stBADSTATE [] s.chip s.mem) ∧
    (∀ hit, hit = v.frames.filter rinsable → Issues cmdRinse mb req s.chip →
      ∃ t w, exec (.streamRinse mb req) s = .next t ∧
        Ended mb stOK (s.chip.box mb).rsp
          (le 4 hit.length ++ le 4 (match hit.getLast? with | some f => Chip.seqAfter f.seq 1 | none => v.seqNext)) t.chip ∧
        t.chip.stream? sid = some w ∧ w.cRinsed = min (v.cRinsed + hit.length) (2 ^ 32 - 1) ∧
        w.frames.filter rinsable = [] ∧ w.started = v.started ∧
        ∀ k, k ≠ sid → t.chip.stream? k = s.chip.stream? k) ∧
    Ends cmdReadStream .streamReadStatus mb req s stOK
      (le 1 (b2n v.started) ++ le 1 v.epoch ++ le 1 (placeCode v.place.placement) ++ le 1 v.place.pipe ++
        le 1 v.place.fn ++ le 1 v.place.chan ++ le 2 0 ++ le 4 v.seqNext ++ le 4 v.cLost ++ le 4 v.cRinsed ++
        le 4 v.cEpoch ++ le 4 v.cPress ++ le 4 v.cLease) s.chip s.mem)

/-- R209, R244, R250, R253 to R256: an old epoch ends after 50 ms; a lease ends at its deadline or by LS_END, and is
then no longer readable; the first uncorrectable error of a bank or a pseudo-channel is noted and the second within
1 ms retires it; eight retired pseudo-channels retire their stack. -/
def Obligations.LeasesAndStore : Prop :=
  (∀ s, s.chip.power.held = false →
  (∀ (k : Fin 512) v, s.chip.stream? k.val = some v →
    ∀ hit, hit = v.frames.filter (fun f => f.epoch != v.epoch &&
        ((f.phase == .judging && f.flags % 2 == 0) || f.phase == .input || f.phase == .processing)) →
    ∃ t w, exec (.oldEpochDeadline k) s = .next t ∧ t.chip.stream? k.val = some w ∧
      (∀ f ∈ w.frames, f.epoch ≠ v.epoch →
        f.phase ≠ .input ∧ f.phase ≠ .processing ∧ (f.phase = .judging → f.flags % 2 = 1)) ∧
      w.cEpoch = (if hit = [] then v.cEpoch else min (v.cEpoch + hit.length) (2 ^ 32 - 1)) ∧
      w.frames.length = v.frames.length) ∧
  (∀ fn (i : Fin 64) l, validFn fn = true → l = s.chip.lease fn i.val →
    (l.state = .active →
      ∃ t, exec (.leaseDeadline fn i) s = .next t ∧
        t.chip.lease fn i.val = { l with state := .ended, expired := true, endAt := some s.chip.up } ∧
        t.chip.ev.waiting = s.chip.ev.waiting ++
          [{ line := 0x2F, kind := 1, inst := (fn * 256 + i.val) % 65536, detail := 0,
             value := (l.gen * 2 ^ 32 + l.seq) % 2 ^ 64, time := s.chip.t64, source := 0x3FF }]) ∧
    (l.state ≠ .active → exec (.leaseDeadline fn i) s = .next s) ∧
    (∀ value, s.chip.reaches fn = true → value % 64 = i.val →
      (l.state = .active → l.gen = bits value 6 15 →
        ∃ t, exec (.lsEndWrite fn value) s = .next t ∧
          t.chip.lease fn i.val = { l with state := .ended, expired := false, endAt := some s.chip.up } ∧ t.chip.ev = s.chip.ev) ∧
      (l.gen ≠ bits value 6 15 → exec (.lsEndWrite fn value) s = .next s) ∧
      (l.state ≠ .active → exec (.lsEndWrite fn value) s = .next s)) ∧
    (∀ off len e w, s.chip.reaches fn = true → inBar2 s.chip fn off len = true →
      windowAt s.chip fn off len = some (e, w) → w.kind = 1 →
      ∃ t, exec (.bar2LeaseRead fn off len) s = .next t ∧
        (leaseAt s.chip fn off len = some i.val →
          t.chip.rd = (List.range len).map fun k => l.data.getD (off - l.offset + k) 0) ∧
        (leaseAt s.chip fn off len = none → t.chip.rd = List.replicate len 0xFF) ∧
        (l.state = .ended → l.endAt ≠ some s.chip.up → off < l.offset + l.size → l.offset < off + len →
          t.chip.lease fn i.val = { l with lateRead := true }) ∧
        ((l.state ≠ .ended ∨ l.endAt = some s.chip.up ∨ l.offset + l.size ≤ off ∨ off + len ≤ l.offset) →
          t.chip.lease fn i.val = l)))) ∧
  (∀ s, s.chip.power.held = false →
  (∀ (b : Fin 17) k, b.val ∉ s.chip.store.banks →
    ((s.chip.store.bankErr.find? b.val = none ∨ ∃ t, s.chip.store.bankErr.find? b.val = some t ∧ t + msU < s.chip.up) →
      ∃ t, exec (.basketReadError b k) s = .next t ∧
        t.chip.store = { s.chip.store with bankErr := s.chip.store.bankErr.put b.val s.chip.up }) ∧
    (∀ u, s.chip.store.bankErr.find? b.val = some u → s.chip.up ≤ u + msU →
      ∃ t, exec (.basketReadError b k) s = .next t ∧ t.chip.store.banks = s.chip.store.banks ++ [b.val] ∧
        t.chip.faulted 8 b.val = true ∧
        { line := 0x16, kind := 1, inst := b.val, detail := 0, value := 0, time := s.chip.t64, source := 0x3FF } ∈
          t.chip.ev.waiting)) ∧
  (∀ (n : Fin 4) (pc : Fin 32) k key, key = n.val * 32 + pc.val → n.val ∉ s.chip.store.fsStacks →
    key ∉ s.chip.store.pcs →
    ((s.chip.store.pcErr.find? key = none ∨ ∃ t, s.chip.store.pcErr.find? key = some t ∧ t + msU < s.chip.up) →
      ∃ t, exec (.fsUncorrectableError n pc k) s = .next t ∧
        t.chip.store = { s.chip.store with pcErr := s.chip.store.pcErr.put key s.chip.up }) ∧
    (∀ u, s.chip.store.pcErr.find? key = some u → s.chip.up ≤ u + msU →
      (s.chip.store.pcs.filter fun p => p / 32 == n.val).length < 7 →
      ∃ t, exec (.fsUncorrectableError n pc k) s = .next t ∧ t.chip.store.pcs = s.chip.store.pcs ++ [key] ∧
        t.chip.store.fsStacks = s.chip.store.fsStacks ∧ t.chip.store.guard = false ∧ t.chip.faulted 4 key = true) ∧
    (7 ≤ (s.chip.store.pcs.filter fun p => p / 32 == n.val).length →
      ∃ t, exec (.fsInterfaceFail n (some pc)) s = .next t ∧ t.chip.store.pcs = s.chip.store.pcs ++ [key] ∧
        t.chip.store.fsStacks = s.chip.store.fsStacks ++ [n.val] ∧ t.chip.store.guard = false) ∧
    (∃ t, exec (.fsInterfaceFail n none) s = .next t ∧ t.chip.store.fsStacks = s.chip.store.fsStacks ++ [n.val] ∧
      t.chip.store.guard = false ∧ t.chip.faulted 5 n.val = true ∧
      { line := 0x16, kind := 2, inst := n.val * 32, detail := 2, value := 0, time := s.chip.t64, source := 0x3FF } ∈
        t.chip.ev.waiting)))

/-- R265, R277 to R282, R336, R370: the DMA commands. -/
def Obligations.DmaCommands : Prop := ∀ mb req s,
  (∀ sid v fold new, sid = u16 req 0 → sid ≤ 511 → u8 req 2 ≤ 4 → s.chip.stream? sid = some v →
    fold = (u8 req 2, if u8 req 2 = 3 then u16 req 4 else 0) → foldOk (u8 req 2) (u16 req 4) v = true →
    s.chip.ringsHold sid { v with fold := fold } v.place = true → new = s.chip.demands { v with fold := fold } v.place →
    (s.chip.admitStopped = false ∨ Chip.addsDemand v.resv new = false) →
    (s.chip.rung mb).overCap mb sid { v with fold := fold } v.place new = false →
    s.chip.admitStream sid v.prot v.resv new = none → routeRefusal s.chip v.place v.resv new = none →
    Issues cmdSetFold mb req s.chip →
    ∃ t, exec (.dmaSetFold mb req) s = .next t ∧ Ended mb stOK (s.chip.box mb).rsp [] t.chip ∧
      t.chip.stream? sid = some { v.noted s.chip.time.tb with fold := fold, resv := new } ∧
      (v.place.seam = false → Chip.seqAfter v.seqNext (v.frames.filter (·.phase == .judging)).length ∈
        (t.chip.wch (v.place.fn / 128) v.place.chan).foldSeq)) ∧
  (∀ p i f rate, p = u8 req 0 → i = u8 req 1 → f = u8 req 2 → rate = u32 req 8 → p ≤ 1 → i ≤ 63 → validFn f = true →
    f / 128 = p → u16 req 4 ≤ 511 → s.chip.stream? (u16 req 4) ≠ none → (s.chip.rch p i).fn = none →
    (s.chip.admitStopped = false ∨ rate = 0) →
    (rate * scale ≤ s.chip.capacity 5 p - s.chip.admitted 5 p →
      Ends cmdOpenRead .dmaOpenRead mb req s stOK []
        (s.chip.setRch p i { ChanSt.reset with fn := some f, stream := u16 req 4, rate := rate }) s.mem) ∧
    (s.chip.capacity 5 p - s.chip.admitted 5 p < rate * scale →
      Ends cmdOpenRead .dmaOpenRead mb req s stNOCAP
        (Chip.detail 5 p (rate * scale) (s.chip.capacity 5 p - s.chip.admitted 5 p)) s.chip s.mem)) ∧
  (∀ p i, p = u8 req 0 → i = u8 req 1 → p ≤ 1 → i ≤ 63 →
    ((s.chip.rch p i).state = .idle ∨ (s.chip.rch p i).state = .stopped → Issues cmdCloseRead mb req s.chip →
      ∃ t, exec (.dmaCloseRead mb req) s = .next t ∧ Ended mb stOK (s.chip.box mb).rsp [] t.chip ∧
        t.chip.rch p i = ChanSt.reset ∧
        ∀ r ∈ (t.chip.host p).reads, ∀ n, r.who ≠ .data i n ∧ r.who ≠ .desc true i n) ∧
    ((s.chip.rch p i).state ≠ .idle → (s.chip.rch p i).state ≠ .stopped →
      Ends cmdCloseRead .dmaCloseRead mb req s stBADSTATE [] s.chip s.mem)) ∧
  (∀ p i rd w, p = u8 req 0 → rd = (u8 req 1 == 1) → i = u8 req 2 → p ≤ 1 → u8 req 1 ≤ 1 → chanOk rd i = true →
    w = s.chip.shown rd p i →
    Ends cmdReadDma .dmaReadStatus mb req s stOK
      (wordBytes (chanBlock w mb) ++ le 2 (s.chip.host p).lateCpl ++ le 1 (b2n w.held.isSome) ++ le 1 0 ++
        (match w.held with | some h => stsBytes p i h w.recNext | none => [])) s.chip s.mem) ∧
  (∀ p f k cap, p = u8 req 0 → f = u8 req 1 → k = u8 req 2 → cap = u32 req 4 → p ≤ 1 → validFn f = true → f / 128 = p →
    (k = 1 ∨ k = 2) → u8 req 3 ≠ 0 → cap ≤ 230000 →
    ((cap = 0 ∨ s.chip.fnReserved none f k ≤ cap * scale) →
      Ends cmdSetQos .dmaSetQos mb req s stOK []
        (s.chip.setHost p (setQos (s.chip.host p) f k
          { qosOf (s.chip.host p) f k with weight := u8 req 3, cap := cap })) s.mem) ∧
    (cap ≠ 0 → cap * scale < s.chip.fnReserved none f k →
      Ends cmdSetQos .dmaSetQos mb req s stBADSTATE [] s.chip s.mem)) ∧
  (∀ p h fs, p = u8 req 0 → p ≤ 1 → h = s.chip.host p → fs = s.chip.portFns p →
    Ends cmdReadQos .dmaReadQos mb req s stOK
      (le 4 (boundU h fs.length) ++ (h.overdue.flatMap (le 4)) ++ le 1 (2 * fs.length) ++ le 3 0 ++
        fs.flatMap fun f => [1, 2].flatMap fun k =>
          le 1 f ++ le 1 k ++ le 1 (qosOf h f k).weight ++ le 1 0 ++ le 4 (qosOf h f k).cap ++
            le 4 ((s.chip.fnReserved none f k + scale - 1) / scale) ++ le 4 (qosOf h f k).lastCarried) s.chip s.mem)

/-- R264, R266, R271, R273, R285 to R287, R292, R293: a channel's doorbells and state, to the function that owns it; a
write of any other function is ignored. -/
def Obligations.ChannelDoorbells : Prop := ∀ s fn rd i p w, s.chip.power.held = false → validFn fn = true →
  chanOk rd i = true → s.chip.reaches fn = true → p = fn / 128 → w = s.chip.chan rd p i →
  (∀ v, w.fn ≠ some fn → exec (.dbDescTailWrite fn rd i v) s = .next s ∧ exec (.dbCtrlHalt fn rd i) s = .next s ∧
    exec (.dbCtrlAbort fn rd i) s = .next s ∧ exec (.dbCtrlArm fn rd i) s = .next s ∧
    (rd = false → exec (.dbRelWrite fn i v) s = .next s ∧ exec (.dbPegRelWrite fn i v) s = .next s)) ∧
  (w.fn = some fn →
    (∀ b, b = chanBlock (s.chip.shown rd p i) fn →
      exec (.ringStateRead fn rd i) s = .next { s with
        chip := ({ s.chip with
          rd := le 4 (b.getD 0 0),
          hosts.chLatches := s.chip.hosts.chLatches.put (fn * 512 + (if rd then 256 + i else i)) b } : Chip).complete fn 0 0 }) ∧
    (∀ v, v < 2 ^ 32 →
      ((v + 2 ^ 32 - w.head) % 2 ^ 32 ≤ 2 ^ w.descLog2 →
        ∃ t, exec (.dbDescTailWrite fn rd i v) s = .next t ∧ t.chip.chan rd p i = { w with tail := v }) ∧
      (2 ^ w.descLog2 < (v + 2 ^ 32 - w.head) % 2 ^ 32 →
        ∃ t, exec (.dbDescTailWrite fn rd i v) s = .next t ∧
          t.chip.chan rd p i = { w with badDb := min (w.badDb + 1) 65535, flags := setBit w.flags 2 })) ∧
    (∀ v, rd = false → v < 2 ^ 32 →
      ((v + 2 ^ 32 - w.rel) % 2 ^ 32 ≤ ((s.chip.ringWr p i + 63) / 64 + 2 ^ 32 - w.rel) % 2 ^ 32 →
        ∃ t st, exec (.dbRelWrite fn i v) s = .next t ∧ t.chip.wch p i = { w with rel := v, state := st } ∧
          (st = w.state ∨ w.state = .waitSpace ∧ st = .run)) ∧
      (((s.chip.ringWr p i + 63) / 64 + 2 ^ 32 - w.rel) % 2 ^ 32 < (v + 2 ^ 32 - w.rel) % 2 ^ 32 →
        ∃ t, exec (.dbRelWrite fn i v) s = .next t ∧
          t.chip.wch p i = { w with badDb := min (w.badDb + 1) 65535, flags := setBit w.flags 2 }) ∧
      ((v + 2 ^ 32 - w.pegRel) % 2 ^ 32 ≤ (s.chip.ringPeg p i + 2 ^ 32 - w.pegRel) % 2 ^ 32 →
        ∃ t st, exec (.dbPegRelWrite fn i v) s = .next t ∧ t.chip.wch p i = { w with pegRel := v, state := st } ∧
          (st = w.state ∨ w.state = .waitSpace ∧ st = .run)) ∧
      ((s.chip.ringPeg p i + 2 ^ 32 - w.pegRel) % 2 ^ 32 < (v + 2 ^ 32 - w.pegRel) % 2 ^ 32 →
        ∃ t, exec (.dbPegRelWrite fn i v) s = .next t ∧
          t.chip.wch p i = { w with badDb := min (w.badDb + 1) 65535, flags := setBit w.flags 2 })) ∧
    (w.state = .stopped → w.fetched = [] → w.alternate = false →
      ∃ t, exec (.dbCtrlArm fn rd i) s = .next t ∧ (t.chip.chan rd p i).state = .run ∧
        (t.chip.chan rd p i).cfg = w.cfg ∧ (t.chip.chan rd p i).held = none ∧ (t.chip.chan rd p i).flags = w.flags) ∧
    (w.state ≠ .stopped → w.fetched = [] →
      ∃ t, exec (.dbCtrlArm fn rd i) s = .next t ∧ t.chip.hosts = s.chip.hosts) ∧
    (w.running = false →
      (∃ t, exec (.dbCtrlHalt fn rd i) s = .next t ∧ t.chip.hosts = s.chip.hosts) ∧
      ∃ t, exec (.dbCtrlAbort fn rd i) s = .next t ∧ t.chip.hosts = s.chip.hosts) ∧
    (∀ v, rd = false → w.running = true → s.chip.stream? w.stream = some v →
      (∃ t, exec (.dbCtrlAbort fn rd i) s = .next t ∧ (t.chip.wch p i).state = .stopped ∧ (t.chip.wch p i).cause = 2) ∧
      (Chip.cutFrame v fn i = none →
        ∃ t, exec (.dbCtrlHalt fn rd i) s = .next t ∧ (t.chip.wch p i).state = .stopped ∧ (t.chip.wch p i).cause = 1) ∧
      (Chip.cutFrame v fn i ≠ none →
        ∃ t, exec (.dbCtrlHalt fn rd i) s = .next t ∧ t.chip.wch p i = { w with halting := true })) ∧
    (rd = true → w.running = true →
      (w.xfer = none → w.aborting = false →
        ∃ t, exec (.dbCtrlHalt fn rd i) s = .next t ∧ (t.chip.rch p i).state = .stopped ∧ (t.chip.rch p i).cause = 1) ∧
      (w.xfer ≠ none → ∃ t, exec (.dbCtrlHalt fn rd i) s = .next t ∧ t.chip.rch p i = { w with halting := true }) ∧
      ((∀ x, w.xfer = some x → x.asked = x.got) →
        ∃ t, exec (.dbCtrlAbort fn rd i) s = .next t ∧ (t.chip.rch p i).state = .stopped ∧ (t.chip.rch p i).cause = 2) ∧
      (∀ x, w.xfer = some x → x.asked ≠ x.got →
        ∃ t, exec (.dbCtrlAbort fn rd i) s = .next t ∧ t.chip.rch p i = { w with aborting := true })))

/-- R263, R266 to R269, R281, R285: fetched descriptors, read requests, completions and their time-outs. -/
def Obligations.DmaReads : Prop := ∀ s (p : Fin 2) h, s.chip.power.held = false → h = s.chip.host p.val →
  (∀ rd i w n b rest fn, chanOk rd i = true → w = s.chip.chan rd p.val i → w.fn = some fn → s.chip.fnLive fn = true →
    w.fetched = (n, b) :: rest →
    ((w.state = .idle ∨ rd = false ∧ w.state = .stopped) → w.xfer = none → u8 b 0 = 0 →
      ∃ t, exec (.descriptorExecute p rd i) s = .next t ∧
        t.chip.chan rd p.val i = { w with fetched := rest, last := (n % 2 ^ 32, u32 b 36) }) ∧
    ((w.state = .idle ∨ rd = false ∧ w.state = .stopped) → w.xfer = none → u8 b 0 = (if rd then 2 else 1) →
      Chip.cfgOk s.chip rd w (Chip.cfgOf b n) = true →
      ∃ t, exec (.descriptorExecute p rd i) s = .next t ∧ (t.chip.chan rd p.val i).fetched = rest ∧
        (t.chip.chan rd p.val i).state = .stopped ∧ (t.chip.chan rd p.val i).cfg = some (Chip.cfgOf b n) ∧
        (t.chip.chan rd p.val i).wr = 0 ∧ (t.chip.chan rd p.val i).rel = 0 ∧ (t.chip.chan rd p.val i).pegs = 0) ∧
    ((w.state = .idle ∨ rd = false ∧ w.state = .stopped) → w.xfer = none → u8 b 0 = (if rd then 2 else 1) →
      Chip.cfgOk s.chip rd w (Chip.cfgOf b n) = false →
      ∃ t, exec (.descriptorExecute p rd i) s = .next t ∧ (t.chip.chan rd p.val i).fetched = rest ∧
        (t.chip.chan rd p.val i).state = w.state ∧ (t.chip.chan rd p.val i).cause = 4 ∧
        (t.chip.chan rd p.val i).cfg = w.cfg) ∧
    (∀ x : Transfer, rd = true → w.state = .run → w.halting = false → w.xfer = none → u8 b 0 = 3 →
      x = { tag := u32 b 36, src := u64 b 8, length := u32 b 16, kind := u8 b 4, handle := u32 b 24, offset := u32 b 28,
            irq := bit (u8 b 1) 3, index := n, asked := 0, got := 0, failed := false } → 4 ≤ x.length → x.length ≤ 16777216 →
      x.length % 4 = 0 → x.src % 4 = 0 →
      (n ∉ w.badFetch → ∃ t, exec (.descriptorExecute p rd i) s = .next t ∧
        t.chip.rch p.val i = { w with fetched := rest, last := (n % 2 ^ 32, x.tag), xfer := some x }) ∧
      (n ∈ w.badFetch → ∃ t, exec (.descriptorExecute p rd i) s = .next t ∧
        (t.chip.rch p.val i).fetched = rest ∧ (t.chip.rch p.val i).xfer = none))) ∧
  (64 ≤ h.reads.length → ∃ t, exec (.readRequestIssue p) s = .next t ∧ t.chip.hosts = s.chip.hosts) ∧
  (Chip.freeTag h = none → ∃ t, exec (.readRequestIssue p) s = .next t ∧ t.chip.hosts = s.chip.hosts) ∧
  (∀ k i rd w fn g, h.reads.length < 64 → Chip.freeTag h = some g → ((List.range 320).map fun n => (h.rrRead + n) % 320).find? (s.chip.wantsRead p.val) = some k →
    rd = decide (256 ≤ k) → i = (if rd then k - 256 else k) → w = s.chip.chan rd p.val i → w.fn = some fn →
    (Chip.wantsDesc rd w = true →
      ∃ t, exec (.readRequestIssue p) s = .next t ∧ t.chip.chan rd p.val i = { w with asked := (w.asked + 1) % 2 ^ 32 } ∧
        (t.chip.host p.val).rrRead = (k + 1) % 320 ∧
        (t.chip.host p.val).reads = h.reads ++ [{ tag := g, who := .desc rd i w.asked, len := 64, data := none }] ∧
        (t.chip.host p.val).qM = h.qM ++
          [{ cls := 3, fn := fn, kind := .read g, addr := w.descBase + 64 * (w.asked % 2 ^ w.descLog2), data := [],
             size := 16, start := s.chip.up, vecs := [] }]) ∧
    (∀ x n, Chip.wantsDesc rd w = false → w.xfer = some x → s.chip.targetOk w x = true → n = s.chip.nextRead w →
      ∃ t, exec (.readRequestIssue p) s = .next t ∧
        t.chip.chan rd p.val i = { w with xfer := some { x with asked := x.asked + n }, spent := w.spent + n } ∧
        (t.chip.host p.val).reads = h.reads ++ [{ tag := g, who := .data i n, len := n, data := none }] ∧
        (t.chip.host p.val).qM = h.qM ++
          [{ cls := 3, fn := fn, kind := .read g, addr := x.src + x.asked, data := [], size := 16, start := s.chip.up,
             vecs := [] }])) ∧
  (∀ tag status bad data,
    (tag ∈ h.lateTags → ∃ t, exec (.completionReceived p tag status bad data) s = .next t ∧
      t.chip.host p.val = { h with lateCpl := min (h.lateCpl + 1) 65535 }) ∧
    (tag ∉ h.lateTags → h.state ≠ .frozen → (h.state = .down ∨ ∀ r ∈ h.reads, r.tag ≠ tag) →
      exec (.completionReceived p tag status bad data) s = .next s) ∧
    (tag ∉ h.lateTags → h.state = .frozen → status = 0 → bad = false →
      exec (.completionReceived p tag status bad data) s = .next s) ∧
    (tag ∉ h.lateTags → h.state = .frozen → h.frzAt ≠ s.chip.up → (status ≠ 0 ∨ bad = true) →
      ∃ t, exec (.completionReceived p tag status bad data) s = .next t ∧
        (t.chip.host p.val).frzExtra = min (h.frzExtra + 1) 65535 ∧ (t.chip.host p.val).state = .frozen) ∧
    (∀ r, h.reads = [r] → r.tag = tag → tag ∉ h.lateTags → (h.state = .service ∨ h.state = .early) →
      (status ≠ 0 → status ≠ 4 → ∃ t, exec (.completionReceived p tag status bad data) s = .next t ∧
        (t.chip.host p.val).state = .frozen ∧ (t.chip.host p.val).frzCause = 2) ∧
      (status = 4 → ∃ t, exec (.completionReceived p tag status bad data) s = .next t ∧
        (t.chip.host p.val).state = .frozen ∧ (t.chip.host p.val).frzCause = 3) ∧
      (status = 0 → bad = true → ∃ t, exec (.completionReceived p tag status bad data) s = .next t ∧
        (t.chip.host p.val).state = .frozen ∧ (t.chip.host p.val).frzCause = 4) ∧
      (∀ rd i n w, status = 0 → bad = false → r.who = .desc rd i n → r.len = 64 → r.data = none → data.length = 64 →
        w = s.chip.chan rd p.val i →
        ∃ t, exec (.completionReceived p tag status bad data) s = .next t ∧ (t.chip.host p.val).reads = [] ∧
          t.chip.chan rd p.val i = { w with
            fetched := w.fetched ++ [(n, data)], head := (n + 1) % 2 ^ 32,
            badFetch := w.badFetch.filter (· != n) ++
              if rd = true ∧ u8 data 0 = 3 ∧ s.chip.targetOk w (Chip.transferOf n data) = false then [n] else [] }) ∧
      (∀ i w x, status = 0 → bad = false → r.who = .data i r.len → r.data = none → data.length = r.len →
        w = s.chip.rch p.val i → w.xfer = some x → w.aborting = false → x.failed = false → s.chip.targetOk w x = true →
        x.got + r.len < x.length →
        ∃ t, exec (.completionReceived p tag status bad data) s = .next t ∧
          t.chip.rch p.val i = { w with xfer := some { x with got := x.got + r.len } } ∧
          t.mem = s.mem.writeBytes ((if x.kind = 1 then tableBase x.handle else overlayBase x.handle) + x.offset + x.got) data))) ∧
  (∀ r tag, h.reads = [r] → r.tag = tag → h.state = .service →
    ∃ t, exec (.completionTimeout p tag) s = .next t ∧ (t.chip.host p.val).reads = [] ∧
      (t.chip.host p.val).lateTags = h.lateTags ++ [tag] ∧
      (t.chip.host p.val).cplTimeout = min (h.cplTimeout + 1) 65535 ∧ (t.chip.host p.val).state = .frozen ∧
      (t.chip.host p.val).frzCause = 1)

/-- R252, R253, R270, R274, R275, R312, R327: what leaves a write channel, and the order at the port; a peg takes STALE,
and its lease its deadline, as it leaves. -/
def Obligations.DmaIssue : Prop := ∀ s (p : Fin 2) h, s.chip.power.held = false → h = s.chip.host p.val →
  (∀ i w v g, i < 256 → w = s.chip.wch p.val i → s.chip.stream? w.stream = some v → w.cfg = some g →
    ((w.state = .run ∨ w.state = .waitMark) → w.issuing = false → (g.startMark ≤ queueSlots v ∨ hasEnd v = true) →
      ∃ t, exec (.writeChannelIssueStart p i) s = .next t ∧ t.chip.wch p.val i = { w with state := .run, issuing := true }) ∧
    (queueSlots v < g.startMark → hasEnd v = false →
      ∃ t, exec (.writeChannelIssueStart p i) s = .next t ∧ t.chip.hosts = s.chip.hosts) ∧
    (∀ fn f, w.fn = some fn → s.chip.fnLive fn = true → w.halting = false → headFrame v = some f →
      f.place.seam = false → f.place.fn = fn → f.place.chan = i →
      (f.phase = .lost → f.start = none → w.state = .run → Chip.pegFree w = true → w.foldSeq = [] →
        ∃ t u, exec (.writeBurstIssue p i) s = .next t ∧ (t.chip.wch p.val i).pegs = (w.pegs + 1) % 2 ^ 32 ∧
          t.chip.stream? w.stream = some u ∧ ∃ k ∈ u.frames, k.seq = f.seq ∧ k.phase = .pegged) ∧
      (∀ off n, v.lease = false → v.mode ≠ 1 → f.phase = .finished → w.state = .run → w.issuing = true →
        Chip.pegFree w = true → off = (match f.start with | some o => o + f.issued | none => (w.wr + 63) / 64 * 64) →
        n = min 4096 (f.bytes.length - f.issued) → 0 < n → g.dataLog2 ≤ 36 → 64 * w.rel ≤ off →
        off + n ≤ 64 * w.rel + 2 ^ g.dataLog2 →
        ∃ t u, exec (.writeBurstIssue p i) s = .next t ∧ (t.chip.wch p.val i).wr = off + n ∧
          (t.chip.wch p.val i).state = (if queueSlots u ≤ g.stopMark ∧ hasEnd u = false then .waitMark else .run) ∧
          t.chip.stream? w.stream = some u ∧
          ∃ k ∈ u.frames, k.seq = f.seq ∧ k.issued = f.issued + n ∧ k.start = some (off - f.issued)) ∧
      (v.lease = false → f.phase = .finished → w.state = .run → w.issuing = true → f.start = none → Chip.pegFree w = false →
        ∃ t, exec (.writeBurstIssue p i) s = .next t ∧
          t.chip.wch p.val i = { w with
            state := .waitSpace, spaceWaits := min (w.spaceWaits + 1) 65535, flags := setBit w.flags 1 }))) ∧
  (∀ cw rc, (h.state = .service ∨ h.state = .early) → ((h.tx.drop 1).map (·.size)).sum ≤ 2048 →
    (∀ t0 rest, h.qU = t0 :: rest → h.uWait = [] → t0.vecs = [] → t0.kind = .event →
      ∃ t, exec (.issueArbitration p cw rc) s = .next t ∧ (t.chip.host p.val).qU = rest ∧
        (t.chip.host p.val).tx = h.tx ++ [t0] ∧ (t.chip.host p.val).qP = h.qP ∧ (t.chip.host p.val).qB = h.qB ∧
        (t.chip.host p.val).qM = h.qM) ∧
    (∀ t0 rest sid i q v f, h.qU = t0 :: rest → h.uWait = [] → t0.vecs = [] → t0.kind = .peg sid i q → s.chip.stream? sid = some v →
      v.frames.find? (fun f => f.phase == .pegged && f.seq == q) = some f → s.chip.coversStream 0 v = false →
      s.chip.coversStream 1 v = false →
      ∃ t, exec (.issueArbitration p cw rc) s = .next t ∧ (t.chip.host p.val).qU = rest ∧
        (t.chip.host p.val).tx = h.tx ++ [{ t0 with
          data := Chip.flagPeg t0.data (f.flags ||| (if f.eofT ≠ 0 ∧ f.eofT + v.fresh * 1000000 < s.chip.t64 then fSTALE else 0)) }] ∧
        (∀ k o, f.lease = some (k, o) → (t.chip.lease f.place.fn k).state = .active ∧
          (t.chip.lease f.place.fn k).deadline = s.chip.t64 + v.leaseMs * 1000000)) ∧
    (∀ t0 rest n, h.state = .service → h.qU = [] → h.qP = [] → h.qB = [] → h.qM = t0 :: rest → t0.kind = .read n →
      t0.vecs = [] →
      ∃ t, exec (.issueArbitration p cw rc) s = .next t ∧ (t.chip.host p.val).qM = rest ∧
        (t.chip.host p.val).tx = h.tx ++ [t0]) ∧
    (h.qU = [] → h.qP = [] → h.qB = [] → h.qM = [] →
      ∃ t, exec (.issueArbitration p cw rc) s = .next t ∧ (t.chip.host p.val).tx = h.tx)) ∧
  (∀ cw rc, (h.state = .down ∨ h.state = .frozen ∨ 2048 < ((h.tx.drop 1).map (·.size)).sum) →
    ∃ t, exec (.issueArbitration p cw rc) s = .next t ∧ (t.chip.host p.val).tx = h.tx ∧ (t.chip.host p.val).qU = h.qU)

/-- R302, R305, R307, R308, R318, R320, R370: the host port commands. A command that freezes or releases a port comes
here through another mailbox than that port's. -/
def Obligations.HostCommands : Prop := ∀ mb req s,
  (∀ p l pf vf, p = u8 req 0 → l = u8 req 1 → pf = u8 req 2 → vf = u8 req 3 → p ≤ 1 → 8 ≤ l → l ≤ 64 → l % 8 = 0 →
    30 ≤ pf → pf ≤ 37 → (vf = 0 ∨ (26 ≤ vf ∧ vf ≤ 34)) →
    Ends cmdSetFunctions .hostSetFunctions mb req s stOK []
      (s.chip.setHost p { s.chip.host p with stored := some (l, pf, vf) }) s.mem) ∧
  (∀ f e log2 g, f = u8 req 1 → e = u8 req 2 → log2 = u8 req 4 → g = s.chip.fn f → u8 req 0 ≤ 1 → validFn f = true →
    f / 128 = u8 req 0 → u8 req 5 ≤ 1 → windowOk s.chip f e (u8 req 3) log2 (u64 req 8) = true →
    (g.windows.getD WindowSt.reset e).kind = 0 →
    (u8 req 3 = 1 →
      Ends cmdSetWindow .hostSetWindow mb req s stOK (le 4 0)
        (s.chip.setFn f { g with
          windows := g.windows.put e
            { kind := 1, write := u8 req 5 == 1, log2 := log2, base := u64 req 8, handle := 0, refused := 0, space := 0 } })
        s.mem) ∧
    (∀ h, u8 req 3 = 2 → h = s.chip.hosts.nextBuf → s.chip.admitStopped = false →
      (2 ^ (log2 - 20) * scale ≤ s.chip.capacity 3 0 - s.chip.admitted 3 0 →
        Ends cmdSetWindow .hostSetWindow mb req s stOK (le 4 h)
          { s.chip.setFn f { g with
              windows := g.windows.put e
                { kind := 2, write := u8 req 5 == 1, log2 := log2, base := u64 req 8, handle := h, refused := 0,
                  space := 2 ^ (log2 - 20) } } with
            hosts.nextBuf := if h + 1 = 2 ^ 32 then 1 else h + 1 } (s.mem.erase (bufBase h) (2 ^ log2))) ∧
      (s.chip.capacity 3 0 - s.chip.admitted 3 0 < 2 ^ (log2 - 20) * scale →
        Ends cmdSetWindow .hostSetWindow mb req s stNOCAP
          (Chip.detail 3 0 (2 ^ (log2 - 20) * scale) (s.chip.capacity 3 0 - s.chip.admitted 3 0)) s.chip s.mem))) ∧
  (∀ f e g w, f = u8 req 1 → e = u8 req 2 → g = s.chip.fn f → u8 req 0 ≤ 1 → validFn f = true → f / 128 = u8 req 0 →
    e < entries f → w = g.windows.getD WindowSt.reset e →
    ((w.kind = 1 → holdsLease s.chip f = false) →
      Ends cmdClearWindow .hostClearWindow mb req s stOK []
        (s.chip.setFn f { g with
          windows := g.windows.drop e,
          cleared := (if w.kind = 2 then [(s.chip.up, w)] else []) ++ g.cleared.filter fun x => x.1 == s.chip.up }) s.mem) ∧
    (w.kind = 1 → holdsLease s.chip f = true →
      Ends cmdClearWindow .hostClearWindow mb req s stBADSTATE [] s.chip s.mem)) ∧
  (∀ p h, p = u8 req 0 → p ≤ 1 → h = s.chip.host p →
    (256 ≤ mb ∨ mb / 128 ≠ p → (h.state = .service ∨ h.state = .early) → Issues cmdFreezePort mb req s.chip →
      ∃ t, exec (.hostFreezePort mb req) s = .next t ∧ Ended mb stOK (s.chip.box mb).rsp [] t.chip ∧
        (t.chip.host p).state = .frozen ∧ (t.chip.host p).frzCause = 8 ∧
        (t.chip.host p).frzSeq = (h.frzSeq + 1) % 65536 ∧ (t.chip.host p).frzTime = s.chip.t64) ∧
    (h.state ≠ .service → h.state ≠ .early →
      Ends cmdFreezePort .hostFreezePort mb req s stBADSTATE [] s.chip s.mem) ∧
    (256 ≤ mb ∨ mb / 128 ≠ p → h.state = .frozen → Issues cmdReleasePort mb req s.chip →
      ∃ t, exec (.hostReleasePort mb req) s = .next t ∧ Ended mb stOK (s.chip.box mb).rsp [] t.chip ∧
        (h.link = false → (t.chip.host p).state = .down) ∧
        (h.link = true →
          ((∀ x, h.extraLast = some x → x.1 ≠ s.chip.up) → (t.chip.host p).state = .early ∨ (t.chip.host p).state = .service) ∧
          (∀ k, h.extraLast = some (s.chip.up, k) → (t.chip.host p).state = .frozen ∧ (t.chip.host p).frzCause = k)) ∧
        (t.chip.host p).reads = [] ∧ (t.chip.host p).lateTags = h.lateTags) ∧
    (256 ≤ mb ∨ mb / 128 ≠ p → h.state ≠ .frozen →
      Ends cmdReleasePort .hostReleasePort mb req s stBADSTATE [] s.chip s.mem) ∧
    Ends cmdReadHost .hostReadStatus mb req s stOK
      (wordBytes (hostPage s.chip (p * 128)) ++ wordBytes (freezeRegs s.chip p)) s.chip s.mem ∧
    Ends cmdClearHost .hostClearCounts mb req s stOK []
      (s.chip.setHost p { h with lateCpl := 0, cplTimeout := 0, unmapped := 0, badAccess := 0, failovers := 0 }) s.mem)

/-- R11, R304 to R306, R309, R340, R481 to R492: reads and writes of a function's BARs, where a view that does not reach
them brings nothing and changes nothing; and how each access of MT at its own address ends, in each style. -/
def Obligations.HostAccess : Prop := ∀ s fn, s.chip.power.held = false → validFn fn = true →
  (s.chip.reaches fn = false → ∀ off len v be,
    (inBar2 s.chip fn off len = true →
      exec (.bar2Read fn off len) s = .next { s with chip := s.chip.turnAway fn off }) ∧
    exec (.hpStateRead fn) s = .next { s with chip := s.chip.turnAway fn 0 } ∧
    exec (.registerWrite fn off v be) s = .next s) ∧
  (s.chip.reaches fn = true →
    exec (.hpStateRead fn) s = .next { s with
      chip := ({ s.chip with
        rd := le 4 ((hostPage s.chip fn).getD 0 0),
        hosts.hpLatches := s.chip.hosts.hpLatches.put fn (hostPage s.chip fn) } : Chip).complete fn 0 0 } ∧
    (∃ t, exec (.rcRegisterRead (.mbxCnt fn)) s = .next t ∧
      t.chip.rd = le 4 ((s.chip.box fn).ignored * 65536 + (s.chip.box fn).cancelLate) ∧
      t.chip.box fn = { s.chip.box fn with ignored := 0, cancelLate := 0 }) ∧
    (∀ (v : Nat), exec (.registerWrite fn 0x20 v 15) s = .next { s with
      chip := s.chip.setFn fn { s.chip.fn fn with hpFlags := clearBits (s.chip.fn fn).hpFlags (v % 2 ^ 32 % 32) } }) ∧
    (∀ (be : Fin 16) v h, be.val ≠ 15 → h = s.chip.host (fn / 128) →
      exec (.registerWrite fn 0x20 v be) s = .next { s with
        chip := s.chip.setHost (fn / 128) { h with badAccess := min (h.badAccess + 1) 65535 } }) ∧
    (∀ o, o % 4 = 0 → o < 4096 → (s.chip.box fn).state = .idle → ∀ v, v < 2 ^ 32 →
      ∃ t, exec (.registerWrite fn (0x20000 + o) v 15) s = .next t ∧
        t.chip.box fn = { s.chip.box fn with req := (s.chip.box fn).req.writeBytes o (le 4 v) }) ∧
    (∀ o v, o % 4 = 0 → o < 4096 → (s.chip.box fn).closed = true →
      ∃ t, exec (.registerWrite fn (0x20000 + o) v 15) s = .next t ∧
        t.chip.box fn = { s.chip.box fn with ignored := min ((s.chip.box fn).ignored + 1) 65535 }) ∧
    (∀ off len, inBar2 s.chip fn off len = true → len ≤ 4096 →
      (windowAt s.chip fn off len = none →
        (∀ x ∈ (s.chip.fn fn).cleared, x.1 = s.chip.up → x.2.base ≤ off → x.2.base + 2 ^ x.2.log2 < off + len) →
        ∃ t, exec (.bar2Read fn off len) s = .next t ∧ t.chip.rd = List.replicate len 0xFF ∧ t.mem = s.mem ∧
          (t.chip.host (fn / 128)).unmapped = min ((s.chip.host (fn / 128)).unmapped + 1) 65535) ∧
      (∀ w, windowAt s.chip fn off len = none → (s.chip.fn fn).cleared = [(s.chip.up, w)] → w.base ≤ off →
        off + len ≤ w.base + 2 ^ w.log2 →
        ∃ t, exec (.bar2Read fn off len) s = .next t ∧ t.mem = s.mem ∧
          t.chip.rd = s.mem.readBytes (bufBase w.handle + (off - w.base)) len) ∧
      (∀ e w, windowAt s.chip fn off len = some (e, w) → w.kind = 2 →
        ∃ t, exec (.bar2Read fn off len) s = .next t ∧ t.mem = s.mem ∧
          t.chip.rd = s.mem.readBytes (bufBase w.handle + (off - w.base)) len)) ∧
    (∀ off data, inBar2 s.chip fn off data.length = true →
      (∀ e w, windowAt s.chip fn off data.length = some (e, w) →
        (w.kind = 2 → w.write = true →
          ∃ t, exec (.bar2Write fn off data) s = .next t ∧
            t.mem = s.mem.writeBytes (bufBase w.handle + (off - w.base)) data ∧ t.chip.hosts = s.chip.hosts) ∧
        (w.kind ≠ 2 ∨ w.write = false →
          ∃ t, exec (.bar2Write fn off data) s = .next t ∧ t.mem = s.mem ∧
            (t.chip.fn fn).windows = (s.chip.fn fn).windows.put e { w with refused := min (w.refused + 1) 65535 })) ∧
      (windowAt s.chip fn off data.length = none →
        ∃ t, exec (.bar2Write fn off data) s = .next t ∧ t.mem = s.mem ∧ t.chip.fn fn = s.chip.fn fn))) ∧
  (exec (.rcRegisterRead .mtErrPec) s = .next { s with
      chip := { s.chip with rd := le 1 s.chip.mt.errPec, mt.errPec := 0 } } ∧
    exec (.rcRegisterRead .mtErrAccess) s = .next { s with
      chip := { s.chip with rd := le 1 s.chip.mt.errAccess, mt.errAccess := 0 } } ∧
    exec (.rcRegisterRead .mtTimeouts) s = .next { s with
      chip := { s.chip with rd := le 1 s.chip.mt.timeouts, mt.timeouts := 0 } }) ∧
  (s.chip.mailboxUp = true → ∀ a, a = s.chip.mtAddress →
    (s.chip.mt.style = true →
      (∀ p, exec (.mtSetPointer a p) s = .next { s with chip := { s.chip with mt.pointer := p % 256 } }) ∧
      (∀ p d, ∃ t, exec (.mtPointerWrite a p d) s = .next t) ∧
      (∀ p n, ∃ t, exec (.mtReadAtPointer a p n) s = .next t ∧ t.chip.rd.length = n ∧
        t.chip.mt.pointer = (p % 256 + n) % 256) ∧
      ∀ n, ∃ t, exec (.mtReadOn a n) s = .next t ∧ t.chip.rd.length = n ∧
        t.chip.mt.pointer = (s.chip.mt.pointer + n) % 256) ∧
    (s.chip.mt.style = false →
      (∀ code p, code ∈ [2, 3, 4, 5, 6, 0x0C, 0x0D, 0x0E] →
        ∃ t, exec (.mtReadByte a code p) s = .next t ∧ t.chip.rd.length = 1 + b2n p ∧
          t.chip.rd.head? = some (BitVec.ofNat 8 (s.chip.mtReg code))) ∧
      (∀ code p, code ∈ [0, 8] →
        ∃ t, exec (.mtReadWord a code p) s = .next t ∧ t.chip.rd.length = 2 + b2n p ∧
          t.chip.rd.take 2 = [BitVec.ofNat 8 (s.chip.mtReg code), BitVec.ofNat 8 (s.chip.mtReg (code + 1))]) ∧
      (∀ code p, 0x80 ≤ code → code ≤ 0xFF →
        ∃ t, exec (.mtBlockRead a code p) s = .next t ∧ t.chip.rd.length = 1 + min 128 (0x100 - code) + b2n p) ∧
      (s.chip.mt.pecReq = false →
        (∀ v, v < 256 → exec (.mtWriteByte a 5 v none) s = .next { s with chip := { s.chip with
          mt.mask := v, mt.reported := clearBits s.chip.mt.reported (clearBits v s.chip.mt.mask) } }) ∧
        (∀ lo hi, lo < 256 → hi < 256 → exec (.mtWriteWord a 8 lo hi none) s = .next { s with chip := { s.chip with
          mt.winBase := hi % 32 * 256 + lo } }) ∧
        ∀ k d, k < 32 → d.length = 4 → Chip.singly (128 * s.chip.mt.winBase + 4 * k) = false →
          exec (.mtBlockWrite a (0x80 + 4 * k) 4 d none) s = .next { s with
            chip := s.chip.writeDword mtView (128 * s.chip.mt.winBase + 4 * k) (u32 d 0) 15 })) ∧
    (s.chip.unreported = 0 → exec (.mtAlertResponse []) s = .next { s with chip := { s.chip with rd := [] } }) ∧
    (s.chip.unreported ≠ 0 → s.chip.unreported < 256 → ∃ t, exec (.mtAlertResponse []) s = .next t ∧
      t.chip.rd = le 1 (2 * a) ∧ bit s.chip.unreported t.chip.mt.cur = true ∧
      t.chip.mt.reported = setBit s.chip.mt.reported t.chip.mt.cur) ∧
    (∀ b : Fin 8, exec (.alertRereport b) s = .next { s with chip := { s.chip with
      mt.reported := if bit s.chip.mt.src b.val then clearBits s.chip.mt.reported (2 ^ b.val) else s.chip.mt.reported } }) ∧
    exec .mtSclTimeout s = .next { s with chip := { s.chip with mt.timeouts := min (s.chip.mt.timeouts + 1) 255 } })

/-- R294 to R297, R317 to R320, R322: the link, PERSTn# and the triggers of a freeze. -/
def Obligations.PortEvents : Prop := ∀ s (p : Fin 2) h, h = s.chip.host p.val →
  (s.chip.power.held = true →
    exec (.perstAssert p) s = .next { s with chip := s.chip.setHost p.val { h with perst := true, ready := false } } ∧
    exec (.perstDeassert p) s = .next { s with chip := s.chip.setHost p.val { h with perst := false, ready := false } }) ∧
  (s.chip.power.held = false →
  (∀ seq, (h.state = .frozen → h.link = true → h.frzSeq = seq → (∀ x, h.extraLast = some x → x.1 ≠ s.chip.up) →
      ∃ t, exec (.frzCtrlRelease p seq) s = .next t ∧
        ((t.chip.host p.val).state = .early ∨ (t.chip.host p.val).state = .service)) ∧
    (h.state ≠ .frozen ∨ h.link = false ∨ h.frzSeq ≠ seq → exec (.frzCtrlRelease p seq) s = .next s)) ∧
  exec (.perstDeassert p) s = .next { s with
    chip := s.chip.setHost p.val { h with perst := false, ready := s.chip.mailboxUp } } ∧
  (∃ t, exec (.perstAssert p) s = .next t ∧ (t.chip.host p.val).perst = true ∧ (t.chip.host p.val).ready = false ∧
    (t.chip.host p.val).link = false ∧
    (h.state = .service → (t.chip.host p.val).state = .frozen ∧ (t.chip.host p.val).frzCause = 6) ∧
    (h.state = .early → (t.chip.host p.val).state = .down)) ∧
  (h.state = .early → ∃ t, exec (.dlActiveLost p) s = .next t ∧
    t.chip.host p.val = { h with link := false, state := .down, lateTags := [] }) ∧
  (h.state = .service → ∃ t, exec (.dlActiveLost p) s = .next t ∧ (t.chip.host p.val).state = .frozen ∧
    (t.chip.host p.val).frzCause = 6 ∧ (t.chip.host p.val).frzLink = true) ∧
  (h.state = .frozen → ∃ t, exec (.dlActiveLost p) s = .next t ∧
    t.chip.host p.val = { h with link := false, frzLink := true, lateTags := [] }) ∧
  ((h.state = .service ∨ h.state = .early) →
    (∃ t, exec (.poisonedWriteReceived p) s = .next t ∧ (t.chip.host p.val).state = .frozen ∧
      (t.chip.host p.val).frzCause = 5 ∧ ∃ f ∈ s.chip.portFns p.val, bit (t.chip.fn f).aer 12 = true) ∧
    ∃ t, exec (.portUeDetected p) s = .next t ∧ (t.chip.host p.val).state = .frozen ∧ (t.chip.host p.val).frzCause = 7 ∧
      { line := 0x19, kind := 1, inst := p.val, detail := 7, value := (h.frzSeq + 1) % 65536, time := s.chip.t64,
        source := 0x3FF } ∈ t.chip.ev.waiting) ∧
  (h.state = .frozen → ∃ t, exec (.portUeDetected p) s = .next t ∧
    (h.frzAt ≠ s.chip.up →
      t.chip.host p.val = { h with frzExtra := min (h.frzExtra + 1) 65535, extraLast := some (s.chip.up, 7) }) ∧
    (h.frzAt = s.chip.up → t.chip.host p.val = { h with frzCause := min h.frzCause 7 })) ∧
  (∀ rate width flit, linkOk rate width = true →
    (h.perst = false → s.chip.mailboxUp = true → h.state = .down →
      ∃ t, exec (.dlActiveReached p rate width flit) s = .next t ∧ (t.chip.host p.val).link = true ∧
        (t.chip.host p.val).flit = (flit || decide (6 ≤ rate)) ∧
        (4 ≤ s.chip.stageNo → (t.chip.host p.val).rate = rate ∧ (t.chip.host p.val).width = width ∧
          (t.chip.host p.val).state = if (s.chip.fn (p.val * 128)).bme = true then .service else .early) ∧
        (s.chip.stageNo < 4 → (t.chip.host p.val).rate = 1 ∧ (t.chip.host p.val).width = 1 ∧
          (t.chip.host p.val).state = .early)) ∧
    (h.perst = true ∨ s.chip.mailboxUp = false → ∃ t, exec (.dlActiveReached p rate width flit) s = .next t ∧ t.chip.hosts = s.chip.hosts) ∧
    (h.link = true → ∃ t, exec (.linkRetrain p rate width) s = .next t ∧ (t.chip.host p.val).rate = rate ∧
      (t.chip.host p.val).width = width ∧ (t.chip.host p.val).state = h.state) ∧
    (h.link = false → ∃ t, exec (.linkRetrain p rate width) s = .next t ∧ t.chip.hosts = s.chip.hosts)) ∧
  (∀ code, code ≤ 2 → ∃ t, exec (.mpsChange p code) s = .next t ∧ (t.chip.host p.val).mps = code ∧
    (t.chip.host p.val).rate = h.rate ∧ (t.chip.host p.val).state = h.state))

/-- R296, R297, R300, R301, R315, R316: configuration requests, function-level resets, power states and VFs. -/
def Obligations.FunctionEvents : Prop := ∀ s fn g h, s.chip.power.held = false → validFn fn = true → g = s.chip.fn fn →
  h = s.chip.host (fn / 128) →
  (∀ x w,
    (h.link = false → exec (.configRequest fn x w) s = .next { s with chip := { s.chip with rd := [] } }) ∧
    (h.link = true → h.ready = false →
      exec (.configRequest fn x w) s = .next { s with chip := ({ s.chip with rd := [] } : Chip).complete fn 2 0 }) ∧
    (h.link = true → h.ready = true → fn ∉ s.chip.portFns (fn / 128) →
      exec (.configRequest fn x w) s = .next { s with chip := ({ s.chip with rd := [] } : Chip).complete fn 1 0 })) ∧
  (h.link = true → h.ready = true → fn ∈ s.chip.portFns (fn / 128) →
    (∀ x, exec (.configRequest fn x none) s = .next { s with
      chip := ({ s.chip with rd := le (cfgLen x) (cfgRead s.chip fn x) } : Chip).complete fn 0 0 }) ∧
    (∀ v, ∃ t, exec (.configRequest fn .command (some v)) s = .next t ∧ (t.chip.fn fn).bme = bit v 2 ∧
      (fn % 128 = 0 → (t.chip.fn fn).mse = bit v 1)) ∧
    ∀ v, ∃ t, exec (.configRequest fn .vendorDevice (some v)) s = .next t ∧ t.chip.hosts.fns = s.chip.hosts.fns) ∧
  (∃ t, exec (.flrInitiate fn) s = .next t ∧ (t.chip.fn fn).flr = true ∧ t.chip.ev.evfLine.find? fn = none ∧
    (t.chip.box fn).state = .idle ∧ ∀ i, i < 64 → (t.chip.lease fn i).state ≠ .active) ∧
  (g.flr = true → ∃ t, exec (.flrComplete fn) s = .next t ∧ (t.chip.fn fn).flr = false ∧ (t.chip.fn fn).bme = false ∧
    (t.chip.fn fn).msixOn = false ∧ (t.chip.fn fn).bar2 = 0 ∧ (t.chip.fn fn).windows = g.windows) ∧
  (g.flr = false → ∃ t, exec (.flrComplete fn) s = .next t ∧ t.chip.hosts = s.chip.hosts) ∧
  (g.d3 = false → ∃ t, exec (.d3hotEntry fn) s = .next t ∧ (t.chip.fn fn).d3 = true ∧ (t.chip.box fn).state = .idle) ∧
  (g.d3 = true → ∃ t, exec (.d0Return fn) s = .next t ∧ (t.chip.fn fn).d3 = false ∧ (t.chip.fn fn).bme = false ∧
    (t.chip.fn fn).windows = g.windows) ∧
  (∃ t, exec (.busMasterEnableClear fn) s = .next t ∧ (t.chip.fn fn).bme = false ∧
    (fn % 128 = 0 → (t.chip.host (fn / 128)).state ≠ .service)) ∧
  (∃ t, exec (.busMasterEnableSet fn) s = .next t ∧ (t.chip.fn fn).bme = true ∧
    (fn % 128 = 0 → 4 ≤ s.chip.stageNo → h.state = .early → (t.chip.host (fn / 128)).state = .service)) ∧
  (∀ (p : Fin 2) n, p.val = fn / 128 → n ≤ 63 →
    (h.vfEnable = false → ∃ t, exec (.vfEnableChange p true n) s = .next t ∧ (t.chip.host p.val).vfEnable = true ∧
      (t.chip.host p.val).numVfs = n ∧ t.chip.hosts.fns = s.chip.hosts.fns) ∧
    (∃ t, exec (.vfEnableChange p false n) s = .next t ∧ (t.chip.host p.val).vfEnable = false ∧
      (t.chip.host p.val).numVfs = n))

/-- R372, R384, R395, R397 to R400, R415: the Seam commands. -/
def Obligations.SeamCommands : Prop := ∀ mb req s,
  ((u8 req 0 = 0 ∨ (u8 req 0 = 1 ∧ u16 req 2 ≤ 0x3FF)) →
    Ends cmdSeamSetId .seamSetId mb req s stOK []
      { s.chip with seam.fixedNext := if u8 req 0 = 1 then some (u16 req 2) else none } s.mem) ∧
  ((∃ q, q < 16 ∧ (s.chip.quad q).role = .seam) →
    Ends cmdRediscover .seamRediscover mb req s stOK []
      { s.chip with seam.pseq := (s.chip.seam.pseq + 1) % 2 ^ 32 } s.mem) ∧
  ((∀ q, q < 16 → (s.chip.quad q).role ≠ .seam) →
    Ends cmdRediscover .seamRediscover mb req s stBADSTATE [] s.chip s.mem) ∧
  (1 ≤ u16 req 2 → u16 req 2 ≤ 255 → ∀ l, l = (s.chip.seam.topo.drop (u16 req 0)).take (u16 req 2) →
    Ends cmdReadTopology .seamReadTopology mb req s stOK
      (le 1 l.length ++ List.replicate 15 0 ++
        l.flatMap fun t => le 2 t.seamId ++ le 8 t.serial ++ le 1 t.hops ++ le 1 t.links ++ le 1 t.state ++ le 3 0)
      s.chip s.mem) ∧
  (∀ e, e = s.chip.seam.routes.getD RouteSt.none (u16 req 0) →
    (e.valid = true →
      Ends cmdReadRoute .seamReadRoute mb req s stOK
        (le 1 e.primary ++ le 1 e.alt ++ le 1 e.hops ++ le 1 (b2n e.usingAlt)) s.chip s.mem) ∧
    (e.valid = false → Ends cmdReadRoute .seamReadRoute mb req s stBADARG [] s.chip s.mem)) ∧
  (u8 req 0 ≤ 15 →
    (∀ k, s.chip.link? (u8 req 0) = some k →
      Ends cmdReadSeamLink .seamReadLink mb req s stOK
        (le 1 (linkCode k.state) ++ le 1 k.width ++ le 1 k.first ++ le 1 k.peerLink ++ le 2 k.peerId ++ le 2 0 ++
          le 4 k.replays ++ le 4 k.reroutes) s.chip s.mem) ∧
    (s.chip.link? (u8 req 0) = none →
      Ends cmdReadSeamLink .seamReadLink mb req s stOK (List.replicate 4 0 ++ le 2 0xFFFF ++ List.replicate 10 0)
        s.chip s.mem)) ∧
  (s.chip.time.disc = .locked → s.chip.time.source = .seam → s.chip.t64 + 10000000 ≤ u64 req 0 →
    (s.chip.ev.snaps.filter fun t => t.origin.isNone).length < 4 → s.chip.mbx.tickets.length < 64 →
    Ends cmdSeamSnapshot .seamSnapshotAt mb req s stPENDING
      (le 4 s.chip.mbx.nextTicket ++ le 4 0 ++ le 4 s.chip.ev.snapNext)
      { s.chip with
        mbx.tickets := s.chip.mbx.tickets ++
          [{ id := s.chip.mbx.nextTicket, opcode := 0x0606, mailbox := mb, instant := u64 req 0,
             session := (s.chip.box mb).session, role := (s.chip.ctxOf mb).role, slot := (s.chip.ctxOf mb).slot,
             kind := .seamSnapshot s.chip.ev.snapNext }],
        mbx.nextTicket := (s.chip.mbx.nextTicket + 1) % 2 ^ 32,
        ev.snaps := s.chip.ev.snaps ++
          [{ scheduledSnap s.chip.ev.snapNext (u64 req 0) (some s.chip.mbx.nextTicket) with fabric := true }],
        ev.snapNext := if s.chip.ev.snapNext + 1 = 2 ^ 32 then 1 else s.chip.ev.snapNext + 1 } s.mem)

/-- R384, R388 to R394, R401: a link of the fabric: its HELLO, the order of its flits, replays, and how it fails. -/
def Obligations.SeamLinks : Prop := ∀ s (l : Fin 16) k, s.chip.power.held = false → s.chip.link? l.val = some k →
  (∀ serial id peer width, k.state ≠ .off →
    (width ≠ k.width ∨ serial = Config.serial.toNat →
      ∃ t v, exec (.seamHelloReceived l serial id peer width) s = .next t ∧ t.chip.link? l.val = some v ∧
        v.state = .wiring) ∧
    (width = k.width → serial ≠ Config.serial.toNat → k.state = .training → k.helloSent = true →
      k.rxUp = 2 ^ k.width - 1 →
      ∃ t v, exec (.seamHelloReceived l serial id peer width) s = .next t ∧ t.chip.link? l.val = some v ∧
        v.state = .up ∧ v.peerSerial = serial % 2 ^ 64 ∧ v.peerId = id % 65536 ∧ v.peerLink = peer % 256 ∧
        v.owed = [16, 1024, 6144, 512] ∧ v.active = 2 ^ k.width - 1 ∧
        { line := 0x1D, kind := 1, inst := l.val, detail := 0x102, value := 0, time := s.chip.t64, source := 0x3FF } ∈
          t.chip.ev.waiting)) ∧
  (∀ h payload trail, k.state = .up →
    (k.nakSent = false → ∃ t v, exec (.seamFlitReceived l h payload trail true) s = .next t ∧
      t.chip.link? l.val = some v ∧ v.nakSent = true ∧ v.rxFsn = k.rxFsn ∧ t.chip.seam.landed = s.chip.seam.landed ∧
      t.chip.seam.queue = s.chip.seam.queue) ∧
    (k.nakSent = false → h.length = 32 → u8 h 0 = 0x80 → lineCrc (h.take 30) = u16 h 30 →
      payload.length = 32 * u8 h 8 → trail = crc32c (h.take 26 ++ payload) → u32 h 18 = k.rxFsn →
      ∃ t v, exec (.seamFlitReceived l h payload trail false) s = .next t ∧ t.chip.link? l.val = some v ∧
        v.rxFsn = (k.rxFsn + 1) % 2 ^ 32 ∧ v.nakSent = false ∧
        (oneHop (u8 h 7) = true → t.chip.seam.landed = s.chip.seam.landed ++ [(l.val, flitOf h payload)]) ∧
        (oneHop (u8 h 7) = false → some (u16 h 3 % 1024) ≠ s.chip.seam.id → u8 h 9 + 1 < 64 →
          t.chip.seam.landed = s.chip.seam.landed ∧ t.chip.seam.queue = s.chip.seam.queue ++
            [{ inLink := some l.val, out := none, flit := { flitOf h payload with hops := u8 h 9 + 1 } }])) ∧
    (k.replay = [] → (∀ ack, exec (.seamNakReceived l ack) s = .next s) ∧ exec (.seamReplayTimeout l) s = .next s) ∧
    (∀ r, k.replay = [r] →
      (r.replays < 3 → ∃ t, exec (.seamReplayTimeout l) s = .next t ∧
        t.chip.link? l.val = some { k with
          replay := [{ r with replays := r.replays + 1 }], crcPrev := k.flitCheck r true,
          replays := (k.replays + 1) % 2 ^ 32 }) ∧
      (∀ ack, r.replays < 3 → 32768 ≤ (ack % 65536 + 65536 - r.fsn % 65536) % 65536 →
        ∃ t, exec (.seamNakReceived l ack) s = .next t ∧
          t.chip.link? l.val = some { k with
            replay := [{ r with replays := r.replays + 1 }], crcPrev := k.flitCheck r true,
            replays := (k.replays + 1) % 2 ^ 32 }) ∧
      (∀ ack, (ack % 65536 + 65536 - r.fsn % 65536) % 65536 < 32768 →
        ∃ t, exec (.seamNakReceived l ack) s = .next t ∧ t.chip.link? l.val = some { k with replay := [] }) ∧
      (3 ≤ r.replays → ∃ t v, exec (.seamReplayTimeout l) s = .next t ∧ t.chip.link? l.val = some v ∧
        v.state = .failed ∧ t.chip.faulted 2 l.val = true)) ∧
    (∃ t v, exec (.seamLinkSilence l) s = .next t ∧ t.chip.link? l.val = some v ∧ v.state = .failed ∧ v.replay = [] ∧
      v.txFsn = 0 ∧ v.rxFsn = 0 ∧ v.active = 0 ∧ t.chip.faulted 2 l.val = true ∧
      ∀ d r, s.chip.seam.routes.find? d = some r → r.valid = true → r.primary = l.val → r.alt ≠ 0xFF →
        (t.chip.seam.routes.getD RouteSt.none d).usingAlt = true) ∧
    (∀ q, s.chip.store.streams = [] → s.chip.seam.queue = [q] → q.out = some l.val → q.inLink = none →
      flitBlocks q.flit ≤ k.credit.getD q.flit.cls 0 → k.replayBytes + 32 * flitBlocks q.flit ≤ 2 ^ 20 →
      ∃ t v, exec (.seamFlitForward l) s = .next t ∧ t.chip.seam.queue = [] ∧ t.chip.link? l.val = some v ∧
        v.txFsn = (k.txFsn + 1) % 2 ^ 32 ∧
        v.replay = k.replay ++ [{ fsn := k.txFsn, flit := { q.flit with alt := false }, replays := 0 }] ∧
        v.crcPrev = k.flitCheck { fsn := k.txFsn, flit := { q.flit with alt := false }, replays := 0 } false ∧
        v.credit.getD q.flit.cls 0 = k.credit.getD q.flit.cls 0 - flitBlocks q.flit)) ∧
  (∀ q, s.chip.store.streams = [] → s.chip.seam.queue = [q] → q.out = some l.val →
    (k.credit.getD q.flit.cls 0 < flitBlocks q.flit ∨ 2 ^ 20 < k.replayBytes + 32 * flitBlocks q.flit) →
    ∃ t, exec (.seamFlitForward l) s = .next t ∧ t.chip.seam = s.chip.seam)

/-- R394 to R400, R403 to R405: the fabric: order of delivery, discovery, election, IDs, routes and time. -/
def Obligations.SeamFabric : Prop := ∀ s, s.chip.power.held = false →
  (∀ (source : Nat) (cls : Fin 4) e f, e = s.chip.esnOf (source % 1024) cls.val →
    (e.waiting = [] → exec (.seamReorderTimeout source cls) s = .next s) ∧
    (e.waiting = [f] → f.esn < 2 ^ 32 →
      ∃ t, exec (.seamReorderTimeout source cls) s = .next t ∧
        t.chip.seam.landed = s.chip.seam.landed ++ [(source % 1024, f)] ∧
        t.chip.esnOf (source % 1024) cls.val = { expect := (f.esn + 1) % 2 ^ 32, waiting := [] } ∧
        t.chip.ev.waiting = s.chip.ev.waiting ++
          [{ line := 0x1F, kind := 1, inst := source % 1024, detail := cls.val * 256 + 1,
             value := (f.esn + 2 ^ 32 - e.expect) % 2 ^ 32, time := s.chip.t64, source := 0x3FF }])) ∧
  (∀ (l : Fin 16) p, u64 p 0 ≠ Config.serial.toNat →
    (∀ r ∈ s.chip.seam.probes, r.serial ≠ u64 p 0) →
    ∃ t r, exec (.seamProbeReceived l p) s = .next t ∧ t.chip.seam.probes = s.chip.seam.probes ++ [r] ∧
      r.serial = u64 p 0 ∧ r.pseq = u32 p 8 ∧ r.seamId = u16 p 12 ∧ r.heard = s.chip.up ∧
      t.chip.seam.queue = s.chip.seam.queue ++ (s.chip.upLinks.filter (· ≠ l.val)).map fun o =>
        { inLink := none, out := some o,
          flit := { kind := 2, cls := 3, src := 0, dest := 0, hops := 0, stream := 0, esn := 0, alt := false,
                    payload := Chip.blocks p } }) ∧
  (∀ (l : Fin 16) p, u64 p 0 = Config.serial.toNat →
    ∃ t, exec (.seamProbeReceived l p) s = .next t ∧ t.chip.seam.probes = s.chip.seam.probes ∧
      t.chip.seam.queue = s.chip.seam.queue) ∧
  exec .seamProbePeriodic s = .next { s with
    chip := { s.chip with
      seam.pseq := (s.chip.seam.pseq + 1) % 2 ^ 32,
      seam.queue := s.chip.seam.queue ++ s.chip.upLinks.map fun o =>
        { inLink := none, out := some o,
          flit := { kind := 2, cls := 3, src := 0, dest := 0, hops := 0, stream := 0, esn := 0, alt := false,
                    payload := Chip.blocks s.chip.probePayload } } } } ∧
  (∀ serial, exec (.seamSerialTimeout serial) s = .next { s with
    chip := { s.chip with seam.probes := s.chip.seam.probes.filter (·.serial != serial) } }) ∧
  (∃ t r, exec .seamConvergence s = .next t ∧ t.chip.seam.root = some r ∧ r ≤ Config.serial.toNat ∧
    (∀ p ∈ s.chip.seam.probes, r ≤ p.serial) ∧ (r = Config.serial.toNat ∨ ∃ p ∈ s.chip.seam.probes, r = p.serial)) ∧
  (∀ (l : Fin 16) p (e own : Nat), e = u32 p 0 → s.chip.seam.parts = (s.chip.seam.epoch, []) → s.chip.seam.epoch < 2 ^ 32 →
    s.chip.seam.root = some (u64 p 8) → u8 p 5 = 1 → u16 p 6 = 1 → u64 p 16 = own →
    (0 < (e + 2 ^ 32 - s.chip.seam.epoch) % 2 ^ 32 → (e + 2 ^ 32 - s.chip.seam.epoch) % 2 ^ 32 < 2 ^ 31 → u8 p 4 = 0 →
      ∃ t, exec (.seamAssignReceived l p) s = .next t ∧ t.chip.seam.epoch = e ∧
        t.chip.seam.id = (if own = Config.serial.toNat then some (u16 p 24) else none)) ∧
    (e = s.chip.seam.epoch →
      ∃ t, exec (.seamAssignReceived l p) s = .next t ∧ t.chip.seam.epoch = s.chip.seam.epoch ∧
        t.chip.seam.id = s.chip.seam.id)) ∧
  (∀ (serial id : Nat) r, s.chip.seam.assigned = [(serial, id)] → serial ≠ Config.serial.toNat →
    r = Chip.routeTo s.chip.nodes Config.serial.toNat serial →
    ∃ t, exec .seamRoutingTableInstall s = .next t ∧
      (∀ d, t.chip.seam.routes.getD RouteSt.none d = if d = id ∧ r.valid = true then r else RouteSt.none)) ∧
  (∀ (source stream dest demand : Nat) r, r = s.chip.seam.routes.getD RouteSt.none dest →
    (∀ h ∈ s.chip.seam.hopResv, ¬(h.source = source ∧ h.stream = stream)) →
    (demand = 0 → exec (.seamAdmissionHop source stream dest demand) s = .next s) ∧
    (demand ≠ 0 → some dest ≠ s.chip.seam.id → r.valid = true →
      (demand * scale ≤ s.chip.capacity 6 (Chip.RouteSt.inUse r) - s.chip.admitted 6 (Chip.RouteSt.inUse r) →
        exec (.seamAdmissionHop source stream dest demand) s = .next { s with
          chip := { s.chip with
            seam.hopResv := s.chip.seam.hopResv ++
              [{ source := source, stream := stream, dest := dest, link := Chip.RouteSt.inUse r, demand := demand }] } }) ∧
      (s.chip.capacity 6 (Chip.RouteSt.inUse r) - s.chip.admitted 6 (Chip.RouteSt.inUse r) < demand * scale →
        ∃ t, exec (.seamAdmissionHop source stream dest demand) s = .next t ∧
          t.chip.seam.hopResv = s.chip.seam.hopResv ∧
          t.chip.ev.waiting = s.chip.ev.waiting ++
            [{ line := 0x1E, kind := 3, inst := s.chip.seam.id.getD 0xFFFF % 65536,
               detail := Chip.RouteSt.inUse r % 65536, value := 0, time := s.chip.t64, source := 0x3FF }]))) ∧
  (∀ (l : Fin 16) k (hops st t1 t2 t3 t4 : Nat), s.chip.link? l.val = some k →
    (s.chip.time.source ≠ .seam →
      exec (.seamTimeExchange l hops st t1 t2 t3 t4) s = .next { s with
        chip := s.chip.setLink l.val { k with peerHops := hops % 256, peerLocked := st == 2 } }) ∧
    (s.chip.time.source = .seam → s.chip.seam.links = [(l.val, k)] → k.state = .up → st = 2 → hops < 255 →
      s.chip.isRoot = false → s.chip.seam.parent = some l.val → s.chip.time.disc = .locked →
      s.chip.seam.thetas.length < 15 →
      ∃ t, exec (.seamTimeExchange l hops st t1 t2 t3 t4) s = .next t ∧ t.chip.seam.parent = some l.val ∧
        t.chip.seam.hopsToRoot = hops + 1 ∧
        t.chip.seam.thetas = s.chip.seam.thetas ++ [quot (((t2 : Int) - t1) - ((t4 : Int) - t3)) 2]))

/-- R381, R407 to R409, R411, R412, R414, R415: what devices send one another: samples, positions, snapshots, event
records and frames. -/
def Obligations.SeamTraffic : Prop := ∀ s, s.chip.power.held = false →
  (∀ (ch : Fin 8), (∀ m ∈ s.chip.seam.mirrors, m.chan ≠ ch.val) → exec (.posSampleKeepalive ch) s = .next s) ∧
  (∀ (ch : Fin 8) m me, s.chip.seam.mirrors = [m] → m.chan = ch.val → s.chip.seam.id = some me → m.peer ≠ me →
    (s.chip.seam.routes.getD RouteSt.none m.peer).valid = true → (s.chip.seam.routes.getD RouteSt.none m.peer).alt = 0xFF →
    ∃ t q, exec (.posSampleKeepalive ch) s = .next t ∧ t.chip.seam.queue = s.chip.seam.queue ++ [q] ∧
      q.flit.kind = 0x21 ∧ q.flit.dest = m.peer ∧ q.flit.cls = 0 ∧
      t.chip.seam.mirrors = [{ m with sentX := some (s.chip.enc ch.val).xc }]) ∧
  (∀ (source : Nat) p, u8 p 0 ≤ 7 → ∃ t, exec (.posSampleReceived source p) s = .next t ∧
    t.chip.seam.samples = s.chip.seam.samples.put (source % 1024 * 8 + u8 p 0)
      { speedState := u8 p 1, reverse := u8 p 2 == 1, x := i64 p 8, t := u64 p 16, v := i64 p 24, at_ := s.chip.t64,
        stale := false }) ∧
  (∀ (source : Nat) (ch : Fin 8) v, s.chip.seam.samples.find? (source % 1024 * 8 + ch.val) = some v →
    exec (.posSampleStale source ch) s = .next { s with
      chip := { s.chip with
        seam.samples := s.chip.seam.samples.put (source % 1024 * 8 + ch.val) { v with stale := true } } }) ∧
  (∀ (source unit at_ : Nat) (ch : Fin 8),
    (s.chip.countAt ch.val at_ = none →
      ∃ t, exec (.latchRequestReceived source unit at_ ch) s = .next t ∧ t.chip.seam.queue = s.chip.seam.queue) ∧
    (∀ v me, s.chip.countAt ch.val at_ = some v → s.chip.seam.id = some me → source % 1024 ≠ me →
      (s.chip.seam.routes.getD RouteSt.none (source % 1024)).valid = true →
      (s.chip.seam.routes.getD RouteSt.none (source % 1024)).alt = 0xFF →
      ∃ t q, exec (.latchRequestReceived source unit at_ ch) s = .next t ∧
        t.chip.seam.queue = s.chip.seam.queue ++ [q] ∧ q.flit.kind = 0x22 ∧ q.flit.dest = source % 1024 ∧
        q.flit.payload = Chip.blocks (le 1 1 ++ le 1 ch.val ++ le 1 unit ++ List.replicate 5 0 ++ le 8 at_ ++
          le 8 (unsigned 64 v)))) ∧
  (∀ (source at_ : Nat) (u : Fin 32) pos w p o, s.chip.seam.waits = [w] → w.unit = u.val → w.instant = at_ →
    s.chip.cam.ports.find? p = some o →
    (w.peer = source % 1024 →
      ∃ t v, exec (.latchAnswerReceived source at_ u pos) s = .next t ∧ t.chip.seam.waits = [] ∧
        t.chip.cam.ports.find? p = some v ∧
        ∀ x ∈ v.fires, x.unit = u.val → x.instant / 65536 = at_ → x.pos = some pos ∧ x.noLatch = false) ∧
    (w.peer ≠ source % 1024 →
      ∃ t, exec (.latchAnswerReceived source at_ u pos) s = .next t ∧ t.chip.seam.waits = s.chip.seam.waits ∧
        t.chip.cam = s.chip.cam) ∧
    (∃ t v, exec (.latchTimeout u at_) s = .next t ∧ t.chip.seam.waits = [] ∧ t.chip.cam.ports.find? p = some v ∧
      ∀ x ∈ v.fires, x.unit = u.val → x.instant / 65536 = at_ → x.pos = some 0 ∧ x.noLatch = true)) ∧
  (∀ (origin number at_ : Nat), (∀ x ∈ s.chip.ev.snaps, ¬(x.origin = some (origin % 1024) ∧ x.originNumber = number % 2 ^ 32)) → s.chip.seam.id ≠ some (origin % 1024) →
    s.chip.t64 + 1000000 ≤ at_ →
    ∃ t, exec (.snapReqReceived origin number at_) s = .next t ∧
      t.chip.ev.snaps = s.chip.ev.snaps ++
        [{ scheduledSnap s.chip.ev.snapNext at_ none with
           fabric := true, origin := some (origin % 1024), originNumber := number % 2 ^ 32 }]) ∧
  (∀ (number : Nat) x, s.chip.ev.snaps = [x] → x.number = number → x.fabric = true → x.origin = none →
    (x.done = false → x.ticket = none → s.chip.time.disc = .locked →
      ∃ t, exec (.seamSnapshotInstant number) s = .next t ∧
        t.chip.ev.snaps = [{ x with done := true, values := s.chip.ev.counters }]) ∧
    (x.done = false → x.ticket = none → s.chip.time.disc ≠ .locked →
      ∃ t, exec (.seamSnapshotInstant number) s = .next t ∧
        t.chip.ev.snaps = [{ x with done := true, missed := true }]) ∧
    (x.done = true → exec (.seamSnapshotInstant number) s = .next s) ∧
    (∀ source : Nat, ∃ t, exec (.snapDataReceived source number true []) s = .next t ∧
      t.chip.ev.snaps = [{ x with
        peerMissed := if source % 1024 ∈ x.peerMissed then x.peerMissed else x.peerMissed ++ [source % 1024] }]) ∧
    (∀ source v : Nat, v ≠ 0 → v < 2 ^ 64 → ∃ t, exec (.snapDataReceived source number false [v]) s = .next t ∧
      t.chip.ev.snaps = [{ x with peers := x.peers.put (source % 1024) [(0, v)] }]) ∧
    (∀ (peer : Nat) r, x.done = true → s.chip.seam.routes.find? peer = some r → r.valid = true → x.peers.find? peer = none →
      ∃ t, exec (.snapIncompleteTimeout number) s = .next t ∧ t.chip.ev.snaps = [{ x with incomplete := true }])) ∧
  (∀ b, s.chip.routed (u8 b 1) 0 (u64 b 8) = true →
    ∃ t, exec (.eventFlitReceived b) s = .next t ∧ bit (t.chip.ev.evfLine.getD 0 mtView) (u8 b 1) = true) ∧
  (∀ (source : Nat) (k : Fin 512) data, s.chip.stream? k.val = none →
    ∃ t, exec (.frameDataReceived source k data) s = .next t ∧ t.chip.store = s.chip.store ∧
      t.chip.seam.landings = s.chip.seam.landings) ∧
  (∀ (source : Nat) (k : Fin 512) data v n sl, s.chip.stream? k.val = some v → v.port = 0xFE → v.started = true →
    s.chip.seam.landings.find? k.val = none → v.fold.1 = 0 →
    s.chip.reserve v (fFold v.fold v.out v.w v.h v.e) = some (n, sl) →
    ∃ t w f, exec (.frameDataReceived source k data) s = .next t ∧ t.chip.stream? k.val = some w ∧
      w.frames = v.frames ++ [f] ∧ f.phase = .processing ∧ f.stored = some n ∧ f.slots = sl ∧
      t.chip.seam.landings.find? k.val =
        some { source := some (source % 1024), data := data, open_ := true, dropped := false, next := none }) ∧
  (∀ (source : Nat) (k : Fin 512) peg, s.chip.stream? k.val = none →
    ∃ t, exec (.frameEndReceived source k peg) s = .next t ∧ t.chip.store = s.chip.store ∧
      t.chip.seam.unlanded.getD 0 k.val = s.chip.seam.unlanded.getD 0 k.val + 1) ∧
  (∀ (source : Nat) (k : Fin 512) peg v f data seq raw, s.chip.stream? k.val = some v → v.port = 0xFE → v.started = true →
    v.fold.1 = 0 → v.frames = [f] → seq = u32 peg 4 →
    s.chip.seam.landings.find? k.val =
      some { source := some (source % 1024), data := data, open_ := true, dropped := false, next := some seq } →
    raw = (f.bytes ++ data).take (u64 peg 32) → raw.length = u64 peg 32 → crc32c raw = u32 peg 56 →
    bit (u16 peg 2) 0 = false → bit (u16 peg 2) 9 = false → s.chip.slotsDead (s.chip.landed v false f raw) = false →
    ∃ t w g, exec (.frameEndReceived source k peg) s = .next t ∧ t.chip.stream? k.val = some w ∧ w.frames = [g] ∧
      g.phase = .finished ∧ g.bytes = raw ∧ g.seq = seq ∧ w.seqNext = (seq + 1) % 2 ^ 32 ∧ w.cLost = v.cLost ∧
      t.chip.seam.landings.find? k.val =
        some { source := some (source % 1024), data := [], open_ := false, dropped := false,
               next := some ((seq + 1) % 2 ^ 32) })

/-- R376, R419 to R421, R424, R430, R431: the panel commands. -/
def Obligations.PanelCommands : Prop := ∀ mb req s,
  (∀ m : PanelMode, m = { width := u16 req 0, height := u16 req 2, refresh := u32 req 4, bpc := u8 req 8 } →
    640 ≤ m.width → m.width ≤ 3840 → 480 ≤ m.height → m.height ≤ 2160 → 24000 ≤ m.refresh → m.refresh ≤ 144000 →
    (m.bpc = 8 ∨ m.bpc = 10) → pixelKhz m ≤ 600000 →
    (s.chip.panel.linkRate = 0 ∨ pixelKhz m * 3 * m.bpc ≤ 776 * s.chip.panel.lanes * s.chip.panel.linkRate * 10) →
    (∀ e ∈ s.chip.panel.tiles, e.2.want.1 = false) →
    (s.chip.panel.state = .changing → Ends cmdSetMode .panelSetMode mb req s stBADSTATE [] s.chip s.mem) ∧
    (s.chip.panel.state ≠ .changing → s.chip.panel.forbid = false → s.chip.panel.hpd = true →
      Issues cmdSetMode mb req s.chip →
      ∃ t, exec (.panelSetMode mb req) s = .next t ∧ Ended mb stOK (s.chip.box mb).rsp [] t.chip ∧
        t.chip.panel.state = .changing ∧ t.chip.panel.pending = some m ∧ t.chip.panel.mode = s.chip.panel.mode ∧
        t.chip.panel.ready = false) ∧
    (s.chip.panel.state ≠ .changing → s.chip.panel.forbid = false → s.chip.panel.hpd = false →
      Issues cmdSetMode mb req s.chip →
      ∃ t, exec (.panelSetMode mb req) s = .next t ∧ Ended mb stOK (s.chip.box mb).rsp [] t.chip ∧
        t.chip.panel.state = .noSink ∧ t.chip.panel.mode = some m)) ∧
  (∀ n sid x y w h, n = u8 req 0 → sid = u16 req 2 → x = u16 req 4 → y = u16 req 6 → w = u16 req 8 → h = u16 req 10 →
    n ≤ 15 →
    (u8 req 1 = 0 →
      Ends cmdSetTile .panelSetTile mb req s stOK []
        (s.chip.setTile n { s.chip.tile n with next := some (false, sid, x, y, w, h) }) s.mem) ∧
    (∀ m v roi, u8 req 1 = 1 → s.chip.presentMode = some m → x + w ≤ m.width → y + h ≤ m.height → 64 ≤ w → 32 ≤ h →
      ((s.chip.panel.tiles.filter fun e => e.1 != n && e.2.want.1).map fun e =>
        e.2.want.2.2.2.2.1 * e.2.want.2.2.2.2.2).sum + w * h ≤ 16777216 → s.chip.stream? sid = some v →
      roi = (roisOf v.out v.w v.h 1).headD { x := 0, y := 0, w := v.w, h := v.h } → v.place.placement ≠ .passBy →
      outW v.out roi ≤ w * 64 → w ≤ 4 * outW v.out roi → outH v.out roi ≤ h * 64 → h ≤ 4 * outH v.out roi →
      floorOk m.refresh v.fresh = true → s.chip.admitStopped = false →
      scale ≤ s.chip.capacity 9 0 - s.chip.admitted 9 0 → 16 * scale ≤ s.chip.capacity 7 1 - s.chip.admitted 7 1 →
      Ends cmdSetTile .panelSetTile mb req s stOK []
        (s.chip.setTile n { s.chip.tile n with next := some (true, sid, x, y, w, h) }) s.mem) ∧
    (u8 req 1 = 1 → (∃ m, s.chip.presentMode = some m ∧ x + w ≤ m.width ∧ y + h ≤ m.height ∧ 64 ≤ w ∧ 32 ≤ h) →
      ((s.chip.panel.tiles.filter fun e => e.1 != n && e.2.want.1).map fun e =>
        e.2.want.2.2.2.2.1 * e.2.want.2.2.2.2.2).sum + w * h ≤ 16777216 → s.chip.stream? sid = none →
      Ends cmdSetTile .panelSetTile mb req s stBADSTATE [] s.chip s.mem)) ∧
  (∀ n, n = u8 req 0 → n ≤ 15 →
    (u8 req 1 = 0 → (s.chip.tile n).want.1 = true →
      Ends cmdSetOverlay .panelSetOverlay mb req s stOK (le 4 0)
        (s.chip.setTile n { s.chip.tile n with overlay := none }) s.mem) ∧
    (u8 req 1 = 1 → u16 req 4 ≠ 0 → u16 req 6 ≠ 0 → (s.chip.tile n).want.1 = true →
      Ends cmdSetOverlay .panelSetOverlay mb req s stOK (le 4 s.chip.panel.nextHandle)
        { s.chip.setTile n { s.chip.tile n with
            overlay := some { handle := s.chip.panel.nextHandle, w := u16 req 4, h := u16 req 6, shown := [], ready := [] } } with
          panel.nextHandle := (s.chip.panel.nextHandle + 1) % 2 ^ 32 } s.mem) ∧
    (u8 req 1 = 0 → (s.chip.tile n).want.1 = false →
      Ends cmdSetOverlay .panelSetOverlay mb req s stBADSTATE [] s.chip s.mem)) ∧
  (u8 req 0 ≤ 1 →
    Ends cmdPanelPolicy .panelSetPolicy mb req s stOK [] { s.chip with panel.forbid := u8 req 0 == 1 } s.mem) ∧
  (∀ m, m = s.chip.presentMode.getD { width := 0, height := 0, refresh := 0, bpc := 0 } →
    Ends cmdReadPanel .panelReadStatus mb req s stOK
      (le 2 m.width ++ le 2 m.height ++ le 4 m.refresh ++ le 1 (panelCode s.chip.panel.state) ++ le 3 0 ++
        (List.range 16).flatMap fun n =>
          le 1 (b2n (s.chip.tile n).enabled) ++ le 1 (b2n ((s.chip.tile n).enabled && (s.chip.tile n).stale)) ++
            le 2 (s.chip.tile n).age ++ le 4 (s.chip.tile n).crcFail) s.chip s.mem)

/-- R418, R423 to R426, R428 to R430: panel frames, the comparison of bands, age, and the sink's events. -/
def Obligations.PanelEvents : Prop := ∀ s, s.chip.power.held = false →
  (s.chip.presentMode = none → exec .panelFrameStart s = .next s) ∧
  (∀ m, s.chip.panel.state = .running → s.chip.panel.pending = none → s.chip.panel.mode = some m →
    ∃ t, exec .panelFrameStart s = .next t ∧ t.chip.panel.state = .running ∧ t.chip.panel.mode = some m ∧
      t.chip.panel.frame = s.chip.panel.frame + 1 ∧ t.chip.panel.bandsDone = 0 ∧
      ∀ n v, n < 16 → s.chip.panel.tiles.find? n = some v → v.next = none → s.chip.power.preview = 0 →
        (t.chip.tile n).shown = v.newest ∧ (t.chip.tile n).enabled = v.enabled ∧
        (t.chip.tile n).overlay = v.overlay.map fun o => { o with shown := o.ready }) ∧
  (∀ m, (s.chip.panel.state = .changing ∨ s.chip.panel.state = .training) → s.chip.panel.ready = true →
    s.chip.panel.pending = some m →
    ∃ t, exec .panelFrameStart s = .next t ∧ t.chip.panel.state = .running ∧ t.chip.panel.mode = some m ∧
      t.chip.panel.pending = none) ∧
  (∀ band actual, s.chip.panel.state ≠ .running → exec (.panelBandCompare band actual) s = .next s) ∧
  (∀ m band n v, s.chip.panel.state = .running → s.chip.panel.mode = some m → n < 16 → (s.chip.tile n).enabled = true →
    (s.chip.expectedCrc m n band ≠ v % 2 ^ 32 →
      ∃ t, exec (.panelBandCompare band [(n, v)]) s = .next t ∧
        (t.chip.tile n).crcFail = min ((s.chip.tile n).crcFail + 1) (2 ^ 32 - 1) ∧ (t.chip.tile n).staleCrc = true ∧
        t.chip.panel.bandsDone = s.chip.panel.bandsDone + 1 ∧
        { line := 0x21, kind := 2, inst := n, detail := band % 65536, value := (s.chip.tile n).age % 2 ^ 64,
          time := s.chip.t64, source := 0x3FF } ∈ t.chip.ev.waiting) ∧
    (s.chip.expectedCrc m n band = v % 2 ^ 32 →
      ∃ t, exec (.panelBandCompare band [(n, v)]) s = .next t ∧
        (t.chip.tile n).crcFail = (s.chip.tile n).crcFail ∧ (t.chip.tile n).staleCrc = (s.chip.tile n).staleCrc ∧
        t.chip.panel.bandsDone = s.chip.panel.bandsDone + 1)) ∧
  (∀ band, (s.chip.panel.state ≠ .running → exec (.panelBandLate band) s = .next s) ∧
    (s.chip.panel.state = .running → ∃ t, exec (.panelBandLate band) s = .next t ∧ t.chip.panel.lateBand = true ∧
      ∀ n, n < 16 → (t.chip.tile n).staleTiming = ((s.chip.tile n).staleTiming || (s.chip.tile n).enabled))) ∧
  (∀ n i v, n < 16 → s.chip.panel.state = .running → (s.chip.tile n).enabled = true → (s.chip.tile n).shown = some i →
    s.chip.stream? (s.chip.tile n).stream = some v →
    ∃ t, exec .tileAgeEval s = .next t ∧
      (t.chip.tile n).age = min 65535 ((s.chip.t64 - i.eofT) / 1000000) ∧
      (t.chip.tile n).staleAge = decide (v.fresh * 1000000 < s.chip.t64 - i.eofT)) ∧
  (s.chip.presentMode = none →
    exec .hpdLoss s = .next { s with
      chip := { s.chip with panel.hpd := false, panel.ready := false, panel.linkRate := 0, panel.lanes := 0 } }) ∧
  (∀ m, s.chip.presentMode = some m →
    ∃ t, exec .hpdLoss s = .next t ∧ t.chip.panel.state = .noSink ∧ t.chip.panel.hpd = false ∧
      t.chip.panel.mode = some m ∧ t.chip.panel.pending = none) ∧
  (s.chip.panel.state = .noSink → ∃ t, exec .hpdReturn s = .next t ∧ t.chip.panel.state = .training ∧
    t.chip.panel.hpd = true) ∧
  (s.chip.panel.state ≠ .noSink → exec .hpdReturn s = .next { s with chip := { s.chip with panel.hpd := true } }) ∧
  (s.chip.panel.state = .running → ∃ t, exec .irqHpd s = .next t ∧ t.chip.panel.state = .changing ∧
    t.chip.panel.pending = s.chip.panel.mode ∧ t.chip.panel.ready = false) ∧
  (s.chip.panel.state ≠ .running → exec .irqHpd s = .next s) ∧
  (∀ rate lanes, ((s.chip.panel.state = .changing ∨ s.chip.panel.state = .training) → rate ≠ 0 →
      exec (.panelLinkTrained rate lanes) s = .next { s with
        chip := { s.chip with panel.linkRate := rate, panel.lanes := lanes, panel.ready := true } }) ∧
    (s.chip.panel.state = .running ∨ rate = 0 → exec (.panelLinkTrained rate lanes) s = .next s))

/-- R35, R37, R377, R378, R380, R468: the power and firmware commands. -/
def Obligations.PowerCommands : Prop := ∀ mb req s,
  (u8 req 0 = 1 → s.chip.power.fixed = true → Ends cmdVfMode .powerSetVfMode mb req s stOK [] s.chip s.mem) ∧
  (u8 req 0 = 1 → s.chip.power.fixed = false → Issues cmdVfMode mb req s.chip →
    ∃ t, exec (.powerSetVfMode mb req) s = .next t ∧ Ended mb stOK (s.chip.box mb).rsp [] t.chip ∧ t.mem = s.mem ∧
      t.chip.power = { s.chip.power with
        fixed := true, vfCause := 0, settling := false, wide := 0, pmbusFails := 0, voutFails := 0,
        vcoreSafe := s.chip.power.straps.vsafe } ∧
      { line := 0x25, kind := 1, inst := 0, detail := 0,
        value := (s.chip.power.setpoint * 65536 + s.chip.power.vout) % 2 ^ 64, time := s.chip.t64, source := 0x3FF }
        ∈ t.chip.ev.waiting) ∧
  (u8 req 0 = 0 → s.chip.power.fixed = false → Ends cmdVfMode .powerSetVfMode mb req s stOK [] s.chip s.mem) ∧
  (u8 req 0 = 0 → s.chip.power.fixed = true → Issues cmdVfMode mb req s.chip →
    ∃ t, exec (.powerSetVfMode mb req) s = .next t ∧ Waits mb .pmbus t.chip ∧ t.chip.power = s.chip.power) ∧
  (1 < u8 req 0 → Ends cmdVfMode .powerSetVfMode mb req s stBADARG [] s.chip s.mem) ∧
  (∀ p, p = s.chip.power →
    Ends cmdVfState .powerReadVfState mb req s stOK
      (le 1 (b2n p.fixed) ++ le 1 p.vfCause ++ le 2 0 ++ le 2 p.setpoint ++ le 2 p.vout ++ le 2 p.margin ++ le 2 0 ++
        le 4 p.raises ++ le 4 p.lowers) s.chip s.mem) ∧
  Ends cmdThermal .powerReadThermal mb req s stOK
    (le 2 (unsigned 16 s.chip.tjLogic) ++
      ((List.range 4).flatMap fun i => le 2 (unsigned 16 (s.chip.power.temps.getD (32 + i) 0))) ++
      le 1 s.chip.power.step ++ le 1 0 ++ le 4 (peakLeft s.chip)) s.chip s.mem ∧
  (s.chip.mbx.tickets = [] →
    Ends cmdStandby .powerEnterStandby mb req s stOK [] { s.chip with power.standby := true } s.mem) ∧
  (s.chip.mbx.tickets ≠ [] → Ends cmdStandby .powerEnterStandby mb req s stBADSTATE [] s.chip s.mem) ∧
  Ends cmdFwInfo .fwReadInfo mb req s stOK
    (([s.chip.board.imageA, s.chip.board.imageB].flatMap fun v => le 4 v.version ++ le 1 v.shown.1 ++ le 3 0 ++ le 4 v.shown.2) ++
      le 1 s.chip.mgmt.active ++ le 1 s.chip.board.running) s.chip s.mem ∧
  (∀ i, i = u8 req 0 → i ≤ 1 → i ≠ s.chip.board.running →
    Ends cmdFwWrite .fwWriteImage mb req s stOK []
      (s.chip.putImage i { s.chip.image i with
        staged := some (max ((s.chip.image i).staged.getD 0) (u32 req 4 + (req.length - 32))) })
      (s.mem.writeBytes (imageBase i + u32 req 4) (req.drop 32)) ∧
    (s.chip.mbx.tickets.length < 64 → (∀ t ∈ s.chip.mbx.tickets, ∀ k, t.kind ≠ .fwCommit k) →
      Issues cmdFwCommit mb req s.chip →
      ∃ t, exec (.fwCommitImage mb req) s = .next t ∧
        Ended mb stPENDING (s.chip.box mb).rsp (le 4 s.chip.mbx.nextTicket ++ le 4 0) t.chip ∧ t.mem = s.mem ∧
        t.chip.image i = { s.chip.image i with commitSize := u32 req 4 } ∧
        t.chip.image (1 - i) = s.chip.image (1 - i) ∧
        t.chip.mbx.tickets.map (·.kind) = s.chip.mbx.tickets.map (·.kind) ++ [.fwCommit i]) ∧
    ((s.chip.image i).shown.1 = 2 → s.chip.mbx.tickets.length < 64 → s.chip.pairState (1 - s.chip.mgmt.active) ≠ .faulted →
      Issues cmdFwActivate mb req s.chip →
      ∃ t, exec (.fwActivate mb req) s = .next t ∧
        Ended mb stPENDING (s.chip.box mb).rsp (le 4 s.chip.mbx.nextTicket ++ le 4 0) t.chip ∧ t.mem = s.mem ∧
        t.chip.pairState (1 - s.chip.mgmt.active) = .booting ∧ t.chip.imageOf (1 - s.chip.mgmt.active) = i ∧
        t.chip.mgmt.active = s.chip.mgmt.active ∧ t.chip.board.running = s.chip.board.running ∧
        t.chip.mbx.tickets.map (·.kind) = s.chip.mbx.tickets.map (·.kind) ++ [.fwActivate i]) ∧
    ((s.chip.image i).shown.1 ≠ 2 → Ends cmdFwActivate .fwActivate mb req s stBADSTATE [] s.chip s.mem)) ∧
  (∀ i, i = u8 req 0 → i ≤ 1 → i = s.chip.board.running →
    Ends cmdFwWrite .fwWriteImage mb req s stBADSTATE [] s.chip s.mem ∧
    Ends cmdFwCommit .fwCommitImage mb req s stBADSTATE [] s.chip s.mem ∧
    Ends cmdFwActivate .fwActivate mb req s stBADSTATE [] s.chip s.mem)

/-- R378, R380, R451, R463: the ends of FW.COMMIT_IMAGE and FW.ACTIVATE. -/
def Obligations.FirmwareEndings : Prop := ∀ n k s, s.chip.power.held = false →
  s.chip.mbx.tickets.find? (·.id == n) = some k →
  (∀ i sig fl, k.kind = .fwCommit i →
    ∃ t, exec (.fwCommitComplete n sig fl) s = .next t ∧ t.mem = s.mem ∧
      t.chip.mbx.tickets = s.chip.mbx.tickets.filter (·.id != n) ∧
      { line := 0x1B, kind := 1, inst := k.mailbox % 65536, detail := k.opcode % 65536,
        value := (n * 2 ^ 32 + (if !sig then stBADARG else if !fl then stINTERNAL else stOK)) % 2 ^ 64,
        time := s.chip.t64, source := 0x3FF } ∈ t.chip.ev.waiting ∧
      (sig = false → t.chip.image i = s.chip.image i) ∧
      (sig = true → fl = false → (t.chip.image i).shown.1 = 3) ∧
      (sig = true → fl = true → (t.chip.image i).shown = (2, (s.chip.image i).commitSize))) ∧
  (∀ i started, k.kind = .fwActivate i → s.chip.power.recovery = false →
    (started = true → s.chip.pairState (1 - s.chip.mgmt.active) = .booting →
      ∃ t, exec (.fwActivateHandover n started) s = .next t ∧ t.chip.board.marked = i ∧
        t.chip.mgmt.active = 1 - s.chip.mgmt.active ∧ t.chip.pairState (1 - s.chip.mgmt.active) = .active ∧
        t.chip.pairState s.chip.mgmt.active = .booting ∧ t.chip.imageOf s.chip.mgmt.active = i ∧
        t.chip.board.running = s.chip.imageOf (1 - s.chip.mgmt.active) ∧
        t.chip.mbx.tickets = s.chip.mbx.tickets.filter (·.id != n)) ∧
    ((started = false ∨ s.chip.pairState (1 - s.chip.mgmt.active) ≠ .booting) →
      ∃ t, exec (.fwActivateHandover n started) s = .next t ∧ t.chip.mgmt.active = s.chip.mgmt.active ∧
        t.chip.board.marked = s.chip.board.marked ∧ t.chip.board.running = s.chip.board.running ∧
        t.chip.imageOf (1 - s.chip.mgmt.active) = s.chip.board.running ∧
        t.chip.mbx.tickets = s.chip.mbx.tickets.filter (·.id != n))) ∧
  (∀ i started, k.kind = .fwActivate i → s.chip.power.recovery = true →
    ∃ t, exec (.fwActivateHandover n started) s = .next t ∧ t.chip.power.held = true ∧ t.chip.power.nextCause = 6 ∧
      t.chip.board.marked = i)

/-- R441, R456 to R470, R480: power-on, reset, the stages, standby and wake. What becomes of an image that is only
staged is the model's reading (log 36). -/
def Obligations.StartUp : Prop := ∀ s,
  (∃ t, exec .vaonPowerOn s = .next t ∧ t.mem = [] ∧ t.chip.power.held = true ∧ t.chip.power.resetLow = true ∧
    t.chip.power.stage = .s0 ∧ t.chip.power.nextCause = 1 ∧ t.chip.power.pwrEn = true ∧ t.chip.power.wake = none ∧
    t.chip.mbx.keys = s.chip.mbx.keys ∧ t.chip.mbx.audit = s.chip.closeSessions.mbx.audit ∧ t.chip.board.saved = s.chip.board.saved) ∧
  exec .resetAssert s = .next { s with chip := { s.chip with
    power.resetLow := true, power.trip := false, power.pwrEn := s.chip.power.pwrEn || s.chip.power.trip,
    power.held := true, safety.safe := true, safety.beat := false, safety.resume := false, safety.pinA := false,
    safety.pinB := true } } ∧
  (∀ vs a sy ss bb ia ib l, (s.chip.power.held = false ∨ s.chip.power.pwrEn = false ∨ s.chip.power.trip = true) →
    exec (.resetRelease vs a sy ss bb ia ib l) s = .next s) ∧
  (∀ vs a sy ss bb ia ib l ok first, s.chip.power.held = true → s.chip.power.pwrEn = true → s.chip.power.trip = false →
    ok = (fun i => if i = 0 then ia else ib) → first = (if bb then 1 else s.chip.board.marked % 2) →
    ∃ t, exec (.resetRelease vs a sy ss bb ia ib l) s = .next t ∧ t.mem = [] ∧ t.pending = s.pending ∧
      t.chip.power.held = false ∧ t.chip.power.stage = .s1 ∧ t.chip.power.cause = s.chip.power.nextCause ∧
      t.chip.power.nextCause = 2 ∧ t.chip.power.standby = false ∧ t.chip.power.setpoint = 750 ∧
      t.chip.power.fixed = false ∧ t.chip.power.vcoreSafe = false ∧
      t.chip.power.straps = { vsafe := vs, mtAddr := a.val, style := sy, ssc := ss, bootB := bb } ∧
      t.chip.power.recovery = !(ia || ib) ∧
      t.chip.power.wakeSource = (if s.chip.power.nextCause = 3 then s.chip.power.wake.getD 0 else 0) ∧
      t.chip.power.tripWait = (s.chip.power.nextCause == 4 &&
        (List.range 32).any fun i => decide (900 ≤ l.getD i 250)) ∧
      t.chip.board.running = (if ok first then first else if ok (1 - first) then 1 - first else 0) ∧
      t.chip.mbx.keys = s.chip.mbx.keys ∧ t.chip.mbx.audit = s.chip.closeSessions.mbx.audit ∧
      t.chip.board.saved = s.chip.board.saved ∧ t.chip.store.streams = [] ∧ t.chip.mbx.tickets = [] ∧
      t.chip.mgmt.pairA = (if ia || ib then .booting else .off)) ∧
  (s.chip.power.held = false →
    ((s.chip.power.stage ≠ .s1 ∨ s.chip.power.recovery = true ∨ s.chip.power.tripWait = true) →
      exec .stageS2Reached s = .next s) ∧
    (s.chip.power.stage = .s1 → s.chip.power.recovery = false → s.chip.power.tripWait = false → s.chip.board.saved = [] →
      ∃ t, exec .stageS2Reached s = .next t ∧ t.mem = s.mem ∧ t.chip.power.stage = .s2 ∧ t.chip.mgmt.pairA = .active ∧
        t.chip.mgmt.pairB = .booting ∧ t.chip.mgmt.active = 0 ∧
        ∀ p < 2, (t.chip.host p).ready = !(s.chip.host p).perst) ∧
    (s.chip.power.stage ≠ .s2 → exec .stageS3Reached s = .next s) ∧
    (s.chip.power.stage = .s2 → s.chip.board.saved = [] → s.chip.board.savedTables = [] →
      ∃ t, exec .stageS3Reached s = .next t ∧ t.mem = s.mem ∧ t.chip.power.stage = .s3 ∧
        ∀ p < 16, t.chip.power.pipes.getD 0 p = 1 ∨ t.chip.startWaits .pipeHalf p = true) ∧
    (∀ i, s.chip.power.stage = .s2 → s.chip.board.saved = [i] → s.chip.board.savedTables = [] → i.opcode = 0x0A04 →
      (i.req.length = 1 → u8 i.req 0 ≤ 1 →
        ∃ t, exec .stageS3Reached s = .next t ∧ t.chip.power.stage = .s3 ∧ t.chip.panel.forbid = (u8 i.req 0 == 1)) ∧
      (i.req.length ≠ 1 →
        ∃ t, exec .stageS3Reached s = .next t ∧ t.chip.power.stage = .s3 ∧ t.chip.panel.forbid = s.chip.panel.forbid ∧
          { line := 0x27, kind := 2, inst := 0, detail := stBADARG, value := 0x0A04, time := s.chip.t64, source := 0x3FF }
            ∈ t.chip.ev.waiting)) ∧
    (s.chip.power.stage ≠ .s3 → exec .stageS4Reached s = .next s) ∧
    (s.chip.power.stage = .s3 → s.chip.board.saved = [] →
      ∃ t, exec .stageS4Reached s = .next t ∧ t.chip.power.stage = .s4 ∧ t.chip.board.retry = [] ∧
        ∀ p < 16, t.chip.power.pipes.getD 0 p = 2 ∨ t.chip.startWaits .pipeFull p = true) ∧
    ((s.chip.power.standby = false ∨ s.chip.power.stage = .s0) → exec .standbyEntry s = .next s) ∧
    (s.chip.power.standby = true → s.chip.power.stage ≠ .s0 →
      ∃ t, exec .standbyEntry s = .next t ∧ t.chip.power.stage = .s0 ∧ t.chip.power.pwrEn = false ∧
        t.chip.power.lowHold = true ∧ t.chip.power.held = true ∧ t.chip.safety.safe = true ∧
        t.chip.safety.pinA = false ∧ t.chip.safety.pinB = true ∧
        ∀ p < 2, (t.chip.host p).state = if (s.chip.host p).state = .down then .down else .frozen)) ∧
  exec .pwrEnHoldEnd s = .next { s with chip := { s.chip with
    power.lowHold := false,
    power.pwrEn := s.chip.power.pwrEn ||
      (s.chip.power.stage == .s0 && s.chip.power.standby && s.chip.power.wake.isSome) } } ∧
  (∀ w i, (i = Instr.wakePin ∧ w = 1 ∨ i = .mtAddressWake ∧ w = 2) →
    ((s.chip.power.standby = false ∨ s.chip.power.wake.isSome = true) → exec i s = .next s) ∧
    (s.chip.power.standby = true → s.chip.power.wake = none →
      exec i s = .next { s with chip := { s.chip with
        power.wake := some w, power.nextCause := 3,
        power.pwrEn := s.chip.power.pwrEn || (s.chip.power.stage == .s0 && !s.chip.power.lowHold) } }))

/-- R29 to R35, R466, R472, R493 to R495: meters, voltage following, the controllers, the pacer and core holds. Which
pace monitors belong to an instance is the model's choice (log 33). -/
def Obligations.PowerEvents : Prop := ∀ s, s.chip.power.held = false →
  (∀ l, ∃ t, exec (.meterWindowClose l) s = .next t ∧ t.chip.power.windowEnd = s.chip.t64 ∧
    (∀ p ∈ allInstances, (t.chip.meter p.1 p.2).now = 0 ∧ (t.chip.meter p.1 p.2).waited = false ∧
      (t.chip.meter p.1 p.2).capacity = s.chip.capacity p.1 p.2 / scale ∧
      (t.chip.meter p.1 p.2).admitted = s.chip.admitted p.1 p.2 / scale ∧
      (bit (t.chip.meter p.1 p.2).flags 0 = true ↔ (s.chip.meter p.1 p.2).waited = true ∧
        (t.chip.meter p.1 p.2).carried < (t.chip.meter p.1 p.2).admitted) ∧
      (bit (t.chip.meter p.1 p.2).flags 1 = true ↔
        (t.chip.meter p.1 p.2).capacity < (t.chip.meter p.1 p.2).admitted) ∧
      (bit (t.chip.meter p.1 p.2).flags 2 = true ↔ s.chip.outOfService p.1 p.2 = true) ∧
      (bit (t.chip.meter p.1 p.2).flags 3 = true ↔ ∃ k ∈ monitorsOf p.1 p.2, l.getD k 1000 < 1000) ∧
      (t.chip.meter p.1 p.2).history =
        ((t.chip.meter p.1 p.2).carried :: (s.chip.meter p.1 p.2).history).take 1000) ∧
    ∀ i < 16, (t.chip.meter 1 i).carried = (s.chip.meter 1 i).now ∧
      (t.chip.meter 1 i).pace = 850 * min (l.getD (2 * i) 1000) (l.getD (2 * i + 1) 1000)) ∧
  (∀ m, (s.chip.power.stage ≠ .s4 ∨ s.chip.power.fixed = true ∨ s.chip.power.settling = true) →
    exec (.vfEvaluate m) s = .next s) ∧
  (∀ m v, s.chip.power.stage = .s4 → s.chip.power.fixed = false → s.chip.power.settling = false →
    (v = (if m < 1020 then 25 else 10) → m < 1050 → s.chip.power.setpoint + v ≤ 850 →
      ∃ t, exec (.vfEvaluate m) s = .next t ∧ t.chip.power = { s.chip.power with
        margin := m, wide := 0, setpoint := s.chip.power.setpoint + v, settling := true,
        raisedFrom := s.chip.power.setpoint, raises := (s.chip.power.raises + 1) % 2 ^ 32 }) ∧
    (1050 ≤ m → m < 1080 →
      exec (.vfEvaluate m) s = .next { s with chip := { s.chip with power.margin := m, power.wide := 0 } }) ∧
    (1080 ≤ m → s.chip.power.wide < 3 →
      exec (.vfEvaluate m) s = .next { s with chip := { s.chip with
        power.margin := m, power.wide := s.chip.power.wide + 1 } }) ∧
    (1080 ≤ m → 3 ≤ s.chip.power.wide → v = s.chip.floorMv → v + 5 ≤ s.chip.power.setpoint →
      ∃ t, exec (.vfEvaluate m) s = .next t ∧ t.chip.power = { s.chip.power with
        margin := m, wide := 0, setpoint := s.chip.power.setpoint - 5,
        lowers := (s.chip.power.lowers + 1) % 2 ^ 32 }) ∧
    (1080 ≤ m → 3 ≤ s.chip.power.wide → s.chip.power.setpoint ≤ s.chip.floorMv →
      exec (.vfEvaluate m) s = .next { s with chip := { s.chip with power.margin := m, power.wide := 0 } })) ∧
  (∀ v, s.chip.power.stage = .s4 → s.chip.power.fixed = false →
    (s.chip.voutFits v = true →
      exec (.readVoutCheck v) s = .next { s with chip := { s.chip with
        power.vout := v % 65536, power.voutFails := 0,
        power.settling := s.chip.power.settling && decide (2 * v ≤ s.chip.power.setpoint + s.chip.power.raisedFrom) } }) ∧
    (s.chip.voutFits v = false → s.chip.power.voutFails = 0 →
      exec (.readVoutCheck v) s = .next { s with chip := { s.chip with
        power.vout := v % 65536, power.voutFails := 1 } }) ∧
    (s.chip.voutFits v = false → 1 ≤ s.chip.power.voutFails →
      ∃ t, exec (.readVoutCheck v) s = .next t ∧ t.chip.power.fixed = true ∧ t.chip.power.vfCause = 3 ∧
        t.chip.power.setpoint = s.chip.power.setpoint ∧ t.chip.power.vcoreSafe = s.chip.power.straps.vsafe ∧
        { line := 0x25, kind := 1, inst := 0, detail := 3, value := (s.chip.power.setpoint * 65536 + v % 65536) % 2 ^ 64,
          time := s.chip.t64, source := 0x3FF } ∈ t.chip.ev.waiting)) ∧
  (∀ v, ∃ t, exec (.mcTransaction 3 .readVout .free (.ok v)) s = .next t ∧ t.chip.power.vout = v % 65536 ∧
    t.chip.power.pmbusFails = 0 ∧ (t.chip.mc 3).stuck = false) ∧
  (∃ t, exec (.mcTransaction 3 .voutCommand .free (.ok 0)) s = .next t ∧ t.chip.power.pmbusFails = 0) ∧
  (∀ r e, (e = McEnd.nack ∨ e = .pecError ∨ e = .arbitrationLost) → r ∈ [McReq.voutCommand, .readVout, .statusWord] →
    s.chip.power.fixed = false →
    ∃ t, exec (.mcTransaction 3 r .free e) s = .next t ∧
      (2 ≤ s.chip.power.pmbusFails → t.chip.power.fixed = true ∧ t.chip.power.vfCause = 1) ∧
      (s.chip.power.pmbusFails < 2 → t.chip.power.fixed = false ∧
        t.chip.power.pmbusFails = s.chip.power.pmbusFails + 1)) ∧
  (∀ r e k, (e = McEnd.sclHeld ∧ k = 1 ∨ e = .tooLong ∧ k = 2) → r ∈ [McReq.voutCommand, .readVout, .statusWord] →
    s.chip.power.fixed = false →
    ∃ t, exec (.mcTransaction 3 r .free e) s = .next t ∧ t.chip.power.fixed = (k == 1) ∧
      (k = 1 → t.chip.power.vfCause = 2) ∧ (s.chip.mc 3).clears < (t.chip.mc 3).clears ∧
      { line := 0x29, kind := 1, inst := 3, detail := k, value := Config.regulatorAddress.toNat, time := s.chip.t64,
        source := 0x3FF } ∈ t.chip.ev.waiting) ∧
  (∀ (site : Fin 16) (m : Fin 4), m.val = Chip.mcOf site.val →
    (∀ e, ∃ t, exec (.mcTransaction m (.module site) .stuck e) s = .next t ∧ (t.chip.mc m.val).stuck = true ∧
      (t.chip.mc m.val).clears = (s.chip.mc m.val).clears + 2 ∧ t.chip.module site.val = s.chip.module site.val ∧
      { line := 0x29, kind := 1, inst := m.val, detail := 3, value := site.val, time := s.chip.t64, source := 0x3FF }
        ∈ t.chip.ev.waiting) ∧
    ∀ k v, ∃ t, exec (.mcTransaction m (.module site) (.freed k) (.ok v)) s = .next t ∧
      t.chip.module site.val = { present := true, ready := true, flags := v } ∧ (t.chip.mc m.val).stuck = false ∧
      (t.chip.mc m.val).clears = (s.chip.mc m.val).clears + 1 + k.val) ∧
  (∀ (site : Fin 16) f,
    ((s.chip.module site.val).present = false → exec (.modulePoll site f) s = .next s) ∧
    ((s.chip.module site.val).present = true →
      ∃ t, exec (.modulePoll site f) s = .next t ∧
        t.chip.module site.val = (match f with
          | none => ModuleSt.reset
          | some v => { s.chip.module site.val with ready := true, flags := v }) ∧
        (∀ v, f = some v → v ≠ 0 → v ≠ (s.chip.module site.val).flags →
          { line := 0x28, kind := 1, inst := site.val, detail := 1, value := v % 2 ^ 64, time := s.chip.t64,
            source := 0x3FF } ∈ t.chip.ev.waiting)) ∧
    ((s.chip.module site.val).present = false →
      exec (.siteInsertionPoll site false) s = .next s ∧
      ∃ t, exec (.siteInsertionPoll site true) s = .next t ∧
        t.chip.module site.val = { present := true, ready := true, flags := 0 })) ∧
  exec .coreHoldStart s = .next { s with chip := { s.chip with power.coreHold := true } } ∧
  exec .coreHoldEnd s = .next { s with chip := { s.chip with power.coreHold := false } } ∧
  (s.chip.power.coreHold = false → exec .brownoutReset s = .next s) ∧
  (s.chip.power.coreHold = true → exec .brownoutReset s = .next { s with chip := { s.chip with
    power.nextCause := 5, power.held := true, safety.safe := true, safety.beat := false, safety.resume := false,
    safety.pinA := false, safety.pinB := true } }) ∧
  (s.chip.power.pacer = [] → exec .startPacerGrant s = .next s) ∧
  (∀ e rest l, s.chip.power.pacer = e :: rest → l = s.chip.power.ramps.filter (fun r => decide (s.chip.up < r.2)) →
    (20 < (l.map (·.1)).sum + (startSlope e.kind).1 →
      exec .startPacerGrant s = .next { s with chip := { s.chip with power.ramps := l } }) ∧
    ((l.map (·.1)).sum + (startSlope e.kind).1 ≤ 20 →
      ∃ t, exec .startPacerGrant s = .next t ∧ t.chip.power.pacer.length ≤ rest.length ∧
        (rest = [] → t.chip.power.pacer = [] ∧
          t.chip.power.ramps = l ++ [((startSlope e.kind).1, s.chip.up + (startSlope e.kind).2 * 65536)] ∧
          (e.kind = .pipeHalf → t.chip.power.pipes.getD 0 e.inst = 1) ∧
          (e.kind = .pipeFull → t.chip.power.pipes.getD 0 e.inst = 2)))) ∧
  (∀ k : Fin 4, (s.chip.stageNo < 2 → exec (.stackReady k) s = .next s) ∧
    (2 ≤ s.chip.stageNo → ∃ t, exec (.stackReady k) s = .next t ∧
      t.chip.power.fsStacks.getD 0 k.val = min 2 (s.chip.power.fsStacks.getD 0 k.val + 1)))

/-- R436, R474 to R480: the sensors, the thermal steps and the thermal trip. -/
def Obligations.ThermalEvents : Prop := ∀ s, s.chip.power.held = false →
  (∀ l, ∃ t, exec (.thermalSensorRead l) s = .next t ∧
    t.chip.power.excluded = (List.range 32).filter (Chip.sensorBad l) ∧
    (∀ i < 36, t.chip.power.temps.getD i 0 =
      if i < 32 ∧ Chip.sensorBad l i = true then max (l.getD ((i + 1) % 32) 0) (l.getD ((i + 31) % 32) 0) + 50
      else l.getD i 0) ∧
    t.chip.power.step = max s.chip.power.step
      (if t.chip.reached 3 then 3 else if t.chip.reached 2 then 2 else if t.chip.reached 1 then 1 else 0) ∧
    t.chip.power.tjPast = (t.chip.tjLogic :: s.chip.power.tjPast).take 1000 ∧
    (1080 < t.chip.tjLogic ∨ 980 < t.chip.tjStack →
      (0x0F03, 0) ∈ t.chip.safety.all ∧ ((0x0F03, 0) ∉ s.chip.safety.all → t.chip.safety.safe = true)) ∧
    (t.chip.tjLogic ≤ 1080 → t.chip.tjStack ≤ 980 → (0x0F03, 0) ∉ t.chip.safety.all) ∧
    (950 < t.chip.tjStack → t.chip.power.fsHot = true) ∧ (t.chip.tjStack < 930 → t.chip.power.fsHot = false)) ∧
  ((s.chip.power.step = 0 ∨ s.chip.cool s.chip.power.step = false) → exec .stepdownExit s = .next s) ∧
  (∀ k, k = s.chip.power.step → k ≠ 0 → s.chip.cool k = true →
    (k = 3 → ∀ e ∈ s.chip.power.throttle, e.2 = 0) →
    ∃ t, exec .stepdownExit s = .next t ∧ t.chip.power.step = k - 1 ∧
      t.chip.power.preview = (if k = 2 then 0 else s.chip.power.preview) ∧
      t.chip.power.setpoint = s.chip.power.setpoint ∧ t.chip.power.throttle = s.chip.power.throttle) ∧
  (¬ (s.chip.power.preview = 1 ∧ s.chip.reached 2 = true) → exec .previewLevelRaise s = .next s) ∧
  (s.chip.power.preview = 1 → s.chip.reached 2 = true →
    exec .previewLevelRaise s = .next { s with chip := { s.chip with power.preview := 2 } }) ∧
  (s.chip.power.step ≠ 3 → exec .throttleTick s = .next s) ∧
  (s.chip.power.step = 3 → s.chip.reached 3 = true →
    (∀ p, p ∈ s.chip.priorities → s.chip.power.throttle.getD 0 p < 3 →
      (∀ q ∈ s.chip.priorities, q < p → 3 ≤ s.chip.power.throttle.getD 0 q) →
      exec .throttleTick s = .next { s with chip := { s.chip with
        power.throttle := s.chip.power.throttle.put p (s.chip.power.throttle.getD 0 p + 1) } }) ∧
    ((∀ p ∈ s.chip.priorities, 3 ≤ s.chip.power.throttle.getD 0 p) → exec .throttleTick s = .next s)) ∧
  (s.chip.tjLogic < 1120 → s.chip.tjStack < 1000 → exec .thermalTrip s = .next s) ∧
  ((1120 ≤ s.chip.tjLogic ∨ 1000 ≤ s.chip.tjStack) →
    exec .thermalTrip s = .next { s with chip := { s.chip with
      power.trip := true, power.pwrEn := false, power.nextCause := 4, power.held := true, safety.safe := true,
      safety.beat := false, safety.resume := false, safety.pinA := false, safety.pinB := true } }) ∧
  (∀ l, s.chip.power.tripWait = false → exec (.bootThermalWait l) s = .next s) ∧
  (∀ l, s.chip.power.tripWait = true →
    ∃ t, exec (.bootThermalWait l) s = .next t ∧
      t.chip.power.tripWait = ((List.range 32).any fun i => decide (900 ≤ l.getD i 0)))

/-- R481 to R487: the pointer style of MT, its registers and the window. -/
def Obligations.MtPointer : Prop := ∀ a s, s.chip.mailboxUp = true → s.chip.mt.style = true →
  (∀ p n d, a ≠ s.chip.mtAddress →
    exec (.mtPointerWrite a p d) s = .next s ∧ exec (.mtSetPointer a p) s = .next s ∧
    exec (.mtReadAtPointer a p n) s = .next { s with chip := { s.chip with rd := [] } } ∧
    exec (.mtReadOn a n) s = .next { s with chip := { s.chip with rd := [] } }) ∧
  (a = s.chip.mtAddress →
    (∀ p, exec (.mtSetPointer a p) s = .next { s with chip := { s.chip with mt.pointer := p % 256 } }) ∧
    (∀ p d, ∃ t, exec (.mtPointerWrite a p d) s = .next t) ∧
    (∀ v : Byte,
      exec (.mtPointerWrite a 3 [v]) s = .next { s with chip := { s.chip with
        mt.pointer := 4, mt.style := bit v.toNat 0, mt.pecReq := bit v.toNat 1 } } ∧
      exec (.mtPointerWrite a 4 [v]) s = .next { s with chip := { s.chip with
        mt.pointer := 5, mt.src := clearBits s.chip.mt.src v.toNat,
        mt.reported := clearBits s.chip.mt.reported v.toNat } } ∧
      exec (.mtPointerWrite a 5 [v]) s = .next { s with chip := { s.chip with
        mt.pointer := 6, mt.mask := v.toNat,
        mt.reported := clearBits s.chip.mt.reported (clearBits v.toNat s.chip.mt.mask) } } ∧
      exec (.mtPointerWrite a 8 [v]) s = .next { s with chip := { s.chip with
        mt.pointer := 9, mt.winBase := s.chip.mt.winBase / 256 * 256 + v.toNat } } ∧
      exec (.mtPointerWrite a 9 [v]) s = .next { s with chip := { s.chip with
        mt.pointer := 10, mt.winBase := v.toNat % 32 * 256 + s.chip.mt.winBase % 256 } } ∧
      ∀ p, p < 0x80 → p ∉ [3, 4, 5, 8, 9] →
        exec (.mtPointerWrite a p [v]) s = .next { s with chip := { s.chip with mt.pointer := p + 1 } }) ∧
    (∀ k d, k < 32 → Chip.singly (128 * s.chip.mt.winBase + 4 * k) = false →
      (d.length = 4 →
        ∀ c, c = { s.chip with mt.pointer := (0x84 + 4 * k) % 256 } →
        exec (.mtPointerWrite a (0x80 + 4 * k) d) s =
          .next { s with chip := c.writeDword mtView (128 * s.chip.mt.winBase + 4 * k) (u32 d 0) 15 }) ∧
      (0 < d.length → d.length < 4 →
        exec (.mtPointerWrite a (0x80 + 4 * k) d) s = .next { s with chip := { s.chip with
          mt.pointer := 0x80 + 4 * k + d.length, mt.errAccess := min (s.chip.mt.errAccess + d.length) 255 } })) ∧
    (∀ p n i, p + n ≤ 0x80 →
      (i = Instr.mtReadAtPointer a p n ∨ i = .mtReadOn a n ∧ s.chip.mt.pointer = p) →
      ∃ t, exec i s = .next t ∧ t.chip.rd = (List.range n).map (fun k => BitVec.ofNat 8 (s.chip.mtReg (p + k))) ∧
        t.chip.mt.pointer = p + n ∧
        t.chip.mt.errPec = (if p ≤ 0x0C ∧ 0x0C < p + n then 0 else s.chip.mt.errPec) ∧
        t.chip.mt.errAccess = (if p ≤ 0x0D ∧ 0x0D < p + n then 0 else s.chip.mt.errAccess) ∧
        t.chip.mt.timeouts = (if p ≤ 0x0E ∧ 0x0E < p + n then 0 else s.chip.mt.timeouts) ∧
        t.chip.mt.src = s.chip.mt.src) ∧
    (∀ k, k < 32 → Chip.singly (128 * s.chip.mt.winBase + 4 * k) = false →
      ∃ t, exec (.mtReadAtPointer a (0x80 + 4 * k) 4) s = .next t ∧
        t.chip.rd = le 4 (u32 (s.chip.readDword mtView (128 * s.chip.mt.winBase + 4 * k)).rd 0)) ∧
    ∀ p n, ∃ t, exec (.mtReadAtPointer a p n) s = .next t ∧ t.chip.rd.length = n ∧ t.chip.mt.pointer = (p % 256 + n) % 256)

/-- R481, R488 to R492: the command codes, PEC, the alert response, and SCL held low. What the controller reads where
another target wins the alert response is the model's reading (log 75). -/
def Obligations.MtCodes : Prop := ∀ s, s.chip.mailboxUp = true →
  (∀ a p, s.chip.mt.style = false → a = s.chip.mtAddress →
    (∀ code body, (code = 0 ∧ body = le 1 0x72 ++ le 1 0x06 ∨
        code = 8 ∧ body = le 1 (s.chip.mt.winBase % 256) ++ le 1 (s.chip.mt.winBase / 256)) →
      exec (.mtReadWord a code p) s = .next { s with chip := { s.chip with
        rd := body ++ if p then
            [BitVec.ofNat 8 (pec ([BitVec.ofNat 8 (2 * a), BitVec.ofNat 8 code, BitVec.ofNat 8 (2 * a + 1)] ++ body))]
          else [] } }) ∧
    (∀ code body, code ∈ [2, 3, 4, 5, 6, 0x0C, 0x0D, 0x0E] → body = le 1 (s.chip.mtReg code) →
      ∃ t, exec (.mtReadByte a code p) s = .next t ∧
        t.chip.rd = (body ++ if p then
            [BitVec.ofNat 8 (pec ([BitVec.ofNat 8 (2 * a), BitVec.ofNat 8 code, BitVec.ofNat 8 (2 * a + 1)] ++ body))]
          else []) ∧
        (code = 0x0C → t.chip.mt.errPec = 0) ∧ (code = 0x0D → t.chip.mt.errAccess = 0) ∧
        (code = 0x0E → t.chip.mt.timeouts = 0)) ∧
    (∀ code v x, code ∈ [3, 4, 5] →
      x = pec ([BitVec.ofNat 8 (2 * a), BitVec.ofNat 8 code] ++ le 1 v) → v < 256 →
      (∀ q, (q = some x ∨ q = none ∧ s.chip.mt.pecReq = false) →
        exec (.mtWriteByte a code v q) s = .next { s with chip :=
          if code = 3 then { s.chip with mt.style := bit v 0, mt.pecReq := bit v 1 }
          else if code = 4 then { s.chip with mt.src := clearBits s.chip.mt.src v,
                                              mt.reported := clearBits s.chip.mt.reported v }
          else { s.chip with mt.mask := v,
                             mt.reported := clearBits s.chip.mt.reported (clearBits v s.chip.mt.mask) } }) ∧
      (∀ q, (q = none ∧ s.chip.mt.pecReq = true ∨ ∃ y < 256, q = some y ∧ y ≠ x) →
        exec (.mtWriteByte a code v q) s = .next { s with chip := { s.chip with
          mt.errPec := min (s.chip.mt.errPec + 1) 255 } })) ∧
    (∀ code v q, code ∈ [0, 2, 6, 0x0C, 0x0D, 0x0E] →
      exec (.mtWriteByte a code v q) s = .next { s with chip := { s.chip with
        mt.errAccess := min (s.chip.mt.errAccess + 1) 255 } }) ∧
    (∀ lo hi, lo < 256 → hi < 256 → s.chip.mt.pecReq = false →
      exec (.mtWriteWord a 8 lo hi none) s = .next { s with chip := { s.chip with
        mt.winBase := hi % 32 * 256 + lo } }) ∧
    (∀ code n d q, 0x80 ≤ code → code ≤ 0xFF → n < 256 →
      ((n = 0 ∨ 0x100 < code + n) → exec (.mtBlockWrite a code n d q) s = .next s) ∧
      (n = 4 → d.length = 4 → code + 4 ≤ 0x100 → code % 4 = 0 → q = none → s.chip.mt.pecReq = false →
        Chip.singly (128 * s.chip.mt.winBase + (code - 0x80)) = false →
        ∀ b, b = 128 * s.chip.mt.winBase + (code - 0x80) →
        exec (.mtBlockWrite a code n d q) s = .next { s with chip := s.chip.writeDword mtView b (u32 d 0) 15 }) ∧
      (0 < n → code + n ≤ 0x100 → d.length = n →
        (q = none ∧ s.chip.mt.pecReq = true ∨
          ∃ y < 256, q = some y ∧ y ≠ pec ([BitVec.ofNat 8 (2 * a), BitVec.ofNat 8 code, BitVec.ofNat 8 n] ++ d)) →
        exec (.mtBlockWrite a code n d q) s = .next { s with chip := { s.chip with
          mt.errPec := min (s.chip.mt.errPec + 1) 255 } })) ∧
    (∀ code, 0x80 ≤ code → code ≤ 0xFF →
      ∃ t, exec (.mtBlockRead a code p) s = .next t ∧
        t.chip.rd.length = 1 + min 128 (0x100 - code) + b2n p ∧
        t.chip.rd.head? = some (BitVec.ofNat 8 (min 128 (0x100 - code)))) ∧
    (∀ code, code ∈ [1, 7, 9, 0x0A, 0x0B, 0x0F] ∨ 0x10 ≤ code ∧ code < 0x80 →
      exec (.mtReadByte a code p) s = .next { s with chip := { s.chip with rd := [] } } ∧
      ∀ v q, exec (.mtWriteByte a code v q) s = .next s)) ∧
  (∀ a n, s.chip.mt.style = false →
    exec (.mtReadOn a n) s = .next { s with chip := { s.chip with rd := [] } }) ∧
  (s.chip.unreported = 0 → exec (.mtAlertResponse []) s = .next { s with chip := { s.chip with rd := [] } }) ∧
  (∀ i, i < 8 → bit s.chip.unreported i = true → (∀ j, j < i → bit s.chip.unreported j = false) →
    exec (.mtAlertResponse []) s = .next { s with chip := { s.chip with
      rd := le 1 (2 * s.chip.mtAddress), mt.cur := i, mt.reported := setBit s.chip.mt.reported i } } ∧
    (∀ o, 2 * s.chip.mtAddress < o → o < 256 →
      exec (.mtAlertResponse [o]) s = exec (.mtAlertResponse []) s) ∧
    (∀ o, o < 2 * s.chip.mtAddress → o < 256 →
      exec (.mtAlertResponse [o]) s = .next { s with chip := { s.chip with rd := le 1 o } })) ∧
  (∀ b : Fin 8,
    (bit s.chip.mt.src b.val = true → exec (.alertRereport b) s = .next { s with chip := { s.chip with
      mt.reported := clearBits s.chip.mt.reported (2 ^ b.val) } }) ∧
    (bit s.chip.mt.src b.val = false → exec (.alertRereport b) s = .next s)) ∧
  exec .mtSclTimeout s = .next { s with chip := { s.chip with mt.timeouts := min (s.chip.mt.timeouts + 1) 255 } }
end

