-- ==== Sys2Proof/Laws/Guard.lean ====
section
/-! SUPPORT. The guard groups of the frame store (R249): what is rebuilt of a lost granule is what lay there. -/

namespace Sys2Proof.Laws

open Sys2Proof Sys2Proof.Machine Sys2Proof.Machine.Chip

/-- The XOR of three granules, byte by byte, as `guardGroup` and `guardRebuilt` take it. -/
theorem xor3_back (x y z : List Byte) (hy : y.length = x.length) (hz : z.length = x.length) :
    let g := (x.zip (y.zip z)).map fun t => t.1 ^^^ t.2.1 ^^^ t.2.2
    (y.zip (z.zip g)).map (fun t => t.1 ^^^ t.2.1 ^^^ t.2.2) = x ∧
      (x.zip (z.zip g)).map (fun t => t.1 ^^^ t.2.1 ^^^ t.2.2) = y ∧
      (x.zip (y.zip g)).map (fun t => t.1 ^^^ t.2.1 ^^^ t.2.2) = z := by
  induction x generalizing y z with
  | nil => simp_all
  | cons a x ih =>
    match y, z, hy, hz with
    | b :: y, d :: z, hy, hz =>
      obtain ⟨h1, h2, h3⟩ := ih y z (by simpa using hy) (by simpa using hz)
      refine ⟨?_, ?_, ?_⟩ <;> simp only [List.zip_cons_cons, List.map_cons, h1, h2, h3, List.cons.injEq, and_true] <;>
        (apply BitVec.eq_of_getLsbD_eq; intro i _; simp <;> (cases a.getLsbD i <;> cases b.getLsbD i <;> cases d.getLsbD i <;> rfl))

/-- The four places of a guard group lie on four stacks (R249). -/
theorem guardPlace_inj (n i j : Nat) (hi : i < 4) (hj : j < 4) (h : guardPlace n i = guardPlace n j) : i = j := by
  simp only [guardPlace, Prod.mk.injEq, and_true] at h
  split at h <;> split at h <;> omega

/-- Whichever place of a guard group is lost, what is rebuilt is what lay there (R249). -/
theorem guardRebuilt_guardGroup (n : Nat) (x y z : List Byte) (hy : y.length = x.length) (hz : z.length = x.length) :
    ∀ e ∈ guardGroup n x y z, guardRebuilt e.1 (guardGroup n x y z) = e.2 := by
  obtain ⟨h1, h2, h3⟩ := xor3_back x y z hy hz
  have ne : ∀ i j, i < 4 → j < 4 → i ≠ j → (guardPlace n i != guardPlace n j) = true := fun i j hi hj h => by
    simpa using fun e => h (guardPlace_inj n i j hi hj e)
  intro e he
  simp only [guardGroup, List.mem_cons, List.not_mem_nil, or_false] at he
  rcases he with rfl | rfl | rfl | rfl <;>
    simp [guardRebuilt, guardGroup, List.filter, ne, h1, h2, h3, -bne_iff_ne]

end Sys2Proof.Laws
end

