-- ==== Sys2Proof/Laws/Mem.lean ====
section
/-! SUPPORT. Laws of the addressed memory: every operation keeps the canonical form, a read finds what was written, and a write
leaves every other place alone. -/

namespace Sys2Proof.Machine

theorem Mem.above_trans {a b : Nat} {m : Mem} (h : a ≤ b) (hb : Mem.above b m = true) : Mem.above a m = true := by
  induction m with
  | nil => rfl
  | cons c m ih =>
    simp only [Mem.above, Bool.and_eq_true, decide_eq_true_eq] at hb ⊢
    exact ⟨by omega, ih hb.2⟩

theorem Mem.above_cell {a k : Nat} {b : Byte} {m : Mem} (h : a < k) (hm : Mem.above a m = true) :
    Mem.above a (Mem.cell k b m) = true := by
  unfold Mem.cell
  split
  · exact hm
  · simp [Mem.above, h, hm]

theorem Mem.above_write {a k : Nat} {b : Byte} {m : Mem} (h : a < k) (hm : Mem.above a m = true) :
    Mem.above a (Mem.write m k b) = true := by
  induction m with
  | nil => exact Mem.above_cell h rfl
  | cons c m ih =>
    have hm' := hm
    simp only [Mem.above, Bool.and_eq_true, decide_eq_true_eq] at hm
    unfold Mem.write
    split
    · exact Mem.above_cell h hm'
    · split
      · exact Mem.above_cell h hm.2
      · simp [Mem.above, hm.1, ih hm.2]

theorem Mem.wf_cell {k : Nat} {b : Byte} {m : Mem} (hm : Mem.wf m = true) (ha : Mem.above k m = true) :
    Mem.wf (Mem.cell k b m) = true := by
  unfold Mem.cell
  split
  · exact hm
  · rename_i h; simp [Mem.wf, h, hm, ha]

/-- Writing one byte keeps the canonical form. -/
theorem Mem.wf_write {m : Mem} (k : Nat) (b : Byte) (h : Mem.wf m = true) : Mem.wf (Mem.write m k b) = true := by
  induction m with
  | nil => exact Mem.wf_cell rfl rfl
  | cons c m ih =>
    have h' := h
    simp only [Mem.wf, Bool.and_eq_true, decide_eq_true_eq] at h
    unfold Mem.write
    split
    · rename_i hk
      exact Mem.wf_cell h' (by simp [Mem.above, hk, Mem.above_trans (Nat.le_of_lt hk) h.1.2])
    · rename_i hk
      split
      · rename_i he; subst he; exact Mem.wf_cell h.2 h.1.2
      · rename_i he
        simp only [Mem.wf, Bool.and_eq_true, decide_eq_true_eq]
        exact ⟨⟨h.1.1, Mem.above_write (by omega) h.1.2⟩, ih h.2⟩

/-- Writing bytes keeps the canonical form. -/
theorem Mem.wf_writeBytes {m : Mem} (a : Nat) (bs : List Byte) (h : Mem.wf m = true) :
    Mem.wf (Mem.writeBytes m a bs) = true := by
  induction bs generalizing m a with
  | nil => exact h
  | cons b bs ih => exact ih (a + 1) (Mem.wf_write a b h)

theorem Mem.above_filter {a : Nat} {m : Mem} (p : Host.Cell → Bool) (h : Mem.above a m = true) :
    Mem.above a (m.filter p) = true := by
  induction m with
  | nil => rfl
  | cons c m ih =>
    simp only [Mem.above, Bool.and_eq_true, decide_eq_true_eq] at h
    rw [List.filter_cons]
    split
    · simp [Mem.above, h.1, ih h.2]
    · exact ih h.2

/-- Erasing a range keeps the canonical form. -/
theorem Mem.wf_erase {m : Mem} (a n : Nat) (h : Mem.wf m = true) : Mem.wf (Mem.erase m a n) = true := by
  unfold Mem.erase
  induction m with
  | nil => rfl
  | cons c m ih =>
    simp only [Mem.wf, Bool.and_eq_true] at h
    rw [List.filter_cons]
    split
    · simp only [Mem.wf, Bool.and_eq_true]
      exact ⟨⟨h.1.1, Mem.above_filter _ h.1.2⟩, ih h.2⟩
    · exact ih h.2

theorem Mem.read_above {a : Nat} {m : Mem} (h : Mem.above a m = true) : Mem.read m a = Mem.unlisted := by
  induction m with
  | nil => rfl
  | cons c m ih =>
    simp only [Mem.above, Bool.and_eq_true, decide_eq_true_eq] at h
    unfold Mem.read
    rw [if_neg (by omega)]
    exact ih h.2

theorem Mem.read_cell (k : Nat) (b : Byte) (m : Mem) (a : Nat) (hm : Mem.above k m = true) :
    Mem.read (Mem.cell k b m) a = if a = k then b else Mem.read m a := by
  unfold Mem.cell
  split
  · rename_i h
    split
    · rename_i ha; subst ha; rw [Mem.read_above hm, h]
    · rfl
  · show (if k = a then b else Mem.read m a) = _
    by_cases h : k = a
    · rw [if_pos h, if_pos h.symm]
    · rw [if_neg h, if_neg (fun e => h e.symm)]

/-- A read finds the byte written to its address, and any other address reads as before. -/
theorem Mem.read_write {m : Mem} (k : Nat) (b : Byte) (a : Nat) (h : Mem.wf m = true) :
    Mem.read (Mem.write m k b) a = if a = k then b else Mem.read m a := by
  induction m with
  | nil => exact Mem.read_cell k b [] a rfl
  | cons c m ih =>
    have h' := h
    simp only [Mem.wf, Bool.and_eq_true, decide_eq_true_eq] at h
    unfold Mem.write
    split
    · rename_i hk
      exact Mem.read_cell k b _ a (by simp [Mem.above, hk, Mem.above_trans (Nat.le_of_lt hk) h.1.2])
    · split
      · rename_i he
        subst he
        rw [Mem.read_cell _ _ _ _ h.1.2]
        by_cases ha : a = c.1
        · rw [if_pos ha, if_pos ha]
        · rw [if_neg ha, if_neg ha]
          conv_rhs => unfold Mem.read
          rw [if_neg (fun e => ha e.symm)]
      · rename_i he
        unfold Mem.read
        by_cases hc : c.1 = a
        · rw [if_pos hc, if_pos hc, if_neg (by omega)]
        · rw [if_neg hc, if_neg hc, ih h.2]

/-- Addresses outside the bytes written read as before. -/
theorem Mem.read_writeBytes_other {m : Mem} (k : Nat) (bs : List Byte) (a : Nat) (h : Mem.wf m = true)
    (ha : a < k ∨ k + bs.length ≤ a) : Mem.read (Mem.writeBytes m k bs) a = Mem.read m a := by
  induction bs generalizing m k with
  | nil => rfl
  | cons b bs ih =>
    simp only [List.length_cons] at ha
    rw [Mem.writeBytes, ih (k + 1) (Mem.wf_write k b h) (by omega), Mem.read_write k b a h, if_neg (by omega)]

/-- The bytes written read back. -/
theorem Mem.readBytes_writeBytes {m : Mem} (k : Nat) (bs : List Byte) (h : Mem.wf m = true) :
    Mem.readBytes (Mem.writeBytes m k bs) k bs.length = bs := by
  induction bs generalizing m k with
  | nil => rfl
  | cons b bs ih =>
    have hw := Mem.wf_write k b h
    simp only [List.length_cons, Mem.readBytes, Mem.writeBytes]
    rw [ih (k + 1) hw, Mem.read_writeBytes_other (k + 1) bs k hw (by omega), Mem.read_write k b k h, if_pos rfl]

end Sys2Proof.Machine
end

