-- ==== Sys2Proof/Laws/Tab.lean ====
section
/-! SUPPORT. Laws of the sparse tables: the entry that was put is found, every other entry stands. -/

namespace Sys2Proof

theorem Tab.find?_put {α : Type} (t : Tab α) (k j : Nat) (v : α) :
    Tab.find? (Tab.put t k v) j = if j = k then some v else Tab.find? t j := by
  induction t with
  | nil =>
    show (if k = j then some v else none) = _
    by_cases h : k = j
    · rw [if_pos h, if_pos h.symm]
    · rw [if_neg h, if_neg (fun e => h e.symm)]; rfl
  | cons p t ih =>
    obtain ⟨i, w⟩ := p
    by_cases hj : j = k
    · subst hj
      rw [if_pos rfl]
      by_cases h1 : i = j
      · simp [Tab.put, Tab.find?, h1]
      · by_cases h2 : j < i
        · simp [Tab.put, Tab.find?, h1, h2]
        · simp only [Tab.put, if_neg h1, if_neg h2, Tab.find?]
          rw [ih, if_pos rfl]
    · rw [if_neg hj] at *
      by_cases h1 : i = k
      · subst h1
        simp [Tab.put, Tab.find?, Ne.symm hj]
      · by_cases h2 : k < i
        · simp [Tab.put, Tab.find?, h1, h2, Ne.symm hj]
        · simp only [Tab.put, if_neg h1, if_neg h2, Tab.find?]
          rw [ih]

@[simp] theorem Tab.getD_put_self {α : Type} (t : Tab α) (d v : α) (k : Nat) : Tab.getD (Tab.put t k v) d k = v := by
  simp [Tab.getD, Tab.find?_put]

theorem Tab.getD_put {α : Type} (t : Tab α) (d v : α) (k j : Nat) :
    Tab.getD (Tab.put t k v) d j = if j = k then v else Tab.getD t d j := by
  simp only [Tab.getD, Tab.find?_put]
  by_cases h : j = k
  · rw [if_pos h, if_pos h]; rfl
  · rw [if_neg h, if_neg h]

@[simp] theorem Tab.getD_put_other {α : Type} (t : Tab α) (d v : α) {k j : Nat} (h : j ≠ k) :
    Tab.getD (Tab.put t k v) d j = Tab.getD t d j := by
  rw [Tab.getD_put, if_neg h]

@[simp] theorem Tab.find?_put_self {α : Type} (t : Tab α) (v : α) (k : Nat) : Tab.find? (Tab.put t k v) k = some v := by
  rw [Tab.find?_put, if_pos rfl]

@[simp] theorem Tab.find?_put_other {α : Type} (t : Tab α) (v : α) {k j : Nat} (h : j ≠ k) :
    Tab.find? (Tab.put t k v) j = Tab.find? t j := by
  rw [Tab.find?_put, if_neg h]

/-- The last value put under a number stands. -/
@[simp] theorem Tab.put_put {α : Type} (t : Tab α) (k : Nat) (v w : α) :
    Tab.put (Tab.put t k v) k w = Tab.put t k w := by
  induction t with
  | nil => simp [Tab.put]
  | cons p t ih =>
    obtain ⟨i, u⟩ := p
    by_cases h1 : i = k
    · simp [Tab.put, h1]
    · by_cases h2 : k < i
      · simp [Tab.put, h1, h2]
      · simp [Tab.put, h1, h2, ih]

/-- The entry that is dropped is gone, every other stands. -/
theorem Tab.find?_drop {α : Type} (t : Tab α) (k j : Nat) :
    Tab.find? (Tab.drop t k) j = if j = k then none else Tab.find? t j := by
  induction t with
  | nil => simp [Tab.drop, Tab.find?]
  | cons p t ih =>
    obtain ⟨i, w⟩ := p
    by_cases h1 : i = k
    · subst h1
      simp only [Tab.drop, if_true]
      rw [ih]
      by_cases h2 : j = i
      · rw [if_pos h2, if_pos h2]
      · rw [if_neg h2, if_neg h2]; simp [Tab.find?, Ne.symm h2]
    · simp only [Tab.drop, if_neg h1, Tab.find?]
      by_cases h3 : i = j
      · subst h3; simp [h1]
      · simp only [if_neg h3]; rw [ih]

end Sys2Proof
end

