-- ==== Sys2Proof/Laws/Only.lean ====
section
/-! SUPPORT. What each shared operation of the chip can change, said once: the fields that it may write, all others as
they were. -/

namespace Sys2Proof.Machine

namespace Chip

theorem count_only (c : Chip) (k n : Nat) : ∃ x, c.count k n = { c with ev.counters := x } := by
  unfold count; split
  · exact ⟨_, rfl⟩
  · exact ⟨_, rfl⟩

theorem emitAt_only (c : Chip) (line kind inst detail value time : Nat) :
    ∃ w x, c.emitAt line kind inst detail value time = { c with ev.waiting := w, ev.counters := x } := by
  unfold emitAt; obtain ⟨x, h⟩ := count_only { c with ev.waiting := c.ev.waiting ++ [_] } line 1
  exact ⟨_, x, h⟩

theorem emit_only (c : Chip) (line kind inst detail value : Nat) :
    ∃ w x, c.emit line kind inst detail value = { c with ev.waiting := w, ev.counters := x } :=
  emitAt_only c line kind inst detail value c.t64

theorem addFault_only (c : Chip) (kind inst : Nat) :
    ∃ l w x, c.addFault kind inst = { c with mgmt.faults := l, ev.waiting := w, ev.counters := x } := by
  unfold addFault; split
  · exact ⟨_, _, _, rfl⟩
  · obtain ⟨w, x, h⟩ := emit_only { c with mgmt.faults := c.mgmt.faults ++ [_] } 0x23 1 (kind * 256 + inst) 1 c.t64
    exact ⟨_, w, x, h⟩

theorem dropFault_only (c : Chip) (kind inst : Nat) :
    ∃ l w x, c.dropFault kind inst = { c with mgmt.faults := l, ev.waiting := w, ev.counters := x } := by
  unfold dropFault; split
  · exact ⟨_, _, _, rfl⟩
  · rename_i f _
    obtain ⟨w, x, h⟩ := emit_only { c with mgmt.faults := c.mgmt.faults.filter _ } 0x23 1 (kind * 256 + inst) 2 f.t64
    exact ⟨_, w, x, h⟩

theorem trace_only (c : Chip) (g kind : Nat) (data : List Byte) (time : Nat) :
    ∃ t x, c.trace g kind data time = { c with ev.trace := c.ev.trace.noted t, ev.counters := x } := by
  unfold trace; dsimp only; split
  · exact ⟨(c.ev.trace.queue, c.ev.trace.tseq, c.ev.trace.dropped, c.ev.trace.dropNew), _, rfl⟩
  · split
    · obtain ⟨x, h⟩ := count_only { c with ev.trace := _ } 0x4D 1
      exact ⟨_, x, h⟩
    · obtain ⟨x, h⟩ := count_only { c with ev.trace := _ } 0x4E 1
      exact ⟨_, x, h⟩

theorem traceOpen_only (c : Chip) (g kind : Nat) : ∃ t x, c.traceOpen g kind = { c with ev.trace := c.ev.trace.noted t, ev.counters := x } :=
  trace_only c g kind _ _

theorem msix_only (c : Chip) (f v : Nat) : ∃ fs ps, c.msix f v = { c with hosts.fns := fs, hosts.ports := ps } := by
  unfold msix; dsimp only
  split
  · exact ⟨_, _, rfl⟩
  · split
    · exact ⟨_, _, rfl⟩
    · split <;> exact ⟨_, _, rfl⟩

theorem sendU_only (c : Chip) (f : Nat) (kind : TlpKind) (addr : Nat) (data : List Byte) (start : Nat)
    (vecs : List Nat) (allow : Nat) : ∃ ps, c.sendU f kind addr data start vecs allow = { c with hosts.ports := ps } := by
  unfold sendU; dsimp only; split <;> exact ⟨_, rfl⟩

theorem sendM_only (c : Chip) (f : Nat) (kind : TlpKind) (addr : Nat) (data : List Byte) (vecs : List Nat) :
    ∃ ps, c.sendM f kind addr data vecs = { c with hosts.ports := ps } := by
  unfold sendM; dsimp only; split <;> exact ⟨_, rfl⟩

theorem originate_only (c : Chip) (cls kind dest stream : Nat) (payload : List Byte) :
    ∃ e q, c.originate cls kind dest stream payload = { c with seam.esnTx := e, seam.queue := q } := by
  unfold originate; split
  · exact ⟨_, _, rfl⟩
  · dsimp only; split <;> exact ⟨_, _, rfl⟩

theorem winPush_only (c : Chip) (w time : Nat) (stop : Bool) :
    ∃ x, c.winPush w time stop = { c with trig.windows := x } := ⟨_, rfl⟩

theorem winCommand_only (c : Chip) (w time : Nat) : ∃ x, c.winCommand w time = { c with trig.windows := x } := by
  unfold winCommand; dsimp only; split
  · exact ⟨_, rfl⟩
  · split <;> exact ⟨_, rfl⟩

/-- What holds of every turn holds of the whole walk of a list. -/
theorem foldC_keeps {α : Type} (P : Chip → Prop) (l : List α) (f : Chip → α → Chip) (h : ∀ c a, P c → P (f c a))
    (c : Chip) (hc : P c) : P (c.foldC l f) := by
  unfold foldC
  induction l generalizing c with
  | nil => exact hc
  | cons a l ih => exact ih _ (h c a hc)

theorem alert_only (c : Chip) (b : Nat) : ∃ x y, c.alert b = { c with mt.src := x, mt.reported := y } := by
  unfold alert; split <;> exact ⟨_, _, rfl⟩

theorem overrun_only (c : Chip) (k l : Nat) : ∃ f o w x, c.overrun k l =
    { c with ev.evfCons := f, ev.overruns := o, ev.waiting := w, ev.counters := x } := by
  unfold overrun
  obtain ⟨x, h⟩ := count_only ({ c with ev.evfCons := setBit c.ev.evfCons k }) (0x30 + k) 1
  simp only [h]
  have he : ∀ (o : Tab ConsOverrun) (a b : Nat), ∃ f p w y,
      ({ c with ev.evfCons := setBit c.ev.evfCons k, ev.counters := x, ev.overruns := o } : Chip).emit 0x2C 1 k a b =
        { c with ev.evfCons := f, ev.overruns := p, ev.waiting := w, ev.counters := y } := by
    intro o a b
    obtain ⟨w, y, h2⟩ := emit_only { c with ev.evfCons := setBit c.ev.evfCons k, ev.counters := x, ev.overruns := o }
      0x2C 1 k a b
    exact ⟨_, _, w, y, h2⟩
  split <;> split
  · exact he _ _ _
  · exact ⟨_, _, _, _, rfl⟩
  · exact he _ _ _
  · exact ⟨_, _, _, _, rfl⟩

theorem mtWrite_only (c : Chip) (r : EventRec) :
    ∃ e a b, c.mtWrite r = { c with ev := e, mt.src := a, mt.reported := b } := by
  unfold mtWrite; dsimp only
  split
  · obtain ⟨f, o, w, x, h⟩ := overrun_only { c with ev.mtEntries := _, ev.mtWr := _, ev.mtOverrun := _ } 3 r.line
    rw [h]
    obtain ⟨a, b, h2⟩ := alert_only { c with ev := _ } 6
    exact ⟨_, a, b, h2⟩
  · obtain ⟨a, b, h2⟩ := alert_only { c with ev := _ } 6
    exact ⟨_, a, b, h2⟩

theorem audit_only (c : Chip) (kind opcode status role slot mb session : Nat) (digest : List Byte) :
    ∃ a n h, c.audit kind opcode status role slot mb session digest =
      { c with mbx.audit := a, mbx.auditNext := n, mbx.auditHash := h } := ⟨_, _, _, rfl⟩

theorem setBox_only (c : Chip) (mb : Nat) (v : Mailbox) : ∃ x, c.setBox mb v = { c with mbx.boxes := x } := ⟨_, rfl⟩

theorem setMbxState_only (c : Chip) (mb : Nat) (st : MbxState) :
    ∃ t x, c.setMbxState mb st =
      { c with mbx.boxes := c.mbx.boxes.put mb { c.box mb with state := st }, ev.trace := c.ev.trace.noted t, ev.counters := x } := by
  unfold setMbxState
  obtain ⟨t, x, h⟩ := traceOpen_only (c.setBox mb { c.box mb with state := st }) 1 0
  exact ⟨t, x, h⟩

theorem endSession_only (c : Chip) (mb cause : Nat) :
    ∃ b a n h, c.endSession mb cause =
      { c with mbx.boxes := b, mbx.audit := a, mbx.auditNext := n, mbx.auditHash := h } := by
  unfold endSession; dsimp only; split <;> exact ⟨_, _, _, _, rfl⟩

theorem signalEnd_only (c : Chip) (mb : Nat) :
    ∃ fs ps x y, c.signalEnd mb = { c with hosts.fns := fs, hosts.ports := ps, mt.src := x, mt.reported := y } := by
  unfold signalEnd; dsimp only
  split
  · exact ⟨_, _, _, _, rfl⟩
  · split
    · obtain ⟨x, y, h⟩ := alert_only c 4
      exact ⟨_, _, x, y, h⟩
    · split
      · obtain ⟨fs, ps, h⟩ := msix_only c mb (c.box mb).vector
        exact ⟨fs, ps, _, _, h⟩
      · exact ⟨_, _, _, _, rfl⟩

theorem mirror_only (c : Chip) : ∃ x, c.mirror = { c with mgmt.mirrored := x } := by
  unfold mirror; split <;> exact ⟨_, rfl⟩

theorem journal_only (c : Chip) (m : Cmd) (req : List Byte) : ∃ x, c.journal m req = { c with board.cfg := x } := by
  unfold journal; dsimp only; split <;> exact ⟨_, rfl⟩

theorem flushTrace_only (c : Chip) : ∃ t ps, c.flushTrace = { c with ev.trace := t, hosts.ports := ps } := by
  unfold flushTrace; dsimp only
  let P : Chip → Prop := fun d => ∃ t ps, d = { c with ev.trace := t, hosts.ports := ps }
  have h0 : P { c with ev.trace.queue := [] } := ⟨_, _, rfl⟩
  split
  · refine foldC_keeps P _ _ ?_ _ h0
    rintro d r ⟨t, ps, rfl⟩; exact ⟨_, _, rfl⟩
  · split
    · refine foldC_keeps P _ _ ?_ _ h0
      rintro d r ⟨t, ps, rfl⟩
      obtain ⟨ps', h⟩ := sendM_only { c with ev.trace := t, hosts.ports := ps } c.ev.trace.fn .trace
        (c.ev.trace.hostBase + 64 * (r.tseq % max 1 c.traceEntries)) (traceBytes r) []
      exact ⟨_, _, h⟩
    · exact h0

theorem countEnd_only (c : Chip) (status : Nat) : ∃ x, c.countEnd status = { c with ev.counters := x } := by
  unfold countEnd
  generalize (if status = 0 then 0x4A else 0x4B) = k
  obtain ⟨x, h⟩ := count_only c k 1
  simp only [h]
  split
  · exact count_only { c with ev.counters := x } 0x4C 1
  · exact ⟨x, rfl⟩

/-- The end of a command: its mailbox, the notes of it (counters, trace), its interrupt, alert or answer. -/
theorem endCommand_only (c : Chip) (mb status flags : Nat) (rsp : List Byte) :
    ∃ t x fs ps a b e q, c.endCommand mb status flags rsp =
      { c with mbx.boxes := c.mbx.boxes.put mb
                 { answered (c.box mb) status flags rsp with state := if c.boxFrozen mb then .held else .done },
               ev.trace := c.ev.trace.noted t, ev.counters := x, hosts.fns := fs, hosts.ports := ps, mt.src := a, mt.reported := b,
               seam.esnTx := e, seam.queue := q } := by
  unfold endCommand; dsimp only
  generalize answered (c.box mb) status flags rsp = b
  obtain ⟨y, h2⟩ := countEnd_only (c.setBox mb b) status
  simp only [h2]
  have hf : (({ c.setBox mb b with ev.counters := y } : Chip).boxFrozen mb) = c.boxFrozen mb := rfl
  have hs : ∀ st, ∃ t z, ({ c.setBox mb b with ev.counters := y } : Chip).setMbxState mb st =
      { c with mbx.boxes := c.mbx.boxes.put mb { b with state := st }, ev.trace := c.ev.trace.noted t, ev.counters := z } := by
    intro st
    obtain ⟨t, z, h⟩ := setMbxState_only { c.setBox mb b with ev.counters := y } mb st
    refine ⟨t, z, h.trans ?_⟩
    have e1 : ({ c.setBox mb b with ev.counters := y } : Chip).box mb = b := Tab.getD_put_self ..
    rw [e1]
    have e2 : ({ c.setBox mb b with ev.counters := y } : Chip).mbx.boxes.put mb { b with state := st } =
        c.mbx.boxes.put mb { b with state := st } := Tab.put_put ..
    rw [e2]; rfl
  rw [hf]
  split
  · rename_i hfz
    obtain ⟨t, z, h⟩ := hs .held
    exact ⟨t, z, _, _, _, _, _, _, h⟩
  · rename_i hfz
    obtain ⟨t, z, h⟩ := hs .done
    rw [h]
    split
    · obtain ⟨e, q, h4⟩ := originate_only { c with
        mbx.boxes := c.mbx.boxes.put mb { b with state := .done }, ev.trace := c.ev.trace.noted t, ev.counters := z } 3 0x31 (mb - 0x8000) 0 (headerBytes b ++ rsp)
      exact ⟨t, z, _, _, _, _, e, q, h4⟩
    · obtain ⟨fs, ps, a, b', h4⟩ := signalEnd_only { c with
        mbx.boxes := c.mbx.boxes.put mb { b with state := .done }, ev.trace := c.ev.trace.noted t, ev.counters := z } mb
      exact ⟨t, z, fs, ps, a, b', _, _, h4⟩

/-- The record of an event of this device. -/
theorem emit_eq (c : Chip) (line kind inst detail value : Nat) :
    ∃ x, c.emit line kind inst detail value = { c with
      ev.waiting := c.ev.waiting ++
        [{ line := line, kind := kind, inst := inst % 65536, detail := detail % 65536, value := value % 2 ^ 64,
           time := c.t64, source := 0x3FF }],
      ev.counters := x } := by
  unfold emit emitAt
  obtain ⟨x, h⟩ := count_only { c with ev.waiting := c.ev.waiting ++
        [{ line := line, kind := kind, inst := inst % 65536, detail := detail % 65536, value := value % 2 ^ 64,
           time := c.t64, source := 0x3FF }] } line 1
  exact ⟨x, h⟩

/-- The end of an open ticket: it is gone, CMD_DONE is produced, the audit log has its second entry, and MT or the device
that relayed its command hears of it. -/
theorem endTicket_eq (c : Chip) (id status : Nat) (t : Ticket) (ht : c.mbx.tickets.find? (·.id == id) = some t) :
    ∃ a n h x y z e q, c.endTicket id status = { c with
      mbx.tickets := c.mbx.tickets.filter (·.id != id), mbx.audit := a, mbx.auditNext := n, mbx.auditHash := h,
      ev.waiting := c.ev.waiting ++
        [{ line := 0x1B, kind := 1, inst := t.mailbox % 65536, detail := t.opcode % 65536,
           value := (id * 2 ^ 32 + status) % 2 ^ 64, time := c.t64, source := 0x3FF }],
      ev.counters := x, mt.src := y, mt.reported := z, seam.esnTx := e, seam.queue := q } := by
  unfold endTicket
  rw [ht]
  dsimp only
  generalize hm : c.mbx.tickets.filter (·.id != id) = ts
  obtain ⟨a0, n0, h0, ha⟩ := audit_only { c with mbx.tickets := ts } 3 t.opcode status
    t.role t.slot t.mailbox t.session (List.replicate 8 0)
  simp only [ha]
  obtain ⟨x, he⟩ := emit_eq { c with mbx.tickets := ts, mbx.audit := a0, mbx.auditNext := n0, mbx.auditHash := h0 }
    0x1B 1 t.mailbox t.opcode (id * 2 ^ 32 + status)
  simp only at he
  rw [he]
  have hal : ∀ d : Chip, ∃ a b, (if t.mailbox = mtView then d.alert 5 else d) = { d with mt.src := a, mt.reported := b } := by
    intro d; split
    · exact alert_only d 5
    · exact ⟨_, _, rfl⟩
  have hor : ∀ (d : Chip) (p : List Byte), ∃ e q, (if 0x8000 ≤ t.mailbox then d.originate 0 0x20 (t.mailbox - 0x8000) 0 p
      else d) = { d with seam.esnTx := e, seam.queue := q } := by
    intro d p; split
    · exact originate_only d 0 0x20 _ 0 p
    · exact ⟨_, _, rfl⟩
  generalize hd : ({ c with
      mbx.tickets := ts, mbx.audit := a0, mbx.auditNext := n0, mbx.auditHash := h0,
      ev.waiting := c.ev.waiting ++
        [{ line := 0x1B, kind := 1, inst := t.mailbox % 65536, detail := t.opcode % 65536,
           value := (id * 2 ^ 32 + status) % 2 ^ 64, time := c.t64, source := 0x3FF }],
      ev.counters := x } : Chip) = d
  have hd' : ∀ (e : Chip), e = d → e = d := fun _ h => h
  obtain ⟨y, z, h1⟩ := hal d
  obtain ⟨e, q, h2⟩ := hor { d with mt.src := y, mt.reported := z } _
  refine ⟨a0, n0, h0, x, y, z, e, q, ?_⟩
  subst hd
  refine Eq.trans ?_ h2
  rw [← h1]
  rfl

/-- A doorbell that is taken while the device is not in standby: its mailbox is QUEUED with its instant and deadline. -/
theorem ringBell_only (c : Chip) (mb : Nat) (hs : c.power.standby = false) :
    ∃ t x, c.ringBell mb = { c with
      mbx.boxes := c.mbx.boxes.put mb (c.queued (c.box mb)), ev.trace := c.ev.trace.noted t,
      ev.counters := x } := by
  unfold ringBell; dsimp only
  generalize c.queued (c.box mb) = b
  obtain ⟨t, x, h⟩ := traceOpen_only
    { c with mbx.boxes := c.mbx.boxes.put mb b } 1 0
  have h' : Chip.traceOpen (c.setBox mb b) 1 0 = _ := h
  rw [h', if_neg (by simp [hs])]
  exact ⟨t, x, rfl⟩

end Chip
end Sys2Proof.Machine
end

