-- ==== Sys2Proof/Laws/State.lean ====
section
/-! SUPPORT. Laws of the state: what each accessor reads after each update of an instance, and what the ways in which a
command acts on the state leave. -/

namespace Sys2Proof.Machine

namespace State

@[simp] theorem onChip_chip (s : State) (f : Chip → Chip) : (s.onChip f).chip = f s.chip := rfl
@[simp] theorem onChip_mem (s : State) (f : Chip → Chip) : (s.onChip f).mem = s.mem := rfl
@[simp] theorem onChip_pending (s : State) (f : Chip → Chip) : (s.onChip f).pending = s.pending := rfl
@[simp] theorem onDev_chip (s : State) (f : Dev → Dev) : (s.onDev f).chip = (f { chip := s.chip, mem := s.mem }).chip := rfl
@[simp] theorem onDev_mem (s : State) (f : Dev → Dev) : (s.onDev f).mem = (f { chip := s.chip, mem := s.mem }).mem := rfl
@[simp] theorem onDev_pending (s : State) (f : Dev → Dev) : (s.onDev f).pending = s.pending := rfl

theorem run_live {s : State} (f : Chip → Chip) (h : s.chip.power.held = false) : s.run f = .next (s.onChip f) := by
  simp [run, h]

theorem run_held {s : State} (f : Chip → Chip) (h : s.chip.power.held = true) : s.run f = .next s := by
  simp [run, h]

theorem runDev_live {s : State} (f : Dev → Dev) (h : s.chip.power.held = false) : s.runDev f = .next (s.onDev f) := by
  simp [runDev, h]

theorem runDev_held {s : State} (f : Dev → Dev) (h : s.chip.power.held = true) : s.runDev f = .next s := by
  simp [runDev, h]

theorem onChipIf_ok {s : State} {ok : Bool} (f : Chip → Chip) (h : ok = true) : s.onChipIf ok f = s.run f := by
  simp [onChipIf, h]

theorem onDevIf_ok {s : State} {ok : Bool} (f : Dev → Dev) (h : ok = true) : s.onDevIf ok f = s.runDev f := by
  simp [onDevIf, h]

end State

namespace Dev

@[simp] theorem onChip_chip (f : Chip → Chip) (d : Dev) : (d.onChip f).chip = f d.chip := rfl
@[simp] theorem onChip_mem (f : Chip → Chip) (d : Dev) : (d.onChip f).mem = d.mem := rfl

end Dev

namespace Chip

/-! `setLane` -/

@[simp] theorem lane_setLane (c : Chip) (i : Nat) (v : LaneSt) : (c.setLane i v).lane i = v := Tab.getD_put_self ..
theorem lane_setLane_other (c : Chip) {i j : Nat} (v : LaneSt) (h : j ≠ i) : (c.setLane i v).lane j = c.lane j :=
  Tab.getD_put_other _ _ _ h
@[simp] theorem setLane_time (c : Chip) (i : Nat) (v : LaneSt) : (c.setLane i v).time = c.time := rfl
@[simp] theorem setLane_ev (c : Chip) (i : Nat) (v : LaneSt) : (c.setLane i v).ev = c.ev := rfl
@[simp] theorem setLane_mbx (c : Chip) (i : Nat) (v : LaneSt) : (c.setLane i v).mbx = c.mbx := rfl
@[simp] theorem setLane_cam (c : Chip) (i : Nat) (v : LaneSt) : (c.setLane i v).cam = c.cam := rfl
@[simp] theorem setLane_store (c : Chip) (i : Nat) (v : LaneSt) : (c.setLane i v).store = c.store := rfl
@[simp] theorem setLane_hosts (c : Chip) (i : Nat) (v : LaneSt) : (c.setLane i v).hosts = c.hosts := rfl
@[simp] theorem setLane_pos (c : Chip) (i : Nat) (v : LaneSt) : (c.setLane i v).pos = c.pos := rfl
@[simp] theorem setLane_trig (c : Chip) (i : Nat) (v : LaneSt) : (c.setLane i v).trig = c.trig := rfl
@[simp] theorem setLane_seam (c : Chip) (i : Nat) (v : LaneSt) : (c.setLane i v).seam = c.seam := rfl
@[simp] theorem setLane_panel (c : Chip) (i : Nat) (v : LaneSt) : (c.setLane i v).panel = c.panel := rfl
@[simp] theorem setLane_safety (c : Chip) (i : Nat) (v : LaneSt) : (c.setLane i v).safety = c.safety := rfl
@[simp] theorem setLane_mgmt (c : Chip) (i : Nat) (v : LaneSt) : (c.setLane i v).mgmt = c.mgmt := rfl
@[simp] theorem setLane_power (c : Chip) (i : Nat) (v : LaneSt) : (c.setLane i v).power = c.power := rfl
@[simp] theorem setLane_mt (c : Chip) (i : Nat) (v : LaneSt) : (c.setLane i v).mt = c.mt := rfl
@[simp] theorem setLane_board (c : Chip) (i : Nat) (v : LaneSt) : (c.setLane i v).board = c.board := rfl
@[simp] theorem setLane_rd (c : Chip) (i : Nat) (v : LaneSt) : (c.setLane i v).rd = c.rd := rfl
@[simp] theorem setLane_draw (c : Chip) (i : Nat) (v : LaneSt) : (c.setLane i v).draw = c.draw := rfl
@[simp] theorem setLane_lanes_quads (c : Chip) (i : Nat) (v : LaneSt) : (c.setLane i v).lanes.quads = c.lanes.quads := rfl
@[simp] theorem setLane_lanes_refOk (c : Chip) (i : Nat) (v : LaneSt) : (c.setLane i v).lanes.refOk = c.lanes.refOk := rfl
@[simp] theorem setLane_lanes_latches (c : Chip) (i : Nat) (v : LaneSt) : (c.setLane i v).lanes.latches = c.lanes.latches := rfl

/-! `setQuad` -/

@[simp] theorem quad_setQuad (c : Chip) (i : Nat) (v : QuadSt) : (c.setQuad i v).quad i = v := Tab.getD_put_self ..
theorem quad_setQuad_other (c : Chip) {i j : Nat} (v : QuadSt) (h : j ≠ i) : (c.setQuad i v).quad j = c.quad j :=
  Tab.getD_put_other _ _ _ h
@[simp] theorem setQuad_time (c : Chip) (i : Nat) (v : QuadSt) : (c.setQuad i v).time = c.time := rfl
@[simp] theorem setQuad_ev (c : Chip) (i : Nat) (v : QuadSt) : (c.setQuad i v).ev = c.ev := rfl
@[simp] theorem setQuad_mbx (c : Chip) (i : Nat) (v : QuadSt) : (c.setQuad i v).mbx = c.mbx := rfl
@[simp] theorem setQuad_cam (c : Chip) (i : Nat) (v : QuadSt) : (c.setQuad i v).cam = c.cam := rfl
@[simp] theorem setQuad_store (c : Chip) (i : Nat) (v : QuadSt) : (c.setQuad i v).store = c.store := rfl
@[simp] theorem setQuad_hosts (c : Chip) (i : Nat) (v : QuadSt) : (c.setQuad i v).hosts = c.hosts := rfl
@[simp] theorem setQuad_pos (c : Chip) (i : Nat) (v : QuadSt) : (c.setQuad i v).pos = c.pos := rfl
@[simp] theorem setQuad_trig (c : Chip) (i : Nat) (v : QuadSt) : (c.setQuad i v).trig = c.trig := rfl
@[simp] theorem setQuad_seam (c : Chip) (i : Nat) (v : QuadSt) : (c.setQuad i v).seam = c.seam := rfl
@[simp] theorem setQuad_panel (c : Chip) (i : Nat) (v : QuadSt) : (c.setQuad i v).panel = c.panel := rfl
@[simp] theorem setQuad_safety (c : Chip) (i : Nat) (v : QuadSt) : (c.setQuad i v).safety = c.safety := rfl
@[simp] theorem setQuad_mgmt (c : Chip) (i : Nat) (v : QuadSt) : (c.setQuad i v).mgmt = c.mgmt := rfl
@[simp] theorem setQuad_power (c : Chip) (i : Nat) (v : QuadSt) : (c.setQuad i v).power = c.power := rfl
@[simp] theorem setQuad_mt (c : Chip) (i : Nat) (v : QuadSt) : (c.setQuad i v).mt = c.mt := rfl
@[simp] theorem setQuad_board (c : Chip) (i : Nat) (v : QuadSt) : (c.setQuad i v).board = c.board := rfl
@[simp] theorem setQuad_rd (c : Chip) (i : Nat) (v : QuadSt) : (c.setQuad i v).rd = c.rd := rfl
@[simp] theorem setQuad_draw (c : Chip) (i : Nat) (v : QuadSt) : (c.setQuad i v).draw = c.draw := rfl
@[simp] theorem setQuad_lanes_lanes (c : Chip) (i : Nat) (v : QuadSt) : (c.setQuad i v).lanes.lanes = c.lanes.lanes := rfl
@[simp] theorem setQuad_lanes_refOk (c : Chip) (i : Nat) (v : QuadSt) : (c.setQuad i v).lanes.refOk = c.lanes.refOk := rfl
@[simp] theorem setQuad_lanes_latches (c : Chip) (i : Nat) (v : QuadSt) : (c.setQuad i v).lanes.latches = c.lanes.latches := rfl

/-! `setPort` -/

@[simp] theorem port_setPort (c : Chip) (p : Nat) (v : PortSt) : (c.setPort p v).port p = v := Tab.getD_put_self ..
theorem port_setPort_other (c : Chip) {p j : Nat} (v : PortSt) (h : j ≠ p) : (c.setPort p v).port j = c.port j :=
  Tab.getD_put_other _ _ _ h
@[simp] theorem setPort_time (c : Chip) (p : Nat) (v : PortSt) : (c.setPort p v).time = c.time := rfl
@[simp] theorem setPort_ev (c : Chip) (p : Nat) (v : PortSt) : (c.setPort p v).ev = c.ev := rfl
@[simp] theorem setPort_mbx (c : Chip) (p : Nat) (v : PortSt) : (c.setPort p v).mbx = c.mbx := rfl
@[simp] theorem setPort_lanes (c : Chip) (p : Nat) (v : PortSt) : (c.setPort p v).lanes = c.lanes := rfl
@[simp] theorem setPort_store (c : Chip) (p : Nat) (v : PortSt) : (c.setPort p v).store = c.store := rfl
@[simp] theorem setPort_hosts (c : Chip) (p : Nat) (v : PortSt) : (c.setPort p v).hosts = c.hosts := rfl
@[simp] theorem setPort_pos (c : Chip) (p : Nat) (v : PortSt) : (c.setPort p v).pos = c.pos := rfl
@[simp] theorem setPort_trig (c : Chip) (p : Nat) (v : PortSt) : (c.setPort p v).trig = c.trig := rfl
@[simp] theorem setPort_seam (c : Chip) (p : Nat) (v : PortSt) : (c.setPort p v).seam = c.seam := rfl
@[simp] theorem setPort_panel (c : Chip) (p : Nat) (v : PortSt) : (c.setPort p v).panel = c.panel := rfl
@[simp] theorem setPort_safety (c : Chip) (p : Nat) (v : PortSt) : (c.setPort p v).safety = c.safety := rfl
@[simp] theorem setPort_mgmt (c : Chip) (p : Nat) (v : PortSt) : (c.setPort p v).mgmt = c.mgmt := rfl
@[simp] theorem setPort_power (c : Chip) (p : Nat) (v : PortSt) : (c.setPort p v).power = c.power := rfl
@[simp] theorem setPort_mt (c : Chip) (p : Nat) (v : PortSt) : (c.setPort p v).mt = c.mt := rfl
@[simp] theorem setPort_board (c : Chip) (p : Nat) (v : PortSt) : (c.setPort p v).board = c.board := rfl
@[simp] theorem setPort_rd (c : Chip) (p : Nat) (v : PortSt) : (c.setPort p v).rd = c.rd := rfl
@[simp] theorem setPort_draw (c : Chip) (p : Nat) (v : PortSt) : (c.setPort p v).draw = c.draw := rfl
@[simp] theorem setPort_cam_latches (c : Chip) (p : Nat) (v : PortSt) : (c.setPort p v).cam.latches = c.cam.latches := rfl
@[simp] theorem setPort_cam_out (c : Chip) (p : Nat) (v : PortSt) : (c.setPort p v).cam.out = c.cam.out := rfl

/-! `setPipe` -/

@[simp] theorem pipe_setPipe (c : Chip) (i : Nat) (v : PipeSt) : (c.setPipe i v).pipe i = v := Tab.getD_put_self ..
theorem pipe_setPipe_other (c : Chip) {i j : Nat} (v : PipeSt) (h : j ≠ i) : (c.setPipe i v).pipe j = c.pipe j :=
  Tab.getD_put_other _ _ _ h
@[simp] theorem setPipe_time (c : Chip) (i : Nat) (v : PipeSt) : (c.setPipe i v).time = c.time := rfl
@[simp] theorem setPipe_ev (c : Chip) (i : Nat) (v : PipeSt) : (c.setPipe i v).ev = c.ev := rfl
@[simp] theorem setPipe_mbx (c : Chip) (i : Nat) (v : PipeSt) : (c.setPipe i v).mbx = c.mbx := rfl
@[simp] theorem setPipe_lanes (c : Chip) (i : Nat) (v : PipeSt) : (c.setPipe i v).lanes = c.lanes := rfl
@[simp] theorem setPipe_cam (c : Chip) (i : Nat) (v : PipeSt) : (c.setPipe i v).cam = c.cam := rfl
@[simp] theorem setPipe_hosts (c : Chip) (i : Nat) (v : PipeSt) : (c.setPipe i v).hosts = c.hosts := rfl
@[simp] theorem setPipe_pos (c : Chip) (i : Nat) (v : PipeSt) : (c.setPipe i v).pos = c.pos := rfl
@[simp] theorem setPipe_trig (c : Chip) (i : Nat) (v : PipeSt) : (c.setPipe i v).trig = c.trig := rfl
@[simp] theorem setPipe_seam (c : Chip) (i : Nat) (v : PipeSt) : (c.setPipe i v).seam = c.seam := rfl
@[simp] theorem setPipe_panel (c : Chip) (i : Nat) (v : PipeSt) : (c.setPipe i v).panel = c.panel := rfl
@[simp] theorem setPipe_safety (c : Chip) (i : Nat) (v : PipeSt) : (c.setPipe i v).safety = c.safety := rfl
@[simp] theorem setPipe_mgmt (c : Chip) (i : Nat) (v : PipeSt) : (c.setPipe i v).mgmt = c.mgmt := rfl
@[simp] theorem setPipe_power (c : Chip) (i : Nat) (v : PipeSt) : (c.setPipe i v).power = c.power := rfl
@[simp] theorem setPipe_mt (c : Chip) (i : Nat) (v : PipeSt) : (c.setPipe i v).mt = c.mt := rfl
@[simp] theorem setPipe_board (c : Chip) (i : Nat) (v : PipeSt) : (c.setPipe i v).board = c.board := rfl
@[simp] theorem setPipe_rd (c : Chip) (i : Nat) (v : PipeSt) : (c.setPipe i v).rd = c.rd := rfl
@[simp] theorem setPipe_draw (c : Chip) (i : Nat) (v : PipeSt) : (c.setPipe i v).draw = c.draw := rfl
@[simp] theorem setPipe_store_latches (c : Chip) (i : Nat) (v : PipeSt) : (c.setPipe i v).store.latches = c.store.latches := rfl
@[simp] theorem setPipe_store_tables (c : Chip) (i : Nat) (v : PipeSt) : (c.setPipe i v).store.tables = c.store.tables := rfl
@[simp] theorem setPipe_store_nextTable (c : Chip) (i : Nat) (v : PipeSt) : (c.setPipe i v).store.nextTable = c.store.nextTable := rfl
@[simp] theorem setPipe_store_streams (c : Chip) (i : Nat) (v : PipeSt) : (c.setPipe i v).store.streams = c.store.streams := rfl
@[simp] theorem setPipe_store_mQuota (c : Chip) (i : Nat) (v : PipeSt) : (c.setPipe i v).store.mQuota = c.store.mQuota := rfl
@[simp] theorem setPipe_store_banks (c : Chip) (i : Nat) (v : PipeSt) : (c.setPipe i v).store.banks = c.store.banks := rfl
@[simp] theorem setPipe_store_bankErr (c : Chip) (i : Nat) (v : PipeSt) : (c.setPipe i v).store.bankErr = c.store.bankErr := rfl
@[simp] theorem setPipe_store_pcs (c : Chip) (i : Nat) (v : PipeSt) : (c.setPipe i v).store.pcs = c.store.pcs := rfl
@[simp] theorem setPipe_store_fsStacks (c : Chip) (i : Nat) (v : PipeSt) : (c.setPipe i v).store.fsStacks = c.store.fsStacks := rfl
@[simp] theorem setPipe_store_pcErr (c : Chip) (i : Nat) (v : PipeSt) : (c.setPipe i v).store.pcErr = c.store.pcErr := rfl
@[simp] theorem setPipe_store_guard (c : Chip) (i : Nat) (v : PipeSt) : (c.setPipe i v).store.guard = c.store.guard := rfl
@[simp] theorem setPipe_store_leases (c : Chip) (i : Nat) (v : PipeSt) : (c.setPipe i v).store.leases = c.store.leases := rfl

/-! `setStream` -/

@[simp] theorem stream_setStream (c : Chip) (i : Nat) (v : StreamSt) : (c.setStream i v).stream? i = some v := Tab.find?_put_self ..
theorem stream_setStream_other (c : Chip) {i j : Nat} (v : StreamSt) (h : j ≠ i) : (c.setStream i v).stream? j = c.stream? j :=
  Tab.find?_put_other _ _ h
@[simp] theorem setStream_time (c : Chip) (i : Nat) (v : StreamSt) : (c.setStream i v).time = c.time := rfl
@[simp] theorem setStream_ev (c : Chip) (i : Nat) (v : StreamSt) : (c.setStream i v).ev = c.ev := rfl
@[simp] theorem setStream_mbx (c : Chip) (i : Nat) (v : StreamSt) : (c.setStream i v).mbx = c.mbx := rfl
@[simp] theorem setStream_lanes (c : Chip) (i : Nat) (v : StreamSt) : (c.setStream i v).lanes = c.lanes := rfl
@[simp] theorem setStream_cam (c : Chip) (i : Nat) (v : StreamSt) : (c.setStream i v).cam = c.cam := rfl
@[simp] theorem setStream_hosts (c : Chip) (i : Nat) (v : StreamSt) : (c.setStream i v).hosts = c.hosts := rfl
@[simp] theorem setStream_pos (c : Chip) (i : Nat) (v : StreamSt) : (c.setStream i v).pos = c.pos := rfl
@[simp] theorem setStream_trig (c : Chip) (i : Nat) (v : StreamSt) : (c.setStream i v).trig = c.trig := rfl
@[simp] theorem setStream_seam (c : Chip) (i : Nat) (v : StreamSt) : (c.setStream i v).seam = c.seam := rfl
@[simp] theorem setStream_panel (c : Chip) (i : Nat) (v : StreamSt) : (c.setStream i v).panel = c.panel := rfl
@[simp] theorem setStream_safety (c : Chip) (i : Nat) (v : StreamSt) : (c.setStream i v).safety = c.safety := rfl
@[simp] theorem setStream_mgmt (c : Chip) (i : Nat) (v : StreamSt) : (c.setStream i v).mgmt = c.mgmt := rfl
@[simp] theorem setStream_power (c : Chip) (i : Nat) (v : StreamSt) : (c.setStream i v).power = c.power := rfl
@[simp] theorem setStream_mt (c : Chip) (i : Nat) (v : StreamSt) : (c.setStream i v).mt = c.mt := rfl
@[simp] theorem setStream_board (c : Chip) (i : Nat) (v : StreamSt) : (c.setStream i v).board = c.board := rfl
@[simp] theorem setStream_rd (c : Chip) (i : Nat) (v : StreamSt) : (c.setStream i v).rd = c.rd := rfl
@[simp] theorem setStream_draw (c : Chip) (i : Nat) (v : StreamSt) : (c.setStream i v).draw = c.draw := rfl
@[simp] theorem setStream_store_pipes (c : Chip) (i : Nat) (v : StreamSt) : (c.setStream i v).store.pipes = c.store.pipes := rfl
@[simp] theorem setStream_store_latches (c : Chip) (i : Nat) (v : StreamSt) : (c.setStream i v).store.latches = c.store.latches := rfl
@[simp] theorem setStream_store_tables (c : Chip) (i : Nat) (v : StreamSt) : (c.setStream i v).store.tables = c.store.tables := rfl
@[simp] theorem setStream_store_nextTable (c : Chip) (i : Nat) (v : StreamSt) : (c.setStream i v).store.nextTable = c.store.nextTable := rfl
@[simp] theorem setStream_store_mQuota (c : Chip) (i : Nat) (v : StreamSt) : (c.setStream i v).store.mQuota = c.store.mQuota := rfl
@[simp] theorem setStream_store_banks (c : Chip) (i : Nat) (v : StreamSt) : (c.setStream i v).store.banks = c.store.banks := rfl
@[simp] theorem setStream_store_bankErr (c : Chip) (i : Nat) (v : StreamSt) : (c.setStream i v).store.bankErr = c.store.bankErr := rfl
@[simp] theorem setStream_store_pcs (c : Chip) (i : Nat) (v : StreamSt) : (c.setStream i v).store.pcs = c.store.pcs := rfl
@[simp] theorem setStream_store_fsStacks (c : Chip) (i : Nat) (v : StreamSt) : (c.setStream i v).store.fsStacks = c.store.fsStacks := rfl
@[simp] theorem setStream_store_pcErr (c : Chip) (i : Nat) (v : StreamSt) : (c.setStream i v).store.pcErr = c.store.pcErr := rfl
@[simp] theorem setStream_store_guard (c : Chip) (i : Nat) (v : StreamSt) : (c.setStream i v).store.guard = c.store.guard := rfl
@[simp] theorem setStream_store_leases (c : Chip) (i : Nat) (v : StreamSt) : (c.setStream i v).store.leases = c.store.leases := rfl

/-! `setLease` -/

@[simp] theorem lease_setLease (c : Chip) (fn i : Nat) (v : LeaseSt) : (c.setLease fn i v).lease fn i = v := Tab.getD_put_self ..
@[simp] theorem setLease_time (c : Chip) (fn i : Nat) (v : LeaseSt) : (c.setLease fn i v).time = c.time := rfl
@[simp] theorem setLease_ev (c : Chip) (fn i : Nat) (v : LeaseSt) : (c.setLease fn i v).ev = c.ev := rfl
@[simp] theorem setLease_mbx (c : Chip) (fn i : Nat) (v : LeaseSt) : (c.setLease fn i v).mbx = c.mbx := rfl
@[simp] theorem setLease_lanes (c : Chip) (fn i : Nat) (v : LeaseSt) : (c.setLease fn i v).lanes = c.lanes := rfl
@[simp] theorem setLease_cam (c : Chip) (fn i : Nat) (v : LeaseSt) : (c.setLease fn i v).cam = c.cam := rfl
@[simp] theorem setLease_hosts (c : Chip) (fn i : Nat) (v : LeaseSt) : (c.setLease fn i v).hosts = c.hosts := rfl
@[simp] theorem setLease_pos (c : Chip) (fn i : Nat) (v : LeaseSt) : (c.setLease fn i v).pos = c.pos := rfl
@[simp] theorem setLease_trig (c : Chip) (fn i : Nat) (v : LeaseSt) : (c.setLease fn i v).trig = c.trig := rfl
@[simp] theorem setLease_seam (c : Chip) (fn i : Nat) (v : LeaseSt) : (c.setLease fn i v).seam = c.seam := rfl
@[simp] theorem setLease_panel (c : Chip) (fn i : Nat) (v : LeaseSt) : (c.setLease fn i v).panel = c.panel := rfl
@[simp] theorem setLease_safety (c : Chip) (fn i : Nat) (v : LeaseSt) : (c.setLease fn i v).safety = c.safety := rfl
@[simp] theorem setLease_mgmt (c : Chip) (fn i : Nat) (v : LeaseSt) : (c.setLease fn i v).mgmt = c.mgmt := rfl
@[simp] theorem setLease_power (c : Chip) (fn i : Nat) (v : LeaseSt) : (c.setLease fn i v).power = c.power := rfl
@[simp] theorem setLease_mt (c : Chip) (fn i : Nat) (v : LeaseSt) : (c.setLease fn i v).mt = c.mt := rfl
@[simp] theorem setLease_board (c : Chip) (fn i : Nat) (v : LeaseSt) : (c.setLease fn i v).board = c.board := rfl
@[simp] theorem setLease_rd (c : Chip) (fn i : Nat) (v : LeaseSt) : (c.setLease fn i v).rd = c.rd := rfl
@[simp] theorem setLease_draw (c : Chip) (fn i : Nat) (v : LeaseSt) : (c.setLease fn i v).draw = c.draw := rfl
@[simp] theorem setLease_store_pipes (c : Chip) (fn i : Nat) (v : LeaseSt) : (c.setLease fn i v).store.pipes = c.store.pipes := rfl
@[simp] theorem setLease_store_latches (c : Chip) (fn i : Nat) (v : LeaseSt) : (c.setLease fn i v).store.latches = c.store.latches := rfl
@[simp] theorem setLease_store_tables (c : Chip) (fn i : Nat) (v : LeaseSt) : (c.setLease fn i v).store.tables = c.store.tables := rfl
@[simp] theorem setLease_store_nextTable (c : Chip) (fn i : Nat) (v : LeaseSt) : (c.setLease fn i v).store.nextTable = c.store.nextTable := rfl
@[simp] theorem setLease_store_streams (c : Chip) (fn i : Nat) (v : LeaseSt) : (c.setLease fn i v).store.streams = c.store.streams := rfl
@[simp] theorem setLease_store_mQuota (c : Chip) (fn i : Nat) (v : LeaseSt) : (c.setLease fn i v).store.mQuota = c.store.mQuota := rfl
@[simp] theorem setLease_store_banks (c : Chip) (fn i : Nat) (v : LeaseSt) : (c.setLease fn i v).store.banks = c.store.banks := rfl
@[simp] theorem setLease_store_bankErr (c : Chip) (fn i : Nat) (v : LeaseSt) : (c.setLease fn i v).store.bankErr = c.store.bankErr := rfl
@[simp] theorem setLease_store_pcs (c : Chip) (fn i : Nat) (v : LeaseSt) : (c.setLease fn i v).store.pcs = c.store.pcs := rfl
@[simp] theorem setLease_store_fsStacks (c : Chip) (fn i : Nat) (v : LeaseSt) : (c.setLease fn i v).store.fsStacks = c.store.fsStacks := rfl
@[simp] theorem setLease_store_pcErr (c : Chip) (fn i : Nat) (v : LeaseSt) : (c.setLease fn i v).store.pcErr = c.store.pcErr := rfl
@[simp] theorem setLease_store_guard (c : Chip) (fn i : Nat) (v : LeaseSt) : (c.setLease fn i v).store.guard = c.store.guard := rfl

/-! `setHost` -/

@[simp] theorem host_setHost (c : Chip) (p : Nat) (v : HostSt) : (c.setHost p v).host p = v := Tab.getD_put_self ..
theorem host_setHost_other (c : Chip) {p j : Nat} (v : HostSt) (h : j ≠ p) : (c.setHost p v).host j = c.host j :=
  Tab.getD_put_other _ _ _ h
@[simp] theorem setHost_time (c : Chip) (p : Nat) (v : HostSt) : (c.setHost p v).time = c.time := rfl
@[simp] theorem setHost_ev (c : Chip) (p : Nat) (v : HostSt) : (c.setHost p v).ev = c.ev := rfl
@[simp] theorem setHost_mbx (c : Chip) (p : Nat) (v : HostSt) : (c.setHost p v).mbx = c.mbx := rfl
@[simp] theorem setHost_lanes (c : Chip) (p : Nat) (v : HostSt) : (c.setHost p v).lanes = c.lanes := rfl
@[simp] theorem setHost_cam (c : Chip) (p : Nat) (v : HostSt) : (c.setHost p v).cam = c.cam := rfl
@[simp] theorem setHost_store (c : Chip) (p : Nat) (v : HostSt) : (c.setHost p v).store = c.store := rfl
@[simp] theorem setHost_pos (c : Chip) (p : Nat) (v : HostSt) : (c.setHost p v).pos = c.pos := rfl
@[simp] theorem setHost_trig (c : Chip) (p : Nat) (v : HostSt) : (c.setHost p v).trig = c.trig := rfl
@[simp] theorem setHost_seam (c : Chip) (p : Nat) (v : HostSt) : (c.setHost p v).seam = c.seam := rfl
@[simp] theorem setHost_panel (c : Chip) (p : Nat) (v : HostSt) : (c.setHost p v).panel = c.panel := rfl
@[simp] theorem setHost_safety (c : Chip) (p : Nat) (v : HostSt) : (c.setHost p v).safety = c.safety := rfl
@[simp] theorem setHost_mgmt (c : Chip) (p : Nat) (v : HostSt) : (c.setHost p v).mgmt = c.mgmt := rfl
@[simp] theorem setHost_power (c : Chip) (p : Nat) (v : HostSt) : (c.setHost p v).power = c.power := rfl
@[simp] theorem setHost_mt (c : Chip) (p : Nat) (v : HostSt) : (c.setHost p v).mt = c.mt := rfl
@[simp] theorem setHost_board (c : Chip) (p : Nat) (v : HostSt) : (c.setHost p v).board = c.board := rfl
@[simp] theorem setHost_rd (c : Chip) (p : Nat) (v : HostSt) : (c.setHost p v).rd = c.rd := rfl
@[simp] theorem setHost_draw (c : Chip) (p : Nat) (v : HostSt) : (c.setHost p v).draw = c.draw := rfl
@[simp] theorem setHost_hosts_fns (c : Chip) (p : Nat) (v : HostSt) : (c.setHost p v).hosts.fns = c.hosts.fns := rfl
@[simp] theorem setHost_hosts_wch (c : Chip) (p : Nat) (v : HostSt) : (c.setHost p v).hosts.wch = c.hosts.wch := rfl
@[simp] theorem setHost_hosts_rch (c : Chip) (p : Nat) (v : HostSt) : (c.setHost p v).hosts.rch = c.hosts.rch := rfl
@[simp] theorem setHost_hosts_chLatches (c : Chip) (p : Nat) (v : HostSt) : (c.setHost p v).hosts.chLatches = c.hosts.chLatches := rfl
@[simp] theorem setHost_hosts_hpLatches (c : Chip) (p : Nat) (v : HostSt) : (c.setHost p v).hosts.hpLatches = c.hosts.hpLatches := rfl
@[simp] theorem setHost_hosts_nextBuf (c : Chip) (p : Nat) (v : HostSt) : (c.setHost p v).hosts.nextBuf = c.hosts.nextBuf := rfl
@[simp] theorem setHost_hosts_sent (c : Chip) (p : Nat) (v : HostSt) : (c.setHost p v).hosts.sent = c.hosts.sent := rfl

/-! `setFn` -/

@[simp] theorem fn_setFn (c : Chip) (f : Nat) (v : FnSt) : (c.setFn f v).fn f = v := Tab.getD_put_self ..
theorem fn_setFn_other (c : Chip) {f j : Nat} (v : FnSt) (h : j ≠ f) : (c.setFn f v).fn j = c.fn j :=
  Tab.getD_put_other _ _ _ h
@[simp] theorem setFn_time (c : Chip) (f : Nat) (v : FnSt) : (c.setFn f v).time = c.time := rfl
@[simp] theorem setFn_ev (c : Chip) (f : Nat) (v : FnSt) : (c.setFn f v).ev = c.ev := rfl
@[simp] theorem setFn_mbx (c : Chip) (f : Nat) (v : FnSt) : (c.setFn f v).mbx = c.mbx := rfl
@[simp] theorem setFn_lanes (c : Chip) (f : Nat) (v : FnSt) : (c.setFn f v).lanes = c.lanes := rfl
@[simp] theorem setFn_cam (c : Chip) (f : Nat) (v : FnSt) : (c.setFn f v).cam = c.cam := rfl
@[simp] theorem setFn_store (c : Chip) (f : Nat) (v : FnSt) : (c.setFn f v).store = c.store := rfl
@[simp] theorem setFn_pos (c : Chip) (f : Nat) (v : FnSt) : (c.setFn f v).pos = c.pos := rfl
@[simp] theorem setFn_trig (c : Chip) (f : Nat) (v : FnSt) : (c.setFn f v).trig = c.trig := rfl
@[simp] theorem setFn_seam (c : Chip) (f : Nat) (v : FnSt) : (c.setFn f v).seam = c.seam := rfl
@[simp] theorem setFn_panel (c : Chip) (f : Nat) (v : FnSt) : (c.setFn f v).panel = c.panel := rfl
@[simp] theorem setFn_safety (c : Chip) (f : Nat) (v : FnSt) : (c.setFn f v).safety = c.safety := rfl
@[simp] theorem setFn_mgmt (c : Chip) (f : Nat) (v : FnSt) : (c.setFn f v).mgmt = c.mgmt := rfl
@[simp] theorem setFn_power (c : Chip) (f : Nat) (v : FnSt) : (c.setFn f v).power = c.power := rfl
@[simp] theorem setFn_mt (c : Chip) (f : Nat) (v : FnSt) : (c.setFn f v).mt = c.mt := rfl
@[simp] theorem setFn_board (c : Chip) (f : Nat) (v : FnSt) : (c.setFn f v).board = c.board := rfl
@[simp] theorem setFn_rd (c : Chip) (f : Nat) (v : FnSt) : (c.setFn f v).rd = c.rd := rfl
@[simp] theorem setFn_draw (c : Chip) (f : Nat) (v : FnSt) : (c.setFn f v).draw = c.draw := rfl
@[simp] theorem setFn_hosts_ports (c : Chip) (f : Nat) (v : FnSt) : (c.setFn f v).hosts.ports = c.hosts.ports := rfl
@[simp] theorem setFn_hosts_wch (c : Chip) (f : Nat) (v : FnSt) : (c.setFn f v).hosts.wch = c.hosts.wch := rfl
@[simp] theorem setFn_hosts_rch (c : Chip) (f : Nat) (v : FnSt) : (c.setFn f v).hosts.rch = c.hosts.rch := rfl
@[simp] theorem setFn_hosts_chLatches (c : Chip) (f : Nat) (v : FnSt) : (c.setFn f v).hosts.chLatches = c.hosts.chLatches := rfl
@[simp] theorem setFn_hosts_hpLatches (c : Chip) (f : Nat) (v : FnSt) : (c.setFn f v).hosts.hpLatches = c.hosts.hpLatches := rfl
@[simp] theorem setFn_hosts_nextBuf (c : Chip) (f : Nat) (v : FnSt) : (c.setFn f v).hosts.nextBuf = c.hosts.nextBuf := rfl
@[simp] theorem setFn_hosts_sent (c : Chip) (f : Nat) (v : FnSt) : (c.setFn f v).hosts.sent = c.hosts.sent := rfl

/-! `setWch` -/

@[simp] theorem wch_setWch (c : Chip) (p i : Nat) (v : ChanSt) : (c.setWch p i v).wch p i = v := Tab.getD_put_self ..
@[simp] theorem setWch_time (c : Chip) (p i : Nat) (v : ChanSt) : (c.setWch p i v).time = c.time := rfl
@[simp] theorem setWch_ev (c : Chip) (p i : Nat) (v : ChanSt) : (c.setWch p i v).ev = c.ev := rfl
@[simp] theorem setWch_mbx (c : Chip) (p i : Nat) (v : ChanSt) : (c.setWch p i v).mbx = c.mbx := rfl
@[simp] theorem setWch_lanes (c : Chip) (p i : Nat) (v : ChanSt) : (c.setWch p i v).lanes = c.lanes := rfl
@[simp] theorem setWch_cam (c : Chip) (p i : Nat) (v : ChanSt) : (c.setWch p i v).cam = c.cam := rfl
@[simp] theorem setWch_store (c : Chip) (p i : Nat) (v : ChanSt) : (c.setWch p i v).store = c.store := rfl
@[simp] theorem setWch_pos (c : Chip) (p i : Nat) (v : ChanSt) : (c.setWch p i v).pos = c.pos := rfl
@[simp] theorem setWch_trig (c : Chip) (p i : Nat) (v : ChanSt) : (c.setWch p i v).trig = c.trig := rfl
@[simp] theorem setWch_seam (c : Chip) (p i : Nat) (v : ChanSt) : (c.setWch p i v).seam = c.seam := rfl
@[simp] theorem setWch_panel (c : Chip) (p i : Nat) (v : ChanSt) : (c.setWch p i v).panel = c.panel := rfl
@[simp] theorem setWch_safety (c : Chip) (p i : Nat) (v : ChanSt) : (c.setWch p i v).safety = c.safety := rfl
@[simp] theorem setWch_mgmt (c : Chip) (p i : Nat) (v : ChanSt) : (c.setWch p i v).mgmt = c.mgmt := rfl
@[simp] theorem setWch_power (c : Chip) (p i : Nat) (v : ChanSt) : (c.setWch p i v).power = c.power := rfl
@[simp] theorem setWch_mt (c : Chip) (p i : Nat) (v : ChanSt) : (c.setWch p i v).mt = c.mt := rfl
@[simp] theorem setWch_board (c : Chip) (p i : Nat) (v : ChanSt) : (c.setWch p i v).board = c.board := rfl
@[simp] theorem setWch_rd (c : Chip) (p i : Nat) (v : ChanSt) : (c.setWch p i v).rd = c.rd := rfl
@[simp] theorem setWch_draw (c : Chip) (p i : Nat) (v : ChanSt) : (c.setWch p i v).draw = c.draw := rfl
@[simp] theorem setWch_hosts_ports (c : Chip) (p i : Nat) (v : ChanSt) : (c.setWch p i v).hosts.ports = c.hosts.ports := rfl
@[simp] theorem setWch_hosts_fns (c : Chip) (p i : Nat) (v : ChanSt) : (c.setWch p i v).hosts.fns = c.hosts.fns := rfl
@[simp] theorem setWch_hosts_rch (c : Chip) (p i : Nat) (v : ChanSt) : (c.setWch p i v).hosts.rch = c.hosts.rch := rfl
@[simp] theorem setWch_hosts_chLatches (c : Chip) (p i : Nat) (v : ChanSt) : (c.setWch p i v).hosts.chLatches = c.hosts.chLatches := rfl
@[simp] theorem setWch_hosts_hpLatches (c : Chip) (p i : Nat) (v : ChanSt) : (c.setWch p i v).hosts.hpLatches = c.hosts.hpLatches := rfl
@[simp] theorem setWch_hosts_nextBuf (c : Chip) (p i : Nat) (v : ChanSt) : (c.setWch p i v).hosts.nextBuf = c.hosts.nextBuf := rfl
@[simp] theorem setWch_hosts_sent (c : Chip) (p i : Nat) (v : ChanSt) : (c.setWch p i v).hosts.sent = c.hosts.sent := rfl

/-! `setRch` -/

@[simp] theorem rch_setRch (c : Chip) (p i : Nat) (v : ChanSt) : (c.setRch p i v).rch p i = v := Tab.getD_put_self ..
@[simp] theorem setRch_time (c : Chip) (p i : Nat) (v : ChanSt) : (c.setRch p i v).time = c.time := rfl
@[simp] theorem setRch_ev (c : Chip) (p i : Nat) (v : ChanSt) : (c.setRch p i v).ev = c.ev := rfl
@[simp] theorem setRch_mbx (c : Chip) (p i : Nat) (v : ChanSt) : (c.setRch p i v).mbx = c.mbx := rfl
@[simp] theorem setRch_lanes (c : Chip) (p i : Nat) (v : ChanSt) : (c.setRch p i v).lanes = c.lanes := rfl
@[simp] theorem setRch_cam (c : Chip) (p i : Nat) (v : ChanSt) : (c.setRch p i v).cam = c.cam := rfl
@[simp] theorem setRch_store (c : Chip) (p i : Nat) (v : ChanSt) : (c.setRch p i v).store = c.store := rfl
@[simp] theorem setRch_pos (c : Chip) (p i : Nat) (v : ChanSt) : (c.setRch p i v).pos = c.pos := rfl
@[simp] theorem setRch_trig (c : Chip) (p i : Nat) (v : ChanSt) : (c.setRch p i v).trig = c.trig := rfl
@[simp] theorem setRch_seam (c : Chip) (p i : Nat) (v : ChanSt) : (c.setRch p i v).seam = c.seam := rfl
@[simp] theorem setRch_panel (c : Chip) (p i : Nat) (v : ChanSt) : (c.setRch p i v).panel = c.panel := rfl
@[simp] theorem setRch_safety (c : Chip) (p i : Nat) (v : ChanSt) : (c.setRch p i v).safety = c.safety := rfl
@[simp] theorem setRch_mgmt (c : Chip) (p i : Nat) (v : ChanSt) : (c.setRch p i v).mgmt = c.mgmt := rfl
@[simp] theorem setRch_power (c : Chip) (p i : Nat) (v : ChanSt) : (c.setRch p i v).power = c.power := rfl
@[simp] theorem setRch_mt (c : Chip) (p i : Nat) (v : ChanSt) : (c.setRch p i v).mt = c.mt := rfl
@[simp] theorem setRch_board (c : Chip) (p i : Nat) (v : ChanSt) : (c.setRch p i v).board = c.board := rfl
@[simp] theorem setRch_rd (c : Chip) (p i : Nat) (v : ChanSt) : (c.setRch p i v).rd = c.rd := rfl
@[simp] theorem setRch_draw (c : Chip) (p i : Nat) (v : ChanSt) : (c.setRch p i v).draw = c.draw := rfl
@[simp] theorem setRch_hosts_ports (c : Chip) (p i : Nat) (v : ChanSt) : (c.setRch p i v).hosts.ports = c.hosts.ports := rfl
@[simp] theorem setRch_hosts_fns (c : Chip) (p i : Nat) (v : ChanSt) : (c.setRch p i v).hosts.fns = c.hosts.fns := rfl
@[simp] theorem setRch_hosts_wch (c : Chip) (p i : Nat) (v : ChanSt) : (c.setRch p i v).hosts.wch = c.hosts.wch := rfl
@[simp] theorem setRch_hosts_chLatches (c : Chip) (p i : Nat) (v : ChanSt) : (c.setRch p i v).hosts.chLatches = c.hosts.chLatches := rfl
@[simp] theorem setRch_hosts_hpLatches (c : Chip) (p i : Nat) (v : ChanSt) : (c.setRch p i v).hosts.hpLatches = c.hosts.hpLatches := rfl
@[simp] theorem setRch_hosts_nextBuf (c : Chip) (p i : Nat) (v : ChanSt) : (c.setRch p i v).hosts.nextBuf = c.hosts.nextBuf := rfl
@[simp] theorem setRch_hosts_sent (c : Chip) (p i : Nat) (v : ChanSt) : (c.setRch p i v).hosts.sent = c.hosts.sent := rfl

/-! `setEnc` -/

@[simp] theorem enc_setEnc (c : Chip) (i : Nat) (v : EncChan) : (c.setEnc i v).enc i = v := Tab.getD_put_self ..
theorem enc_setEnc_other (c : Chip) {i j : Nat} (v : EncChan) (h : j ≠ i) : (c.setEnc i v).enc j = c.enc j :=
  Tab.getD_put_other _ _ _ h
@[simp] theorem setEnc_time (c : Chip) (i : Nat) (v : EncChan) : (c.setEnc i v).time = c.time := rfl
@[simp] theorem setEnc_ev (c : Chip) (i : Nat) (v : EncChan) : (c.setEnc i v).ev = c.ev := rfl
@[simp] theorem setEnc_mbx (c : Chip) (i : Nat) (v : EncChan) : (c.setEnc i v).mbx = c.mbx := rfl
@[simp] theorem setEnc_lanes (c : Chip) (i : Nat) (v : EncChan) : (c.setEnc i v).lanes = c.lanes := rfl
@[simp] theorem setEnc_cam (c : Chip) (i : Nat) (v : EncChan) : (c.setEnc i v).cam = c.cam := rfl
@[simp] theorem setEnc_store (c : Chip) (i : Nat) (v : EncChan) : (c.setEnc i v).store = c.store := rfl
@[simp] theorem setEnc_hosts (c : Chip) (i : Nat) (v : EncChan) : (c.setEnc i v).hosts = c.hosts := rfl
@[simp] theorem setEnc_trig (c : Chip) (i : Nat) (v : EncChan) : (c.setEnc i v).trig = c.trig := rfl
@[simp] theorem setEnc_seam (c : Chip) (i : Nat) (v : EncChan) : (c.setEnc i v).seam = c.seam := rfl
@[simp] theorem setEnc_panel (c : Chip) (i : Nat) (v : EncChan) : (c.setEnc i v).panel = c.panel := rfl
@[simp] theorem setEnc_safety (c : Chip) (i : Nat) (v : EncChan) : (c.setEnc i v).safety = c.safety := rfl
@[simp] theorem setEnc_mgmt (c : Chip) (i : Nat) (v : EncChan) : (c.setEnc i v).mgmt = c.mgmt := rfl
@[simp] theorem setEnc_power (c : Chip) (i : Nat) (v : EncChan) : (c.setEnc i v).power = c.power := rfl
@[simp] theorem setEnc_mt (c : Chip) (i : Nat) (v : EncChan) : (c.setEnc i v).mt = c.mt := rfl
@[simp] theorem setEnc_board (c : Chip) (i : Nat) (v : EncChan) : (c.setEnc i v).board = c.board := rfl
@[simp] theorem setEnc_rd (c : Chip) (i : Nat) (v : EncChan) : (c.setEnc i v).rd = c.rd := rfl
@[simp] theorem setEnc_draw (c : Chip) (i : Nat) (v : EncChan) : (c.setEnc i v).draw = c.draw := rfl
@[simp] theorem setEnc_pos_divs (c : Chip) (i : Nat) (v : EncChan) : (c.setEnc i v).pos.divs = c.pos.divs := rfl
@[simp] theorem setEnc_pos_latches (c : Chip) (i : Nat) (v : EncChan) : (c.setEnc i v).pos.latches = c.pos.latches := rfl

/-! `setDivider` -/

@[simp] theorem divider_setDivider (c : Chip) (i : Nat) (v : Divider) : (c.setDivider i v).divider i = v := Tab.getD_put_self ..
theorem divider_setDivider_other (c : Chip) {i j : Nat} (v : Divider) (h : j ≠ i) : (c.setDivider i v).divider j = c.divider j :=
  Tab.getD_put_other _ _ _ h
@[simp] theorem setDivider_time (c : Chip) (i : Nat) (v : Divider) : (c.setDivider i v).time = c.time := rfl
@[simp] theorem setDivider_ev (c : Chip) (i : Nat) (v : Divider) : (c.setDivider i v).ev = c.ev := rfl
@[simp] theorem setDivider_mbx (c : Chip) (i : Nat) (v : Divider) : (c.setDivider i v).mbx = c.mbx := rfl
@[simp] theorem setDivider_lanes (c : Chip) (i : Nat) (v : Divider) : (c.setDivider i v).lanes = c.lanes := rfl
@[simp] theorem setDivider_cam (c : Chip) (i : Nat) (v : Divider) : (c.setDivider i v).cam = c.cam := rfl
@[simp] theorem setDivider_store (c : Chip) (i : Nat) (v : Divider) : (c.setDivider i v).store = c.store := rfl
@[simp] theorem setDivider_hosts (c : Chip) (i : Nat) (v : Divider) : (c.setDivider i v).hosts = c.hosts := rfl
@[simp] theorem setDivider_trig (c : Chip) (i : Nat) (v : Divider) : (c.setDivider i v).trig = c.trig := rfl
@[simp] theorem setDivider_seam (c : Chip) (i : Nat) (v : Divider) : (c.setDivider i v).seam = c.seam := rfl
@[simp] theorem setDivider_panel (c : Chip) (i : Nat) (v : Divider) : (c.setDivider i v).panel = c.panel := rfl
@[simp] theorem setDivider_safety (c : Chip) (i : Nat) (v : Divider) : (c.setDivider i v).safety = c.safety := rfl
@[simp] theorem setDivider_mgmt (c : Chip) (i : Nat) (v : Divider) : (c.setDivider i v).mgmt = c.mgmt := rfl
@[simp] theorem setDivider_power (c : Chip) (i : Nat) (v : Divider) : (c.setDivider i v).power = c.power := rfl
@[simp] theorem setDivider_mt (c : Chip) (i : Nat) (v : Divider) : (c.setDivider i v).mt = c.mt := rfl
@[simp] theorem setDivider_board (c : Chip) (i : Nat) (v : Divider) : (c.setDivider i v).board = c.board := rfl
@[simp] theorem setDivider_rd (c : Chip) (i : Nat) (v : Divider) : (c.setDivider i v).rd = c.rd := rfl
@[simp] theorem setDivider_draw (c : Chip) (i : Nat) (v : Divider) : (c.setDivider i v).draw = c.draw := rfl
@[simp] theorem setDivider_pos_chans (c : Chip) (i : Nat) (v : Divider) : (c.setDivider i v).pos.chans = c.pos.chans := rfl
@[simp] theorem setDivider_pos_latches (c : Chip) (i : Nat) (v : Divider) : (c.setDivider i v).pos.latches = c.pos.latches := rfl

/-! `setUnit` -/

@[simp] theorem unit_setUnit (c : Chip) (i : Nat) (v : TrigUnit) : (c.setUnit i v).unit i = v := Tab.getD_put_self ..
theorem unit_setUnit_other (c : Chip) {i j : Nat} (v : TrigUnit) (h : j ≠ i) : (c.setUnit i v).unit j = c.unit j :=
  Tab.getD_put_other _ _ _ h
@[simp] theorem setUnit_time (c : Chip) (i : Nat) (v : TrigUnit) : (c.setUnit i v).time = c.time := rfl
@[simp] theorem setUnit_ev (c : Chip) (i : Nat) (v : TrigUnit) : (c.setUnit i v).ev = c.ev := rfl
@[simp] theorem setUnit_mbx (c : Chip) (i : Nat) (v : TrigUnit) : (c.setUnit i v).mbx = c.mbx := rfl
@[simp] theorem setUnit_lanes (c : Chip) (i : Nat) (v : TrigUnit) : (c.setUnit i v).lanes = c.lanes := rfl
@[simp] theorem setUnit_cam (c : Chip) (i : Nat) (v : TrigUnit) : (c.setUnit i v).cam = c.cam := rfl
@[simp] theorem setUnit_store (c : Chip) (i : Nat) (v : TrigUnit) : (c.setUnit i v).store = c.store := rfl
@[simp] theorem setUnit_hosts (c : Chip) (i : Nat) (v : TrigUnit) : (c.setUnit i v).hosts = c.hosts := rfl
@[simp] theorem setUnit_pos (c : Chip) (i : Nat) (v : TrigUnit) : (c.setUnit i v).pos = c.pos := rfl
@[simp] theorem setUnit_seam (c : Chip) (i : Nat) (v : TrigUnit) : (c.setUnit i v).seam = c.seam := rfl
@[simp] theorem setUnit_panel (c : Chip) (i : Nat) (v : TrigUnit) : (c.setUnit i v).panel = c.panel := rfl
@[simp] theorem setUnit_safety (c : Chip) (i : Nat) (v : TrigUnit) : (c.setUnit i v).safety = c.safety := rfl
@[simp] theorem setUnit_mgmt (c : Chip) (i : Nat) (v : TrigUnit) : (c.setUnit i v).mgmt = c.mgmt := rfl
@[simp] theorem setUnit_power (c : Chip) (i : Nat) (v : TrigUnit) : (c.setUnit i v).power = c.power := rfl
@[simp] theorem setUnit_mt (c : Chip) (i : Nat) (v : TrigUnit) : (c.setUnit i v).mt = c.mt := rfl
@[simp] theorem setUnit_board (c : Chip) (i : Nat) (v : TrigUnit) : (c.setUnit i v).board = c.board := rfl
@[simp] theorem setUnit_rd (c : Chip) (i : Nat) (v : TrigUnit) : (c.setUnit i v).rd = c.rd := rfl
@[simp] theorem setUnit_draw (c : Chip) (i : Nat) (v : TrigUnit) : (c.setUnit i v).draw = c.draw := rfl
@[simp] theorem setUnit_trig_table (c : Chip) (i : Nat) (v : TrigUnit) : (c.setUnit i v).trig.table = c.trig.table := rfl
@[simp] theorem setUnit_trig_pins (c : Chip) (i : Nat) (v : TrigUnit) : (c.setUnit i v).trig.pins = c.trig.pins := rfl
@[simp] theorem setUnit_trig_windows (c : Chip) (i : Nat) (v : TrigUnit) : (c.setUnit i v).trig.windows = c.trig.windows := rfl

/-! `setPin` -/

@[simp] theorem pin_setPin (c : Chip) (i : Nat) (v : PinSt) : (c.setPin i v).pin i = v := Tab.getD_put_self ..
theorem pin_setPin_other (c : Chip) {i j : Nat} (v : PinSt) (h : j ≠ i) : (c.setPin i v).pin j = c.pin j :=
  Tab.getD_put_other _ _ _ h
@[simp] theorem setPin_time (c : Chip) (i : Nat) (v : PinSt) : (c.setPin i v).time = c.time := rfl
@[simp] theorem setPin_ev (c : Chip) (i : Nat) (v : PinSt) : (c.setPin i v).ev = c.ev := rfl
@[simp] theorem setPin_mbx (c : Chip) (i : Nat) (v : PinSt) : (c.setPin i v).mbx = c.mbx := rfl
@[simp] theorem setPin_lanes (c : Chip) (i : Nat) (v : PinSt) : (c.setPin i v).lanes = c.lanes := rfl
@[simp] theorem setPin_cam (c : Chip) (i : Nat) (v : PinSt) : (c.setPin i v).cam = c.cam := rfl
@[simp] theorem setPin_store (c : Chip) (i : Nat) (v : PinSt) : (c.setPin i v).store = c.store := rfl
@[simp] theorem setPin_hosts (c : Chip) (i : Nat) (v : PinSt) : (c.setPin i v).hosts = c.hosts := rfl
@[simp] theorem setPin_pos (c : Chip) (i : Nat) (v : PinSt) : (c.setPin i v).pos = c.pos := rfl
@[simp] theorem setPin_seam (c : Chip) (i : Nat) (v : PinSt) : (c.setPin i v).seam = c.seam := rfl
@[simp] theorem setPin_panel (c : Chip) (i : Nat) (v : PinSt) : (c.setPin i v).panel = c.panel := rfl
@[simp] theorem setPin_safety (c : Chip) (i : Nat) (v : PinSt) : (c.setPin i v).safety = c.safety := rfl
@[simp] theorem setPin_mgmt (c : Chip) (i : Nat) (v : PinSt) : (c.setPin i v).mgmt = c.mgmt := rfl
@[simp] theorem setPin_power (c : Chip) (i : Nat) (v : PinSt) : (c.setPin i v).power = c.power := rfl
@[simp] theorem setPin_mt (c : Chip) (i : Nat) (v : PinSt) : (c.setPin i v).mt = c.mt := rfl
@[simp] theorem setPin_board (c : Chip) (i : Nat) (v : PinSt) : (c.setPin i v).board = c.board := rfl
@[simp] theorem setPin_rd (c : Chip) (i : Nat) (v : PinSt) : (c.setPin i v).rd = c.rd := rfl
@[simp] theorem setPin_draw (c : Chip) (i : Nat) (v : PinSt) : (c.setPin i v).draw = c.draw := rfl
@[simp] theorem setPin_trig_units (c : Chip) (i : Nat) (v : PinSt) : (c.setPin i v).trig.units = c.trig.units := rfl
@[simp] theorem setPin_trig_table (c : Chip) (i : Nat) (v : PinSt) : (c.setPin i v).trig.table = c.trig.table := rfl
@[simp] theorem setPin_trig_windows (c : Chip) (i : Nat) (v : PinSt) : (c.setPin i v).trig.windows = c.trig.windows := rfl

/-! `setWindow` -/

@[simp] theorem window_setWindow (c : Chip) (i : Nat) (v : WinSt) : (c.setWindow i v).window i = v := Tab.getD_put_self ..
theorem window_setWindow_other (c : Chip) {i j : Nat} (v : WinSt) (h : j ≠ i) : (c.setWindow i v).window j = c.window j :=
  Tab.getD_put_other _ _ _ h
@[simp] theorem setWindow_time (c : Chip) (i : Nat) (v : WinSt) : (c.setWindow i v).time = c.time := rfl
@[simp] theorem setWindow_ev (c : Chip) (i : Nat) (v : WinSt) : (c.setWindow i v).ev = c.ev := rfl
@[simp] theorem setWindow_mbx (c : Chip) (i : Nat) (v : WinSt) : (c.setWindow i v).mbx = c.mbx := rfl
@[simp] theorem setWindow_lanes (c : Chip) (i : Nat) (v : WinSt) : (c.setWindow i v).lanes = c.lanes := rfl
@[simp] theorem setWindow_cam (c : Chip) (i : Nat) (v : WinSt) : (c.setWindow i v).cam = c.cam := rfl
@[simp] theorem setWindow_store (c : Chip) (i : Nat) (v : WinSt) : (c.setWindow i v).store = c.store := rfl
@[simp] theorem setWindow_hosts (c : Chip) (i : Nat) (v : WinSt) : (c.setWindow i v).hosts = c.hosts := rfl
@[simp] theorem setWindow_pos (c : Chip) (i : Nat) (v : WinSt) : (c.setWindow i v).pos = c.pos := rfl
@[simp] theorem setWindow_seam (c : Chip) (i : Nat) (v : WinSt) : (c.setWindow i v).seam = c.seam := rfl
@[simp] theorem setWindow_panel (c : Chip) (i : Nat) (v : WinSt) : (c.setWindow i v).panel = c.panel := rfl
@[simp] theorem setWindow_safety (c : Chip) (i : Nat) (v : WinSt) : (c.setWindow i v).safety = c.safety := rfl
@[simp] theorem setWindow_mgmt (c : Chip) (i : Nat) (v : WinSt) : (c.setWindow i v).mgmt = c.mgmt := rfl
@[simp] theorem setWindow_power (c : Chip) (i : Nat) (v : WinSt) : (c.setWindow i v).power = c.power := rfl
@[simp] theorem setWindow_mt (c : Chip) (i : Nat) (v : WinSt) : (c.setWindow i v).mt = c.mt := rfl
@[simp] theorem setWindow_board (c : Chip) (i : Nat) (v : WinSt) : (c.setWindow i v).board = c.board := rfl
@[simp] theorem setWindow_rd (c : Chip) (i : Nat) (v : WinSt) : (c.setWindow i v).rd = c.rd := rfl
@[simp] theorem setWindow_draw (c : Chip) (i : Nat) (v : WinSt) : (c.setWindow i v).draw = c.draw := rfl
@[simp] theorem setWindow_trig_units (c : Chip) (i : Nat) (v : WinSt) : (c.setWindow i v).trig.units = c.trig.units := rfl
@[simp] theorem setWindow_trig_table (c : Chip) (i : Nat) (v : WinSt) : (c.setWindow i v).trig.table = c.trig.table := rfl
@[simp] theorem setWindow_trig_pins (c : Chip) (i : Nat) (v : WinSt) : (c.setWindow i v).trig.pins = c.trig.pins := rfl

/-! `setLink` -/

@[simp] theorem link_setLink (c : Chip) (i : Nat) (v : LinkSt) : (c.setLink i v).link? i = some v := Tab.find?_put_self ..
theorem link_setLink_other (c : Chip) {i j : Nat} (v : LinkSt) (h : j ≠ i) : (c.setLink i v).link? j = c.link? j :=
  Tab.find?_put_other _ _ h
@[simp] theorem setLink_time (c : Chip) (i : Nat) (v : LinkSt) : (c.setLink i v).time = c.time := rfl
@[simp] theorem setLink_ev (c : Chip) (i : Nat) (v : LinkSt) : (c.setLink i v).ev = c.ev := rfl
@[simp] theorem setLink_mbx (c : Chip) (i : Nat) (v : LinkSt) : (c.setLink i v).mbx = c.mbx := rfl
@[simp] theorem setLink_lanes (c : Chip) (i : Nat) (v : LinkSt) : (c.setLink i v).lanes = c.lanes := rfl
@[simp] theorem setLink_cam (c : Chip) (i : Nat) (v : LinkSt) : (c.setLink i v).cam = c.cam := rfl
@[simp] theorem setLink_store (c : Chip) (i : Nat) (v : LinkSt) : (c.setLink i v).store = c.store := rfl
@[simp] theorem setLink_hosts (c : Chip) (i : Nat) (v : LinkSt) : (c.setLink i v).hosts = c.hosts := rfl
@[simp] theorem setLink_pos (c : Chip) (i : Nat) (v : LinkSt) : (c.setLink i v).pos = c.pos := rfl
@[simp] theorem setLink_trig (c : Chip) (i : Nat) (v : LinkSt) : (c.setLink i v).trig = c.trig := rfl
@[simp] theorem setLink_panel (c : Chip) (i : Nat) (v : LinkSt) : (c.setLink i v).panel = c.panel := rfl
@[simp] theorem setLink_safety (c : Chip) (i : Nat) (v : LinkSt) : (c.setLink i v).safety = c.safety := rfl
@[simp] theorem setLink_mgmt (c : Chip) (i : Nat) (v : LinkSt) : (c.setLink i v).mgmt = c.mgmt := rfl
@[simp] theorem setLink_power (c : Chip) (i : Nat) (v : LinkSt) : (c.setLink i v).power = c.power := rfl
@[simp] theorem setLink_mt (c : Chip) (i : Nat) (v : LinkSt) : (c.setLink i v).mt = c.mt := rfl
@[simp] theorem setLink_board (c : Chip) (i : Nat) (v : LinkSt) : (c.setLink i v).board = c.board := rfl
@[simp] theorem setLink_rd (c : Chip) (i : Nat) (v : LinkSt) : (c.setLink i v).rd = c.rd := rfl
@[simp] theorem setLink_draw (c : Chip) (i : Nat) (v : LinkSt) : (c.setLink i v).draw = c.draw := rfl
@[simp] theorem setLink_seam_id (c : Chip) (i : Nat) (v : LinkSt) : (c.setLink i v).seam.id = c.seam.id := rfl
@[simp] theorem setLink_seam_fixedNext (c : Chip) (i : Nat) (v : LinkSt) : (c.setLink i v).seam.fixedNext = c.seam.fixedNext := rfl
@[simp] theorem setLink_seam_fixed (c : Chip) (i : Nat) (v : LinkSt) : (c.setLink i v).seam.fixed = c.seam.fixed := rfl
@[simp] theorem setLink_seam_conflict (c : Chip) (i : Nat) (v : LinkSt) : (c.setLink i v).seam.conflict = c.seam.conflict := rfl
@[simp] theorem setLink_seam_pseq (c : Chip) (i : Nat) (v : LinkSt) : (c.setLink i v).seam.pseq = c.seam.pseq := rfl
@[simp] theorem setLink_seam_probes (c : Chip) (i : Nat) (v : LinkSt) : (c.setLink i v).seam.probes = c.seam.probes := rfl
@[simp] theorem setLink_seam_topo (c : Chip) (i : Nat) (v : LinkSt) : (c.setLink i v).seam.topo = c.seam.topo := rfl
@[simp] theorem setLink_seam_root (c : Chip) (i : Nat) (v : LinkSt) : (c.setLink i v).seam.root = c.seam.root := rfl
@[simp] theorem setLink_seam_epoch (c : Chip) (i : Nat) (v : LinkSt) : (c.setLink i v).seam.epoch = c.seam.epoch := rfl
@[simp] theorem setLink_seam_parts (c : Chip) (i : Nat) (v : LinkSt) : (c.setLink i v).seam.parts = c.seam.parts := rfl
@[simp] theorem setLink_seam_assigned (c : Chip) (i : Nat) (v : LinkSt) : (c.setLink i v).seam.assigned = c.seam.assigned := rfl
@[simp] theorem setLink_seam_routes (c : Chip) (i : Nat) (v : LinkSt) : (c.setLink i v).seam.routes = c.seam.routes := rfl
@[simp] theorem setLink_seam_esnTx (c : Chip) (i : Nat) (v : LinkSt) : (c.setLink i v).seam.esnTx = c.seam.esnTx := rfl
@[simp] theorem setLink_seam_esnRx (c : Chip) (i : Nat) (v : LinkSt) : (c.setLink i v).seam.esnRx = c.seam.esnRx := rfl
@[simp] theorem setLink_seam_queue (c : Chip) (i : Nat) (v : LinkSt) : (c.setLink i v).seam.queue = c.seam.queue := rfl
@[simp] theorem setLink_seam_turn (c : Chip) (i : Nat) (v : LinkSt) : (c.setLink i v).seam.turn = c.seam.turn := rfl
@[simp] theorem setLink_seam_landed (c : Chip) (i : Nat) (v : LinkSt) : (c.setLink i v).seam.landed = c.seam.landed := rfl
@[simp] theorem setLink_seam_samples (c : Chip) (i : Nat) (v : LinkSt) : (c.setLink i v).seam.samples = c.seam.samples := rfl
@[simp] theorem setLink_seam_mirrors (c : Chip) (i : Nat) (v : LinkSt) : (c.setLink i v).seam.mirrors = c.seam.mirrors := rfl
@[simp] theorem setLink_seam_history (c : Chip) (i : Nat) (v : LinkSt) : (c.setLink i v).seam.history = c.seam.history := rfl
@[simp] theorem setLink_seam_waits (c : Chip) (i : Nat) (v : LinkSt) : (c.setLink i v).seam.waits = c.seam.waits := rfl
@[simp] theorem setLink_seam_relays (c : Chip) (i : Nat) (v : LinkSt) : (c.setLink i v).seam.relays = c.seam.relays := rfl
@[simp] theorem setLink_seam_landings (c : Chip) (i : Nat) (v : LinkSt) : (c.setLink i v).seam.landings = c.seam.landings := rfl
@[simp] theorem setLink_seam_misdirected (c : Chip) (i : Nat) (v : LinkSt) : (c.setLink i v).seam.misdirected = c.seam.misdirected := rfl
@[simp] theorem setLink_seam_unlanded (c : Chip) (i : Nat) (v : LinkSt) : (c.setLink i v).seam.unlanded = c.seam.unlanded := rfl
@[simp] theorem setLink_seam_hopResv (c : Chip) (i : Nat) (v : LinkSt) : (c.setLink i v).seam.hopResv = c.seam.hopResv := rfl
@[simp] theorem setLink_seam_parent (c : Chip) (i : Nat) (v : LinkSt) : (c.setLink i v).seam.parent = c.seam.parent := rfl
@[simp] theorem setLink_seam_hopsToRoot (c : Chip) (i : Nat) (v : LinkSt) : (c.setLink i v).seam.hopsToRoot = c.seam.hopsToRoot := rfl
@[simp] theorem setLink_seam_thetas (c : Chip) (i : Nat) (v : LinkSt) : (c.setLink i v).seam.thetas = c.seam.thetas := rfl
@[simp] theorem setLink_seam_joined (c : Chip) (i : Nat) (v : LinkSt) : (c.setLink i v).seam.joined = c.seam.joined := rfl

/-! `setTile` -/

@[simp] theorem tile_setTile (c : Chip) (i : Nat) (v : TileSt) : (c.setTile i v).tile i = v := Tab.getD_put_self ..
theorem tile_setTile_other (c : Chip) {i j : Nat} (v : TileSt) (h : j ≠ i) : (c.setTile i v).tile j = c.tile j :=
  Tab.getD_put_other _ _ _ h
@[simp] theorem setTile_time (c : Chip) (i : Nat) (v : TileSt) : (c.setTile i v).time = c.time := rfl
@[simp] theorem setTile_ev (c : Chip) (i : Nat) (v : TileSt) : (c.setTile i v).ev = c.ev := rfl
@[simp] theorem setTile_mbx (c : Chip) (i : Nat) (v : TileSt) : (c.setTile i v).mbx = c.mbx := rfl
@[simp] theorem setTile_lanes (c : Chip) (i : Nat) (v : TileSt) : (c.setTile i v).lanes = c.lanes := rfl
@[simp] theorem setTile_cam (c : Chip) (i : Nat) (v : TileSt) : (c.setTile i v).cam = c.cam := rfl
@[simp] theorem setTile_store (c : Chip) (i : Nat) (v : TileSt) : (c.setTile i v).store = c.store := rfl
@[simp] theorem setTile_hosts (c : Chip) (i : Nat) (v : TileSt) : (c.setTile i v).hosts = c.hosts := rfl
@[simp] theorem setTile_pos (c : Chip) (i : Nat) (v : TileSt) : (c.setTile i v).pos = c.pos := rfl
@[simp] theorem setTile_trig (c : Chip) (i : Nat) (v : TileSt) : (c.setTile i v).trig = c.trig := rfl
@[simp] theorem setTile_seam (c : Chip) (i : Nat) (v : TileSt) : (c.setTile i v).seam = c.seam := rfl
@[simp] theorem setTile_safety (c : Chip) (i : Nat) (v : TileSt) : (c.setTile i v).safety = c.safety := rfl
@[simp] theorem setTile_mgmt (c : Chip) (i : Nat) (v : TileSt) : (c.setTile i v).mgmt = c.mgmt := rfl
@[simp] theorem setTile_power (c : Chip) (i : Nat) (v : TileSt) : (c.setTile i v).power = c.power := rfl
@[simp] theorem setTile_mt (c : Chip) (i : Nat) (v : TileSt) : (c.setTile i v).mt = c.mt := rfl
@[simp] theorem setTile_board (c : Chip) (i : Nat) (v : TileSt) : (c.setTile i v).board = c.board := rfl
@[simp] theorem setTile_rd (c : Chip) (i : Nat) (v : TileSt) : (c.setTile i v).rd = c.rd := rfl
@[simp] theorem setTile_draw (c : Chip) (i : Nat) (v : TileSt) : (c.setTile i v).draw = c.draw := rfl
@[simp] theorem setTile_panel_state (c : Chip) (i : Nat) (v : TileSt) : (c.setTile i v).panel.state = c.panel.state := rfl
@[simp] theorem setTile_panel_mode (c : Chip) (i : Nat) (v : TileSt) : (c.setTile i v).panel.mode = c.panel.mode := rfl
@[simp] theorem setTile_panel_pending (c : Chip) (i : Nat) (v : TileSt) : (c.setTile i v).panel.pending = c.panel.pending := rfl
@[simp] theorem setTile_panel_hpd (c : Chip) (i : Nat) (v : TileSt) : (c.setTile i v).panel.hpd = c.panel.hpd := rfl
@[simp] theorem setTile_panel_linkRate (c : Chip) (i : Nat) (v : TileSt) : (c.setTile i v).panel.linkRate = c.panel.linkRate := rfl
@[simp] theorem setTile_panel_lanes (c : Chip) (i : Nat) (v : TileSt) : (c.setTile i v).panel.lanes = c.panel.lanes := rfl
@[simp] theorem setTile_panel_ready (c : Chip) (i : Nat) (v : TileSt) : (c.setTile i v).panel.ready = c.panel.ready := rfl
@[simp] theorem setTile_panel_forbid (c : Chip) (i : Nat) (v : TileSt) : (c.setTile i v).panel.forbid = c.panel.forbid := rfl
@[simp] theorem setTile_panel_frame (c : Chip) (i : Nat) (v : TileSt) : (c.setTile i v).panel.frame = c.panel.frame := rfl
@[simp] theorem setTile_panel_lateBand (c : Chip) (i : Nat) (v : TileSt) : (c.setTile i v).panel.lateBand = c.panel.lateBand := rfl
@[simp] theorem setTile_panel_frameGood (c : Chip) (i : Nat) (v : TileSt) : (c.setTile i v).panel.frameGood = c.panel.frameGood := rfl
@[simp] theorem setTile_panel_wholeGood (c : Chip) (i : Nat) (v : TileSt) : (c.setTile i v).panel.wholeGood = c.panel.wholeGood := rfl
@[simp] theorem setTile_panel_bandsDone (c : Chip) (i : Nat) (v : TileSt) : (c.setTile i v).panel.bandsDone = c.panel.bandsDone := rfl
@[simp] theorem setTile_panel_nextHandle (c : Chip) (i : Nat) (v : TileSt) : (c.setTile i v).panel.nextHandle = c.panel.nextHandle := rfl

/-! `setSafeFn` -/

@[simp] theorem safeFn_setSafeFn (c : Chip) (i : Nat) (v : SafeFn) : (c.setSafeFn i v).safeFn i = v := Tab.getD_put_self ..
theorem safeFn_setSafeFn_other (c : Chip) {i j : Nat} (v : SafeFn) (h : j ≠ i) : (c.setSafeFn i v).safeFn j = c.safeFn j :=
  Tab.getD_put_other _ _ _ h
@[simp] theorem setSafeFn_time (c : Chip) (i : Nat) (v : SafeFn) : (c.setSafeFn i v).time = c.time := rfl
@[simp] theorem setSafeFn_ev (c : Chip) (i : Nat) (v : SafeFn) : (c.setSafeFn i v).ev = c.ev := rfl
@[simp] theorem setSafeFn_mbx (c : Chip) (i : Nat) (v : SafeFn) : (c.setSafeFn i v).mbx = c.mbx := rfl
@[simp] theorem setSafeFn_lanes (c : Chip) (i : Nat) (v : SafeFn) : (c.setSafeFn i v).lanes = c.lanes := rfl
@[simp] theorem setSafeFn_cam (c : Chip) (i : Nat) (v : SafeFn) : (c.setSafeFn i v).cam = c.cam := rfl
@[simp] theorem setSafeFn_store (c : Chip) (i : Nat) (v : SafeFn) : (c.setSafeFn i v).store = c.store := rfl
@[simp] theorem setSafeFn_hosts (c : Chip) (i : Nat) (v : SafeFn) : (c.setSafeFn i v).hosts = c.hosts := rfl
@[simp] theorem setSafeFn_pos (c : Chip) (i : Nat) (v : SafeFn) : (c.setSafeFn i v).pos = c.pos := rfl
@[simp] theorem setSafeFn_trig (c : Chip) (i : Nat) (v : SafeFn) : (c.setSafeFn i v).trig = c.trig := rfl
@[simp] theorem setSafeFn_seam (c : Chip) (i : Nat) (v : SafeFn) : (c.setSafeFn i v).seam = c.seam := rfl
@[simp] theorem setSafeFn_panel (c : Chip) (i : Nat) (v : SafeFn) : (c.setSafeFn i v).panel = c.panel := rfl
@[simp] theorem setSafeFn_mgmt (c : Chip) (i : Nat) (v : SafeFn) : (c.setSafeFn i v).mgmt = c.mgmt := rfl
@[simp] theorem setSafeFn_power (c : Chip) (i : Nat) (v : SafeFn) : (c.setSafeFn i v).power = c.power := rfl
@[simp] theorem setSafeFn_mt (c : Chip) (i : Nat) (v : SafeFn) : (c.setSafeFn i v).mt = c.mt := rfl
@[simp] theorem setSafeFn_board (c : Chip) (i : Nat) (v : SafeFn) : (c.setSafeFn i v).board = c.board := rfl
@[simp] theorem setSafeFn_rd (c : Chip) (i : Nat) (v : SafeFn) : (c.setSafeFn i v).rd = c.rd := rfl
@[simp] theorem setSafeFn_draw (c : Chip) (i : Nat) (v : SafeFn) : (c.setSafeFn i v).draw = c.draw := rfl
@[simp] theorem setSafeFn_safety_all (c : Chip) (i : Nat) (v : SafeFn) : (c.setSafeFn i v).safety.all = c.safety.all := rfl
@[simp] theorem setSafeFn_safety_safe (c : Chip) (i : Nat) (v : SafeFn) : (c.setSafeFn i v).safety.safe = c.safety.safe := rfl
@[simp] theorem setSafeFn_safety_resume (c : Chip) (i : Nat) (v : SafeFn) : (c.setSafeFn i v).safety.resume = c.safety.resume := rfl
@[simp] theorem setSafeFn_safety_beat (c : Chip) (i : Nat) (v : SafeFn) : (c.setSafeFn i v).safety.beat = c.safety.beat := rfl
@[simp] theorem setSafeFn_safety_pinA (c : Chip) (i : Nat) (v : SafeFn) : (c.setSafeFn i v).safety.pinA = c.safety.pinA := rfl
@[simp] theorem setSafeFn_safety_pinB (c : Chip) (i : Nat) (v : SafeFn) : (c.setSafeFn i v).safety.pinB = c.safety.pinB := rfl
@[simp] theorem setSafeFn_safety_lastT (c : Chip) (i : Nat) (v : SafeFn) : (c.setSafeFn i v).safety.lastT = c.safety.lastT := rfl
@[simp] theorem setSafeFn_safety_modeOnly (c : Chip) (i : Nat) (v : SafeFn) : (c.setSafeFn i v).safety.modeOnly = c.safety.modeOnly := rfl
@[simp] theorem setSafeFn_safety_wrong (c : Chip) (i : Nat) (v : SafeFn) : (c.setSafeFn i v).safety.wrong = c.safety.wrong := rfl

/-! `setBox` -/

@[simp] theorem box_setBox (c : Chip) (m : Nat) (v : Mailbox) : (c.setBox m v).box m = v := Tab.getD_put_self ..
theorem box_setBox_other (c : Chip) {m j : Nat} (v : Mailbox) (h : j ≠ m) : (c.setBox m v).box j = c.box j :=
  Tab.getD_put_other _ _ _ h
@[simp] theorem setBox_time (c : Chip) (m : Nat) (v : Mailbox) : (c.setBox m v).time = c.time := rfl
@[simp] theorem setBox_ev (c : Chip) (m : Nat) (v : Mailbox) : (c.setBox m v).ev = c.ev := rfl
@[simp] theorem setBox_lanes (c : Chip) (m : Nat) (v : Mailbox) : (c.setBox m v).lanes = c.lanes := rfl
@[simp] theorem setBox_cam (c : Chip) (m : Nat) (v : Mailbox) : (c.setBox m v).cam = c.cam := rfl
@[simp] theorem setBox_store (c : Chip) (m : Nat) (v : Mailbox) : (c.setBox m v).store = c.store := rfl
@[simp] theorem setBox_hosts (c : Chip) (m : Nat) (v : Mailbox) : (c.setBox m v).hosts = c.hosts := rfl
@[simp] theorem setBox_pos (c : Chip) (m : Nat) (v : Mailbox) : (c.setBox m v).pos = c.pos := rfl
@[simp] theorem setBox_trig (c : Chip) (m : Nat) (v : Mailbox) : (c.setBox m v).trig = c.trig := rfl
@[simp] theorem setBox_seam (c : Chip) (m : Nat) (v : Mailbox) : (c.setBox m v).seam = c.seam := rfl
@[simp] theorem setBox_panel (c : Chip) (m : Nat) (v : Mailbox) : (c.setBox m v).panel = c.panel := rfl
@[simp] theorem setBox_safety (c : Chip) (m : Nat) (v : Mailbox) : (c.setBox m v).safety = c.safety := rfl
@[simp] theorem setBox_mgmt (c : Chip) (m : Nat) (v : Mailbox) : (c.setBox m v).mgmt = c.mgmt := rfl
@[simp] theorem setBox_power (c : Chip) (m : Nat) (v : Mailbox) : (c.setBox m v).power = c.power := rfl
@[simp] theorem setBox_mt (c : Chip) (m : Nat) (v : Mailbox) : (c.setBox m v).mt = c.mt := rfl
@[simp] theorem setBox_board (c : Chip) (m : Nat) (v : Mailbox) : (c.setBox m v).board = c.board := rfl
@[simp] theorem setBox_rd (c : Chip) (m : Nat) (v : Mailbox) : (c.setBox m v).rd = c.rd := rfl
@[simp] theorem setBox_draw (c : Chip) (m : Nat) (v : Mailbox) : (c.setBox m v).draw = c.draw := rfl
@[simp] theorem setBox_mbx_tickets (c : Chip) (m : Nat) (v : Mailbox) : (c.setBox m v).mbx.tickets = c.mbx.tickets := rfl
@[simp] theorem setBox_mbx_nextTicket (c : Chip) (m : Nat) (v : Mailbox) : (c.setBox m v).mbx.nextTicket = c.mbx.nextTicket := rfl
@[simp] theorem setBox_mbx_keys (c : Chip) (m : Nat) (v : Mailbox) : (c.setBox m v).mbx.keys = c.mbx.keys := rfl
@[simp] theorem setBox_mbx_lockedPart (c : Chip) (m : Nat) (v : Mailbox) : (c.setBox m v).mbx.lockedPart = c.mbx.lockedPart := rfl
@[simp] theorem setBox_mbx_idle (c : Chip) (m : Nat) (v : Mailbox) : (c.setBox m v).mbx.idle = c.mbx.idle := rfl
@[simp] theorem setBox_mbx_audit (c : Chip) (m : Nat) (v : Mailbox) : (c.setBox m v).mbx.audit = c.mbx.audit := rfl
@[simp] theorem setBox_mbx_auditNext (c : Chip) (m : Nat) (v : Mailbox) : (c.setBox m v).mbx.auditNext = c.mbx.auditNext := rfl
@[simp] theorem setBox_mbx_auditHash (c : Chip) (m : Nat) (v : Mailbox) : (c.setBox m v).mbx.auditHash = c.mbx.auditHash := rfl
@[simp] theorem setBox_mbx_auditOk (c : Chip) (m : Nat) (v : Mailbox) : (c.setBox m v).mbx.auditOk = c.mbx.auditOk := rfl
@[simp] theorem setBox_mbx_limits (c : Chip) (m : Nat) (v : Mailbox) : (c.setBox m v).mbx.limits = c.mbx.limits := rfl
@[simp] theorem setBox_mbx_devFails (c : Chip) (m : Nat) (v : Mailbox) : (c.setBox m v).mbx.devFails = c.mbx.devFails := rfl
@[simp] theorem setBox_mbx_devLocked (c : Chip) (m : Nat) (v : Mailbox) : (c.setBox m v).mbx.devLocked = c.mbx.devLocked := rfl

/-! `setMc` -/

@[simp] theorem mc_setMc (c : Chip) (i : Nat) (v : McSt) : (c.setMc i v).mc i = v := Tab.getD_put_self ..
theorem mc_setMc_other (c : Chip) {i j : Nat} (v : McSt) (h : j ≠ i) : (c.setMc i v).mc j = c.mc j :=
  Tab.getD_put_other _ _ _ h
@[simp] theorem setMc_time (c : Chip) (i : Nat) (v : McSt) : (c.setMc i v).time = c.time := rfl
@[simp] theorem setMc_ev (c : Chip) (i : Nat) (v : McSt) : (c.setMc i v).ev = c.ev := rfl
@[simp] theorem setMc_mbx (c : Chip) (i : Nat) (v : McSt) : (c.setMc i v).mbx = c.mbx := rfl
@[simp] theorem setMc_lanes (c : Chip) (i : Nat) (v : McSt) : (c.setMc i v).lanes = c.lanes := rfl
@[simp] theorem setMc_cam (c : Chip) (i : Nat) (v : McSt) : (c.setMc i v).cam = c.cam := rfl
@[simp] theorem setMc_store (c : Chip) (i : Nat) (v : McSt) : (c.setMc i v).store = c.store := rfl
@[simp] theorem setMc_hosts (c : Chip) (i : Nat) (v : McSt) : (c.setMc i v).hosts = c.hosts := rfl
@[simp] theorem setMc_pos (c : Chip) (i : Nat) (v : McSt) : (c.setMc i v).pos = c.pos := rfl
@[simp] theorem setMc_trig (c : Chip) (i : Nat) (v : McSt) : (c.setMc i v).trig = c.trig := rfl
@[simp] theorem setMc_seam (c : Chip) (i : Nat) (v : McSt) : (c.setMc i v).seam = c.seam := rfl
@[simp] theorem setMc_panel (c : Chip) (i : Nat) (v : McSt) : (c.setMc i v).panel = c.panel := rfl
@[simp] theorem setMc_safety (c : Chip) (i : Nat) (v : McSt) : (c.setMc i v).safety = c.safety := rfl
@[simp] theorem setMc_mgmt (c : Chip) (i : Nat) (v : McSt) : (c.setMc i v).mgmt = c.mgmt := rfl
@[simp] theorem setMc_power (c : Chip) (i : Nat) (v : McSt) : (c.setMc i v).power = c.power := rfl
@[simp] theorem setMc_board (c : Chip) (i : Nat) (v : McSt) : (c.setMc i v).board = c.board := rfl
@[simp] theorem setMc_rd (c : Chip) (i : Nat) (v : McSt) : (c.setMc i v).rd = c.rd := rfl
@[simp] theorem setMc_draw (c : Chip) (i : Nat) (v : McSt) : (c.setMc i v).draw = c.draw := rfl
@[simp] theorem setMc_mt_style (c : Chip) (i : Nat) (v : McSt) : (c.setMc i v).mt.style = c.mt.style := rfl
@[simp] theorem setMc_mt_pecReq (c : Chip) (i : Nat) (v : McSt) : (c.setMc i v).mt.pecReq = c.mt.pecReq := rfl
@[simp] theorem setMc_mt_src (c : Chip) (i : Nat) (v : McSt) : (c.setMc i v).mt.src = c.mt.src := rfl
@[simp] theorem setMc_mt_mask (c : Chip) (i : Nat) (v : McSt) : (c.setMc i v).mt.mask = c.mt.mask := rfl
@[simp] theorem setMc_mt_cur (c : Chip) (i : Nat) (v : McSt) : (c.setMc i v).mt.cur = c.mt.cur := rfl
@[simp] theorem setMc_mt_reported (c : Chip) (i : Nat) (v : McSt) : (c.setMc i v).mt.reported = c.mt.reported := rfl
@[simp] theorem setMc_mt_winBase (c : Chip) (i : Nat) (v : McSt) : (c.setMc i v).mt.winBase = c.mt.winBase := rfl
@[simp] theorem setMc_mt_pointer (c : Chip) (i : Nat) (v : McSt) : (c.setMc i v).mt.pointer = c.mt.pointer := rfl
@[simp] theorem setMc_mt_errPec (c : Chip) (i : Nat) (v : McSt) : (c.setMc i v).mt.errPec = c.mt.errPec := rfl
@[simp] theorem setMc_mt_errAccess (c : Chip) (i : Nat) (v : McSt) : (c.setMc i v).mt.errAccess = c.mt.errAccess := rfl
@[simp] theorem setMc_mt_timeouts (c : Chip) (i : Nat) (v : McSt) : (c.setMc i v).mt.timeouts = c.mt.timeouts := rfl
@[simp] theorem setMc_mt_modules (c : Chip) (i : Nat) (v : McSt) : (c.setMc i v).mt.modules = c.mt.modules := rfl

/-! `setModule` -/

@[simp] theorem module_setModule (c : Chip) (i : Nat) (v : ModuleSt) : (c.setModule i v).module i = v := Tab.getD_put_self ..
theorem module_setModule_other (c : Chip) {i j : Nat} (v : ModuleSt) (h : j ≠ i) : (c.setModule i v).module j = c.module j :=
  Tab.getD_put_other _ _ _ h
@[simp] theorem setModule_time (c : Chip) (i : Nat) (v : ModuleSt) : (c.setModule i v).time = c.time := rfl
@[simp] theorem setModule_ev (c : Chip) (i : Nat) (v : ModuleSt) : (c.setModule i v).ev = c.ev := rfl
@[simp] theorem setModule_mbx (c : Chip) (i : Nat) (v : ModuleSt) : (c.setModule i v).mbx = c.mbx := rfl
@[simp] theorem setModule_lanes (c : Chip) (i : Nat) (v : ModuleSt) : (c.setModule i v).lanes = c.lanes := rfl
@[simp] theorem setModule_cam (c : Chip) (i : Nat) (v : ModuleSt) : (c.setModule i v).cam = c.cam := rfl
@[simp] theorem setModule_store (c : Chip) (i : Nat) (v : ModuleSt) : (c.setModule i v).store = c.store := rfl
@[simp] theorem setModule_hosts (c : Chip) (i : Nat) (v : ModuleSt) : (c.setModule i v).hosts = c.hosts := rfl
@[simp] theorem setModule_pos (c : Chip) (i : Nat) (v : ModuleSt) : (c.setModule i v).pos = c.pos := rfl
@[simp] theorem setModule_trig (c : Chip) (i : Nat) (v : ModuleSt) : (c.setModule i v).trig = c.trig := rfl
@[simp] theorem setModule_seam (c : Chip) (i : Nat) (v : ModuleSt) : (c.setModule i v).seam = c.seam := rfl
@[simp] theorem setModule_panel (c : Chip) (i : Nat) (v : ModuleSt) : (c.setModule i v).panel = c.panel := rfl
@[simp] theorem setModule_safety (c : Chip) (i : Nat) (v : ModuleSt) : (c.setModule i v).safety = c.safety := rfl
@[simp] theorem setModule_mgmt (c : Chip) (i : Nat) (v : ModuleSt) : (c.setModule i v).mgmt = c.mgmt := rfl
@[simp] theorem setModule_power (c : Chip) (i : Nat) (v : ModuleSt) : (c.setModule i v).power = c.power := rfl
@[simp] theorem setModule_board (c : Chip) (i : Nat) (v : ModuleSt) : (c.setModule i v).board = c.board := rfl
@[simp] theorem setModule_rd (c : Chip) (i : Nat) (v : ModuleSt) : (c.setModule i v).rd = c.rd := rfl
@[simp] theorem setModule_draw (c : Chip) (i : Nat) (v : ModuleSt) : (c.setModule i v).draw = c.draw := rfl
@[simp] theorem setModule_mt_style (c : Chip) (i : Nat) (v : ModuleSt) : (c.setModule i v).mt.style = c.mt.style := rfl
@[simp] theorem setModule_mt_pecReq (c : Chip) (i : Nat) (v : ModuleSt) : (c.setModule i v).mt.pecReq = c.mt.pecReq := rfl
@[simp] theorem setModule_mt_src (c : Chip) (i : Nat) (v : ModuleSt) : (c.setModule i v).mt.src = c.mt.src := rfl
@[simp] theorem setModule_mt_mask (c : Chip) (i : Nat) (v : ModuleSt) : (c.setModule i v).mt.mask = c.mt.mask := rfl
@[simp] theorem setModule_mt_cur (c : Chip) (i : Nat) (v : ModuleSt) : (c.setModule i v).mt.cur = c.mt.cur := rfl
@[simp] theorem setModule_mt_reported (c : Chip) (i : Nat) (v : ModuleSt) : (c.setModule i v).mt.reported = c.mt.reported := rfl
@[simp] theorem setModule_mt_winBase (c : Chip) (i : Nat) (v : ModuleSt) : (c.setModule i v).mt.winBase = c.mt.winBase := rfl
@[simp] theorem setModule_mt_pointer (c : Chip) (i : Nat) (v : ModuleSt) : (c.setModule i v).mt.pointer = c.mt.pointer := rfl
@[simp] theorem setModule_mt_errPec (c : Chip) (i : Nat) (v : ModuleSt) : (c.setModule i v).mt.errPec = c.mt.errPec := rfl
@[simp] theorem setModule_mt_errAccess (c : Chip) (i : Nat) (v : ModuleSt) : (c.setModule i v).mt.errAccess = c.mt.errAccess := rfl
@[simp] theorem setModule_mt_timeouts (c : Chip) (i : Nat) (v : ModuleSt) : (c.setModule i v).mt.timeouts = c.mt.timeouts := rfl
@[simp] theorem setModule_mt_mcs (c : Chip) (i : Nat) (v : ModuleSt) : (c.setModule i v).mt.mcs = c.mt.mcs := rfl

/-! `setMeter` -/

@[simp] theorem meter_setMeter (c : Chip) (r i : Nat) (v : MeterSt) : (c.setMeter r i v).meter r i = v := Tab.getD_put_self ..
@[simp] theorem setMeter_time (c : Chip) (r i : Nat) (v : MeterSt) : (c.setMeter r i v).time = c.time := rfl
@[simp] theorem setMeter_ev (c : Chip) (r i : Nat) (v : MeterSt) : (c.setMeter r i v).ev = c.ev := rfl
@[simp] theorem setMeter_mbx (c : Chip) (r i : Nat) (v : MeterSt) : (c.setMeter r i v).mbx = c.mbx := rfl
@[simp] theorem setMeter_lanes (c : Chip) (r i : Nat) (v : MeterSt) : (c.setMeter r i v).lanes = c.lanes := rfl
@[simp] theorem setMeter_cam (c : Chip) (r i : Nat) (v : MeterSt) : (c.setMeter r i v).cam = c.cam := rfl
@[simp] theorem setMeter_store (c : Chip) (r i : Nat) (v : MeterSt) : (c.setMeter r i v).store = c.store := rfl
@[simp] theorem setMeter_hosts (c : Chip) (r i : Nat) (v : MeterSt) : (c.setMeter r i v).hosts = c.hosts := rfl
@[simp] theorem setMeter_pos (c : Chip) (r i : Nat) (v : MeterSt) : (c.setMeter r i v).pos = c.pos := rfl
@[simp] theorem setMeter_trig (c : Chip) (r i : Nat) (v : MeterSt) : (c.setMeter r i v).trig = c.trig := rfl
@[simp] theorem setMeter_seam (c : Chip) (r i : Nat) (v : MeterSt) : (c.setMeter r i v).seam = c.seam := rfl
@[simp] theorem setMeter_panel (c : Chip) (r i : Nat) (v : MeterSt) : (c.setMeter r i v).panel = c.panel := rfl
@[simp] theorem setMeter_safety (c : Chip) (r i : Nat) (v : MeterSt) : (c.setMeter r i v).safety = c.safety := rfl
@[simp] theorem setMeter_mgmt (c : Chip) (r i : Nat) (v : MeterSt) : (c.setMeter r i v).mgmt = c.mgmt := rfl
@[simp] theorem setMeter_mt (c : Chip) (r i : Nat) (v : MeterSt) : (c.setMeter r i v).mt = c.mt := rfl
@[simp] theorem setMeter_board (c : Chip) (r i : Nat) (v : MeterSt) : (c.setMeter r i v).board = c.board := rfl
@[simp] theorem setMeter_rd (c : Chip) (r i : Nat) (v : MeterSt) : (c.setMeter r i v).rd = c.rd := rfl
@[simp] theorem setMeter_draw (c : Chip) (r i : Nat) (v : MeterSt) : (c.setMeter r i v).draw = c.draw := rfl
@[simp] theorem setMeter_power_stage (c : Chip) (r i : Nat) (v : MeterSt) : (c.setMeter r i v).power.stage = c.power.stage := rfl
@[simp] theorem setMeter_power_recovery (c : Chip) (r i : Nat) (v : MeterSt) : (c.setMeter r i v).power.recovery = c.power.recovery := rfl
@[simp] theorem setMeter_power_held (c : Chip) (r i : Nat) (v : MeterSt) : (c.setMeter r i v).power.held = c.power.held := rfl
@[simp] theorem setMeter_power_resetLow (c : Chip) (r i : Nat) (v : MeterSt) : (c.setMeter r i v).power.resetLow = c.power.resetLow := rfl
@[simp] theorem setMeter_power_pwrEn (c : Chip) (r i : Nat) (v : MeterSt) : (c.setMeter r i v).power.pwrEn = c.power.pwrEn := rfl
@[simp] theorem setMeter_power_trip (c : Chip) (r i : Nat) (v : MeterSt) : (c.setMeter r i v).power.trip = c.power.trip := rfl
@[simp] theorem setMeter_power_tripWait (c : Chip) (r i : Nat) (v : MeterSt) : (c.setMeter r i v).power.tripWait = c.power.tripWait := rfl
@[simp] theorem setMeter_power_standby (c : Chip) (r i : Nat) (v : MeterSt) : (c.setMeter r i v).power.standby = c.power.standby := rfl
@[simp] theorem setMeter_power_lowHold (c : Chip) (r i : Nat) (v : MeterSt) : (c.setMeter r i v).power.lowHold = c.power.lowHold := rfl
@[simp] theorem setMeter_power_wake (c : Chip) (r i : Nat) (v : MeterSt) : (c.setMeter r i v).power.wake = c.power.wake := rfl
@[simp] theorem setMeter_power_nextCause (c : Chip) (r i : Nat) (v : MeterSt) : (c.setMeter r i v).power.nextCause = c.power.nextCause := rfl
@[simp] theorem setMeter_power_cause (c : Chip) (r i : Nat) (v : MeterSt) : (c.setMeter r i v).power.cause = c.power.cause := rfl
@[simp] theorem setMeter_power_wakeSource (c : Chip) (r i : Nat) (v : MeterSt) : (c.setMeter r i v).power.wakeSource = c.power.wakeSource := rfl
@[simp] theorem setMeter_power_causeGiven (c : Chip) (r i : Nat) (v : MeterSt) : (c.setMeter r i v).power.causeGiven = c.power.causeGiven := rfl
@[simp] theorem setMeter_power_straps (c : Chip) (r i : Nat) (v : MeterSt) : (c.setMeter r i v).power.straps = c.power.straps := rfl
@[simp] theorem setMeter_power_vcoreSafe (c : Chip) (r i : Nat) (v : MeterSt) : (c.setMeter r i v).power.vcoreSafe = c.power.vcoreSafe := rfl
@[simp] theorem setMeter_power_fixed (c : Chip) (r i : Nat) (v : MeterSt) : (c.setMeter r i v).power.fixed = c.power.fixed := rfl
@[simp] theorem setMeter_power_vfCause (c : Chip) (r i : Nat) (v : MeterSt) : (c.setMeter r i v).power.vfCause = c.power.vfCause := rfl
@[simp] theorem setMeter_power_setpoint (c : Chip) (r i : Nat) (v : MeterSt) : (c.setMeter r i v).power.setpoint = c.power.setpoint := rfl
@[simp] theorem setMeter_power_vout (c : Chip) (r i : Nat) (v : MeterSt) : (c.setMeter r i v).power.vout = c.power.vout := rfl
@[simp] theorem setMeter_power_margin (c : Chip) (r i : Nat) (v : MeterSt) : (c.setMeter r i v).power.margin = c.power.margin := rfl
@[simp] theorem setMeter_power_wide (c : Chip) (r i : Nat) (v : MeterSt) : (c.setMeter r i v).power.wide = c.power.wide := rfl
@[simp] theorem setMeter_power_settling (c : Chip) (r i : Nat) (v : MeterSt) : (c.setMeter r i v).power.settling = c.power.settling := rfl
@[simp] theorem setMeter_power_raisedFrom (c : Chip) (r i : Nat) (v : MeterSt) : (c.setMeter r i v).power.raisedFrom = c.power.raisedFrom := rfl
@[simp] theorem setMeter_power_raises (c : Chip) (r i : Nat) (v : MeterSt) : (c.setMeter r i v).power.raises = c.power.raises := rfl
@[simp] theorem setMeter_power_lowers (c : Chip) (r i : Nat) (v : MeterSt) : (c.setMeter r i v).power.lowers = c.power.lowers := rfl
@[simp] theorem setMeter_power_pmbusFails (c : Chip) (r i : Nat) (v : MeterSt) : (c.setMeter r i v).power.pmbusFails = c.power.pmbusFails := rfl
@[simp] theorem setMeter_power_voutFails (c : Chip) (r i : Nat) (v : MeterSt) : (c.setMeter r i v).power.voutFails = c.power.voutFails := rfl
@[simp] theorem setMeter_power_coreHold (c : Chip) (r i : Nat) (v : MeterSt) : (c.setMeter r i v).power.coreHold = c.power.coreHold := rfl
@[simp] theorem setMeter_power_temps (c : Chip) (r i : Nat) (v : MeterSt) : (c.setMeter r i v).power.temps = c.power.temps := rfl
@[simp] theorem setMeter_power_excluded (c : Chip) (r i : Nat) (v : MeterSt) : (c.setMeter r i v).power.excluded = c.power.excluded := rfl
@[simp] theorem setMeter_power_rise (c : Chip) (r i : Nat) (v : MeterSt) : (c.setMeter r i v).power.rise = c.power.rise := rfl
@[simp] theorem setMeter_power_tjPast (c : Chip) (r i : Nat) (v : MeterSt) : (c.setMeter r i v).power.tjPast = c.power.tjPast := rfl
@[simp] theorem setMeter_power_step (c : Chip) (r i : Nat) (v : MeterSt) : (c.setMeter r i v).power.step = c.power.step := rfl
@[simp] theorem setMeter_power_ocWarn (c : Chip) (r i : Nat) (v : MeterSt) : (c.setMeter r i v).power.ocWarn = c.power.ocWarn := rfl
@[simp] theorem setMeter_power_coolSince (c : Chip) (r i : Nat) (v : MeterSt) : (c.setMeter r i v).power.coolSince = c.power.coolSince := rfl
@[simp] theorem setMeter_power_preview (c : Chip) (r i : Nat) (v : MeterSt) : (c.setMeter r i v).power.preview = c.power.preview := rfl
@[simp] theorem setMeter_power_throttle (c : Chip) (r i : Nat) (v : MeterSt) : (c.setMeter r i v).power.throttle = c.power.throttle := rfl
@[simp] theorem setMeter_power_fsHot (c : Chip) (r i : Nat) (v : MeterSt) : (c.setMeter r i v).power.fsHot = c.power.fsHot := rfl
@[simp] theorem setMeter_power_fsStacks (c : Chip) (r i : Nat) (v : MeterSt) : (c.setMeter r i v).power.fsStacks = c.power.fsStacks := rfl
@[simp] theorem setMeter_power_pacer (c : Chip) (r i : Nat) (v : MeterSt) : (c.setMeter r i v).power.pacer = c.power.pacer := rfl
@[simp] theorem setMeter_power_ramps (c : Chip) (r i : Nat) (v : MeterSt) : (c.setMeter r i v).power.ramps = c.power.ramps := rfl
@[simp] theorem setMeter_power_pipes (c : Chip) (r i : Nat) (v : MeterSt) : (c.setMeter r i v).power.pipes = c.power.pipes := rfl
@[simp] theorem setMeter_power_windowEnd (c : Chip) (r i : Nat) (v : MeterSt) : (c.setMeter r i v).power.windowEnd = c.power.windowEnd := rfl

end Chip

end Sys2Proof.Machine
end

