-- ==== Sys2Proof/Laws/Tilpo.lean ====
section
/-! SUPPORT. A command of the command set from its doorbell to its end, said once (R341 to R348). -/

namespace Sys2Proof.Machine

theorem SameSession.refl (u : Nat) (a : Option Session) : SameSession u a a := .inl rfl

theorem SameSession.trans {u : Nat} {a b c : Option Session} (h1 : SameSession u a b) (h2 : SameSession u b c) :
    SameSession u a c := by
  rcases h1 with rfl | ⟨z, rfl, rfl⟩
  · exact h2
  · rcases h2 with rfl | ⟨y, hy, rfl⟩
    · exact .inr ⟨z, rfl, rfl⟩
    · cases hy; exact .inr ⟨z, rfl, rfl⟩

theorem SameBox.refl (u : Nat) (b : Mailbox) : SameBox u b b := ⟨rfl, .refl _ _⟩

theorem SameBox.trans {u : Nat} {a b c : Mailbox} (h1 : SameBox u a b) (h2 : SameBox u b c) : SameBox u a c := by
  obtain ⟨e1, s1⟩ := h1
  obtain ⟨e2, s2⟩ := h2
  refine ⟨?_, s1.trans s2⟩
  rw [e1] at e2
  exact e2

/-- What the taking of a command writes before its own change: its mailbox, the audit log, the
trace, the counters, the count of mirrored changes, and an alert or a message for a ticket that ends. -/
def Wrote (c p : Chip) : Prop :=
  ∃ b a n h t t1 t2 t3 x g y z e u, p = { c with
    mbx.boxes := b, mbx.audit := a, mbx.auditNext := n, mbx.auditHash := h, ev.trace.queue := t, ev.trace.tseq := t1, ev.trace.dropped := t2, ev.trace.dropNew := t3,
    ev.counters := x, mgmt.mirrored := g, mt.src := y, mt.reported := z, seam.esnTx := e, seam.queue := u }

theorem Wrote.trans {c d e : Chip} (h1 : Wrote c d) (h2 : Wrote d e) : Wrote c e := by
  obtain ⟨_, _, _, _, _, _, _, _, _, _, _, _, _, _, rfl⟩ := h1
  obtain ⟨_, _, _, _, _, _, _, _, _, _, _, _, _, _, rfl⟩ := h2
  exact ⟨_, _, _, _, _, _, _, _, _, _, _, _, _, _, rfl⟩

/-- The chip in which a command in mailbox `mb` runs: nothing but its taking has been noted. -/
structure Noted (mb : Nat) (c p : Chip) : Prop where
  wrote : Wrote c p
  box : SameBox c.up (c.box mb) (p.box mb)
  other : ∀ k, k ≠ mb → p.box k = c.box k
  rsp : (p.box mb).rsp = (c.box mb).rsp

theorem Wrote.up {c p : Chip} (h : Wrote c p) : p.up = c.up := by
  obtain ⟨_, _, _, _, _, _, _, _, _, _, _, _, _, _, rfl⟩ := h; rfl

theorem Wrote.t64 {c p : Chip} (h : Wrote c p) : p.t64 = c.t64 := by
  obtain ⟨_, _, _, _, _, _, _, _, _, _, _, _, _, _, rfl⟩ := h; rfl

theorem Noted.trans {mb : Nat} {c d e : Chip} (h1 : Noted mb c d) (h2 : Noted mb d e) : Noted mb c e :=
  ⟨h1.wrote.trans h2.wrote, h1.box.trans (h1.wrote.up ▸ h2.box), fun k hk => (h2.other k hk).trans (h1.other k hk), h2.rsp.trans h1.rsp⟩

/-- The chip in which a command's checks run: its mailbox, the trace and the counters of the
trace and of commands are all that its taking has written. -/
structure Taken (mb : Nat) (c p : Chip) : Prop extends Noted mb c p where
  pre : ∃ b t t1 t2 t3 x, p = { c with mbx.boxes := b, ev.trace.queue := t, ev.trace.tseq := t1, ev.trace.dropped := t2, ev.trace.dropNew := t3, ev.counters := x }
  counters : ∀ k, k ≠ 0x49 → k ≠ 0x4D → k ≠ 0x4E → p.ev.counters.getD 0 k = c.ev.counters.getD 0 k

theorem Chip.setMbxState_wrote (c : Chip) (mb : Nat) (st : MbxState) : Wrote c (c.setMbxState mb st) := by
  obtain ⟨t, x, h⟩ := Chip.setMbxState_only c mb st
  rw [h]; exact ⟨_, _, _, _, _, _, _, _, _, _, _, _, _, _, rfl⟩

theorem Chip.setMbxState_box (c : Chip) (mb : Nat) (st : MbxState) :
    (c.setMbxState mb st).box mb = { c.box mb with state := st } := by
  obtain ⟨t, x, h⟩ := Chip.setMbxState_only c mb st
  rw [h]; exact Tab.getD_put_self ..

theorem Chip.setMbxState_box_other (c : Chip) {mb k : Nat} (st : MbxState) (hk : k ≠ mb) :
    (c.setMbxState mb st).box k = c.box k := by
  obtain ⟨t, x, h⟩ := Chip.setMbxState_only c mb st
  rw [h]; exact Tab.getD_put_other _ _ _ hk

theorem Chip.endCommand_box (c : Chip) (mb status flags : Nat) (rsp : List Byte) :
    (c.endCommand mb status flags rsp).box mb =
      { Chip.answered (c.box mb) status flags rsp with state := if c.boxFrozen mb then .held else .done } := by
  obtain ⟨t, x, fs, ps, a, b, e, q, h⟩ := Chip.endCommand_only c mb status flags rsp
  rw [h]; exact Tab.getD_put_self ..

/-- The context in which a command's own checks run. -/
def runCtx (op mb : Nat) (c : Chip) : Ctx := { c.ctxOf mb with opcode := op, doorbell := c.t64 }

@[simp] theorem runCtx_mb (op mb : Nat) (c : Chip) : (runCtx op mb c).mb = mb := rfl
@[simp] theorem runCtx_opcode (op mb : Nat) (c : Chip) : (runCtx op mb c).opcode = op := rfl
@[simp] theorem runCtx_session (op mb : Nat) (c : Chip) :
    (runCtx op mb c).session = (c.box mb).session := rfl
@[simp] theorem runCtx_sess (op mb : Nat) (c : Chip) : (runCtx op mb c).sess = (c.ctxOf mb).sess := rfl
@[simp] theorem runCtx_role (op mb : Nat) (c : Chip) : (runCtx op mb c).role = (c.ctxOf mb).role := rfl
@[simp] theorem runCtx_slot (op mb : Nat) (c : Chip) : (runCtx op mb c).slot = (c.ctxOf mb).slot := rfl
@[simp] theorem runCtx_grantAll (op mb : Nat) (c : Chip) : (runCtx op mb c).grantAll = (c.ctxOf mb).grantAll := rfl
@[simp] theorem runCtx_doorbell (op mb : Nat) (c : Chip) : (runCtx op mb c).doorbell = c.t64 := rfl

theorem ctxOf_of_box (m : Cmd) (mb : Nat) (req : List Byte) (st : MbxState) {c p : Chip} (hn : Wrote c p)
    (hb : ∃ q o t u, p.box mb = { c.box mb with
      opcode := m.opcode, length := req.length, req := Mem.writeBytes [] 0 (req.take 4096), state := st, stateSeq := q,
      order := o, doorbell := t, deadlineAt := u, cancelDue := false, commitAt := none, parked := none } ∧ t = c.t64) :
    p.ctxOf mb = runCtx m.opcode mb c := by
  obtain ⟨q, o, t, u, hb, rfl⟩ := hb
  obtain ⟨_, _, _, _, _, _, _, _, _, _, _, _, _, _, rfl⟩ := hn
  simp only [runCtx, Chip.ctxOf, hb]
  rfl

/-- The request bytes that the firmware reads are the ones that were written. -/
theorem requestOf_eq {p : Chip} {mb : Nat} {req : List Byte} (hl : req.length ≤ 4096)
    (h1 : (p.box mb).length = req.length) (h2 : (p.box mb).req = Mem.writeBytes [] 0 (req.take 4096)) :
    p.requestOf mb = req := by
  unfold Chip.requestOf
  rw [h1, h2, List.take_of_length_le hl, Nat.min_eq_left hl]
  exact Mem.readBytes_writeBytes 0 req rfl

theorem mayIssue_noted {m : Cmd} {x : Ctx} {req : List Byte} {c p : Chip} (hs : m.scope p x.mb req = m.scope c x.mb req) :
    p.mayIssue m x req = c.mayIssue m x req := by
  unfold Chip.mayIssue
  simp only [hs]

/-- What the taking of a command writes. -/
def Pre (c p : Chip) : Prop :=
  (∃ b t t1 t2 t3 x, p = { c with mbx.boxes := b, ev.trace.queue := t, ev.trace.tseq := t1, ev.trace.dropped := t2, ev.trace.dropNew := t3, ev.counters := x }) ∧
  ∀ k, k ≠ 0x49 → k ≠ 0x4D → k ≠ 0x4E → p.ev.counters.getD 0 k = c.ev.counters.getD 0 k

theorem Pre.wrote {c p : Chip} (h : Pre c p) : Wrote c p := by
  obtain ⟨⟨_, _, _, _, _, _, rfl⟩, _⟩ := h
  exact ⟨_, _, _, _, _, _, _, _, _, _, _, _, _, _, rfl⟩

theorem Pre.trans {c d e : Chip} (h1 : Pre c d) (h2 : Pre d e) : Pre c e := by
  obtain ⟨⟨_, _, _, _, _, _, rfl⟩, k1⟩ := h1
  obtain ⟨⟨_, _, _, _, _, _, rfl⟩, k2⟩ := h2
  exact ⟨⟨_, _, _, _, _, _, rfl⟩, fun k a b c => (k2 k a b c).trans (k1 k a b c)⟩

theorem count_pre (c : Chip) (k n : Nat) (h : k = 0x49 ∨ k = 0x4D ∨ k = 0x4E) : Pre c (c.count k n) := by
  unfold Chip.count
  split
  · exact ⟨⟨_, _, _, _, _, _, rfl⟩, fun _ _ _ _ => rfl⟩
  · refine ⟨⟨_, _, _, _, _, _, rfl⟩, fun j h1 h2 h3 => ?_⟩
    exact Tab.getD_put_other _ _ _ (by omega)

theorem trace_pre (c : Chip) (g kind : Nat) (data : List Byte) (time : Nat) : Pre c (c.trace g kind data time) := by
  unfold Chip.trace; dsimp only; split
  · exact ⟨⟨_, _, _, _, _, _, rfl⟩, fun _ _ _ _ => rfl⟩
  · split
    · exact Pre.trans ⟨⟨_, _, _, _, _, _, rfl⟩, fun _ _ _ _ => rfl⟩ (count_pre _ _ _ (by omega))
    · exact Pre.trans ⟨⟨_, _, _, _, _, _, rfl⟩, fun _ _ _ _ => rfl⟩ (count_pre _ _ _ (by omega))

theorem setBox_pre (c : Chip) (mb : Nat) (b : Mailbox) : Pre c (c.setBox mb b) :=
  ⟨⟨_, _, _, _, _, _, rfl⟩, fun _ _ _ _ => rfl⟩

theorem setMbxState_pre (c : Chip) (mb : Nat) (st : MbxState) : Pre c (c.setMbxState mb st) :=
  (setBox_pre _ _ _).trans (trace_pre _ _ _ _ _)

theorem ringBell_pre (c : Chip) (mb : Nat) (hs : c.power.standby = false) : Pre c (c.ringBell mb) := by
  unfold Chip.ringBell; dsimp only
  generalize c.queued (c.box mb) = b
  have h : Pre c ((c.setBox mb b).traceOpen 1 0) := (setBox_pre _ _ _).trans (trace_pre _ _ _ _ _)
  have h2 : ((c.setBox mb b).traceOpen 1 0).power = c.power := by
    obtain ⟨⟨_, _, _, _, _, _, e⟩, _⟩ := h; rw [e]
  rw [if_neg (by rw [h2]; simp [hs])]
  exact h

theorem count_wrote (c : Chip) (k n : Nat) : Wrote c (c.count k n) := by
  obtain ⟨x, h⟩ := Chip.count_only c k n
  rw [h]; exact ⟨_, _, _, _, _, _, _, _, _, _, _, _, _, _, rfl⟩

theorem count_box (c : Chip) (k n mb : Nat) : (c.count k n).box mb = c.box mb := by
  obtain ⟨x, h⟩ := Chip.count_only c k n
  rw [h]; rfl

/-- The command is taken: its checks run on a chip in which only the taking has been noted. -/
theorem tilpo_taken {m : Cmd} {mb : Nat} {req : List Byte} {d : Dev} (h : Issues m mb req d.chip)
    (hscope : ∀ p, Noted mb d.chip p → m.scope p mb req = m.scope d.chip mb req) :
    ∃ p, Taken mb d.chip p ∧
      tilpo m mb req d =
        finish m (runCtx m.opcode mb d.chip) req (m.body (runCtx m.opcode mb d.chip) req { d with chip := p }) { d with chip := p } := by
  obtain ⟨c, mem⟩ := d
  simp only at h hscope ⊢
  unfold tilpo
  simp only [h.up, h.reach, Bool.not_true, Bool.or_self, Bool.false_eq_true, if_false]
  rw [if_pos (by simpa using h.free)]
  generalize hb0 : ({ c.box mb with
    opcode := m.opcode, length := req.length, req := Mem.writeBytes [] 0 (req.take 4096) } : Mailbox) = b0
  obtain ⟨t, x, hr⟩ := Chip.ringBell_only (c.setBox mb b0) mb h.awake
  rw [Chip.box_setBox] at hr
  have hr1 : ((c.setBox mb b0).ringBell mb).box mb = c.queued b0 := by rw [hr]; exact Tab.getD_put_self ..
  have hr2 : ∀ k, k ≠ mb → ((c.setBox mb b0).ringBell mb).box k = c.box k := by
    intro k hk; rw [hr]
    exact (Tab.getD_put_other _ _ _ hk).trans (Tab.getD_put_other _ _ _ hk)
  have hrn : Pre c ((c.setBox mb b0).ringBell mb) := (setBox_pre c mb b0).trans (ringBell_pre _ mb h.awake)
  clear hr
  generalize (c.setBox mb b0).ringBell mb = c1 at hr1 hr2 hrn ⊢
  rw [if_pos (by rw [hr1, h.turn]; rfl)]
  unfold takeWith
  have hk1 : ((c1.setMbxState mb .running).count 0x49 1).box mb = { c.queued b0 with state := .running } := by
    rw [count_box, Chip.setMbxState_box, hr1]
  have hk2 : ∀ k, k ≠ mb → ((c1.setMbxState mb .running).count 0x49 1).box k = c.box k := by
    intro k hk; rw [count_box, Chip.setMbxState_box_other _ _ hk, hr2 k hk]
  have hkn : Pre c ((c1.setMbxState mb .running).count 0x49 1) :=
    (hrn.trans (setMbxState_pre _ _ _)).trans (count_pre _ _ _ (by omega))
  simp only
  generalize (c1.setMbxState mb .running).count 0x49 1 = c2 at hk1 hk2 hkn ⊢
  have ht : (c2.box mb).target = 0x3FF ∨ some (c2.box mb).target = c2.seam.id := by
    rw [hk1]
    obtain ⟨⟨_, _, _, _, _, _, rfl⟩, _⟩ := hkn
    subst hb0; exact h.here
  rw [if_pos (by rcases ht with ht | ht <;> simp [ht])]
  unfold runLocal
  have hx : c2.ctxOf mb = runCtx m.opcode mb c := by
    apply ctxOf_of_box m mb req .running hkn.wrote
    subst hb0; exact ⟨_, _, _, _, hk1, rfl⟩
  have hq : c2.requestOf mb = req := by
    apply requestOf_eq h.len
    · rw [hk1]; subst hb0; rfl
    · rw [hk1]; subst hb0; rfl
  simp only [hx, hq]
  generalize hc3 : c2.useSession (runCtx m.opcode mb c).sess mb = c3
  have h3 : Taken mb c c3 ∧ (c3.box mb).length = req.length := by
    unfold Chip.useSession at hc3
    split at hc3
    · rename_i s hs
      have hz : (c.box mb).sess = some s := by
        simp only [runCtx, Chip.ctxOf] at hs
        split at hs
        · rename_i z hz
          split at hs
          · rw [← hs]; exact hz
          · cases hs
        · cases hs
      subst hc3
      have hp2 := hkn.trans (setBox_pre c2 mb { c2.box mb with sess := some { s with used := c2.up } })
      refine ⟨⟨⟨hp2.wrote, ?_, ?_, ?_⟩, hp2.1, hp2.2⟩, ?_⟩
      · rw [Chip.box_setBox, hk1]; subst hb0
        exact ⟨rfl, .inr ⟨s, hz, by rw [hkn.wrote.up]⟩⟩
      · intro k hk; rw [Chip.box_setBox_other _ _ hk]; exact hk2 k hk
      · rw [Chip.box_setBox, hk1]; subst hb0; rfl
      · rw [Chip.box_setBox, hk1]; subst hb0; rfl
    · subst hc3
      refine ⟨⟨⟨hkn.wrote, ?_, hk2, ?_⟩, hkn.1, hkn.2⟩, ?_⟩
      · rw [hk1]; subst hb0; exact ⟨rfl, .inl rfl⟩
      · rw [hk1]; subst hb0; rfl
      · rw [hk1]; subst hb0; rfl
  obtain ⟨h3n, hlen⟩ := h3
  clear hc3 hx hq ht hk1 hk2 hkn
  refine ⟨c3, h3n, ?_⟩
  have hpair : c3.pairActive = true := by
    obtain ⟨_, _, _, _, _, _, _, _, _, _, _, _, _, _, rfl⟩ := h3n.wrote; exact h.pair
  have hrec : c3.power.recovery = false := by
    obtain ⟨_, _, _, _, _, _, _, _, _, _, _, _, _, _, rfl⟩ := h3n.wrote; exact h.normal
  have hst : c3.stageNo = c.stageNo := by
    obtain ⟨_, _, _, _, _, _, _, _, _, _, _, _, _, _, rfl⟩ := h3n.wrote; rfl
  have hmay : c3.mayIssue m (runCtx m.opcode mb c) req = true := by
    rw [mayIssue_noted (c := c) (hscope c3 h3n.toNoted)]; exact h.right
  have hle : decide (c3.stageNo < m.stage) = false := by
    rw [hst]; exact decide_eq_false (Nat.not_lt.mpr h.stage)
  simp only [hpair, hrec, hlen, h.len, h.size, hmay, hle, Bool.not_true, Bool.not_false, Bool.and_true, Bool.false_and,
    decide_true, Bool.false_eq_true, if_false, Bool.or_true, Bool.and_self]
  split
  · rename_i st rsp he; rw [he]
  · rfl

/-- What the end of a command writes once its own change stands: its mailbox, the trace, the counters, its interrupt, alert
or answer, and the stored configuration. -/
structure Closing (mb : Nat) (c t : Chip) : Prop where
  wrote : ∃ bs tr t1 t2 t3 x fs ps a b e q cfg, t = { c with
    mbx.boxes := bs, ev.trace.queue := tr, ev.trace.tseq := t1, ev.trace.dropped := t2,
    ev.trace.dropNew := t3, ev.counters := x, hosts.fns := fs, hosts.ports := ps, mt.src := a, mt.reported := b,
    seam.esnTx := e, seam.queue := q, board.cfg := cfg }
  box : SameBox c.up (c.box mb) (t.box mb)
  other : ∀ k, k ≠ mb → t.box k = c.box k
  host : ∀ p, ∃ u w n, t.host p = { c.host p with qU := u, uWait := w, discarded := n }
  fn : ∀ f, ∃ x, t.fn f = { c.fn f with msix := x }

/-- A class U TLP goes into the issue queue or waits before it. -/
theorem Chip.pushU_eq (h : HostSt) (t : Tlp) : ∃ u w, Chip.pushU h t = { h with qU := u, uWait := w } := by
  unfold Chip.pushU; split <;> exact ⟨_, _, rfl⟩

theorem Chip.msix_host (c : Chip) (f v p : Nat) :
    ∃ u w n, (c.msix f v).host p = { c.host p with qU := u, uWait := w, discarded := n } := by
  have hput : ∀ x : HostSt, (∃ u w n, x = { c.host (f / 128) with qU := u, uWait := w, discarded := n }) →
      ∃ u w n, (c.setHost (f / 128) x).host p = { c.host p with qU := u, uWait := w, discarded := n } := by
    rintro x ⟨u, w, n, rfl⟩
    unfold Chip.setHost Chip.host
    simp only [Tab.getD_put]
    split
    · rename_i h; subst h; exact ⟨_, _, _, rfl⟩
    · exact ⟨_, _, _, rfl⟩
  unfold Chip.msix; dsimp only
  split
  · exact ⟨_, _, _, rfl⟩
  · split
    · exact ⟨_, _, _, rfl⟩
    · split
      · exact hput _ ⟨_, _, _, rfl⟩
      · obtain ⟨u, w, h⟩ := Chip.pushU_eq (c.host (f / 128)) _
        exact hput _ ⟨u, w, _, h⟩

theorem Chip.msix_fn (c : Chip) (f v g : Nat) : ∃ x, (c.msix f v).fn g = { c.fn g with msix := x } := by
  unfold Chip.msix; dsimp only
  split
  · exact ⟨_, rfl⟩
  · split
    · unfold Chip.setFn Chip.fn
      simp only [Tab.getD_put]
      split
      · rename_i h; subst h; exact ⟨_, rfl⟩
      · exact ⟨_, rfl⟩
    · split <;> exact ⟨_, rfl⟩

theorem Chip.signalEnd_host (c : Chip) (mb p : Nat) :
    ∃ u w n, (c.signalEnd mb).host p = { c.host p with qU := u, uWait := w, discarded := n } := by
  unfold Chip.signalEnd; dsimp only
  split
  · exact ⟨_, _, _, rfl⟩
  · split
    · obtain ⟨a, b, h⟩ := Chip.alert_only c 4
      rw [h]; exact ⟨_, _, _, rfl⟩
    · split
      · exact Chip.msix_host ..
      · exact ⟨_, _, _, rfl⟩

theorem Chip.signalEnd_fn (c : Chip) (mb g : Nat) : ∃ x, (c.signalEnd mb).fn g = { c.fn g with msix := x } := by
  unfold Chip.signalEnd; dsimp only
  split
  · exact ⟨_, rfl⟩
  · split
    · obtain ⟨a, b, h⟩ := Chip.alert_only c 4
      rw [h]; exact ⟨_, rfl⟩
    · split
      · exact Chip.msix_fn ..
      · exact ⟨_, rfl⟩

theorem Chip.endCommand_closing (c : Chip) (mb status flags : Nat) (rsp : List Byte) :
    Closing mb c (c.endCommand mb status flags rsp) := by
  obtain ⟨t, x, fs, ps, a, b, e, q, h⟩ := Chip.endCommand_only c mb status flags rsp
  refine ⟨⟨_, _, _, _, _, _, _, _, _, _, _, _, _, h⟩, ?_, ?_, ?_, ?_⟩
  · rw [Chip.endCommand_box]; exact ⟨rfl, .inl rfl⟩
  · intro k hk; rw [h]; exact Tab.getD_put_other _ _ _ hk
  all_goals
    clear h
    unfold Chip.endCommand; dsimp only
    generalize Chip.answered (c.box mb) status flags rsp = bx
    obtain ⟨y, h2⟩ := Chip.countEnd_only (c.setBox mb bx) status
    simp only [h2]
    generalize hc : ({ c.setBox mb bx with ev.counters := y } : Chip) = c1
    have hh : c1.hosts = c.hosts := by subst hc; rfl
    have hs : ∀ st, (c1.setMbxState mb st).hosts = c.hosts := by
      intro st; obtain ⟨t, x, h⟩ := Chip.setMbxState_only c1 mb st; rw [h]; exact hh
    have hos : ∀ st k, (c1.setMbxState mb st).host k = c.host k := by
      intro st k; unfold Chip.host; rw [hs]
    have hfs : ∀ st k, (c1.setMbxState mb st).fn k = c.fn k := by
      intro st k; unfold Chip.fn; rw [hs]
  · intro p
    split
    · exact ⟨_, _, _, by rw [hos]⟩
    · split
      · obtain ⟨e, q, h4⟩ := Chip.originate_only (c1.setMbxState mb .done) 3 0x31 (mb - 0x8000) 0 (Chip.headerBytes bx ++ rsp)
        rw [h4]
        exact ⟨_, _, _, hos .done p⟩
      · obtain ⟨u, w, n, h⟩ := Chip.signalEnd_host (c1.setMbxState mb .done) mb p
        rw [h, hos]; exact ⟨_, _, _, rfl⟩
  · intro f
    split
    · exact ⟨_, by rw [hfs]⟩
    · split
      · obtain ⟨e, q, h4⟩ := Chip.originate_only (c1.setMbxState mb .done) 3 0x31 (mb - 0x8000) 0 (Chip.headerBytes bx ++ rsp)
        rw [h4]
        exact ⟨_, hfs .done f⟩
      · obtain ⟨u, h⟩ := Chip.signalEnd_fn (c1.setMbxState mb .done) mb f
        rw [h, hfs]; exact ⟨_, rfl⟩

theorem Closing.trans {mb : Nat} {a b c : Chip} (h1 : Closing mb a b) (h2 : Closing mb b c) : Closing mb a c := by
  obtain ⟨_, _, _, _, _, _, _, _, _, _, _, _, _, e1⟩ := h1.wrote
  obtain ⟨_, _, _, _, _, _, _, _, _, _, _, _, _, e2⟩ := h2.wrote
  refine ⟨⟨_, _, _, _, _, _, _, _, _, _, _, _, _, by rw [e2, e1]⟩, h1.box.trans (by
    have : b.up = a.up := by rw [e1]; rfl
    exact this ▸ h2.box),
    fun k hk => (h2.other k hk).trans (h1.other k hk), ?_, ?_⟩
  · intro p
    obtain ⟨u, w, n, h⟩ := h1.host p
    obtain ⟨u', w', n', h'⟩ := h2.host p
    rw [h', h]; exact ⟨_, _, _, rfl⟩
  · intro f
    obtain ⟨u, h⟩ := h1.fn f
    obtain ⟨u', h'⟩ := h2.fn f
    rw [h', h]; exact ⟨_, rfl⟩

theorem Chip.journal_closing (c : Chip) (mb : Nat) (m : Cmd) (req : List Byte) : Closing mb c (c.journal m req) := by
  obtain ⟨x, h⟩ := Chip.journal_only c m req
  rw [h]
  exact ⟨⟨_, _, _, _, _, _, _, _, _, _, _, _, _, rfl⟩, SameBox.refl _ _, fun _ _ => rfl, fun p => ⟨_, _, _, rfl⟩, fun f => ⟨_, rfl⟩⟩

/-- A command that ends with a status and a response shows both. -/
theorem Chip.endCommand_ended {c : Chip} {mb status flags : Nat} {rsp : List Byte} {area : Mem}
    (hf : c.boxFrozen mb = false) (ha : (c.box mb).rsp = area) :
    Ended mb status area rsp (c.endCommand mb status flags rsp) := by
  unfold Ended
  rw [Chip.endCommand_box, hf]
  subst ha
  exact ⟨rfl, rfl, rfl, rfl⟩

theorem boxFrozen_of_reaches {c : Chip} {mb : Nat} (h : c.reaches mb = true) : c.boxFrozen mb = false := by
  unfold Chip.boxFrozen
  unfold Chip.reaches at h
  by_cases hm : mb < 256
  · have : ¬ 256 ≤ mb := by omega
    simp only [this, decide_false, Bool.false_or, Bool.and_eq_true] at h
    have h1 := h.1.1.1
    simp only [hm, decide_true, Bool.true_and]
    cases hs : (c.host (mb / 128)).state <;> rw [hs] at h1 <;> first | rfl | (exact absurd h1 (by decide))
  · simp [hm]

/-- The commit point (R346): what stands before the change is noted, the change is made, and its end is written. -/
theorem commitCmd_eq {m : Cmd} {x : Ctx} {req : List Byte} {status flags : Nat} {f : Dev → Dev × List Byte} {d : Dev}
    (ha : d.chip.mbx.auditOk = true) :
    ∃ q, Noted x.mb d.chip q ∧
      commitCmd m x req status flags f d =
        { (f { d with chip := q }).1 with
          chip := ((f { d with chip := q }).1.chip.journal m req).endCommand x.mb status (flags + 1)
            (f { d with chip := q }).2 } := by
  unfold commitCmd
  simp only [ha, Bool.not_true, Bool.false_eq_true, if_false]
  have h0 : Noted x.mb d.chip (d.chip.setBox x.mb { d.chip.box x.mb with commitAt := some d.chip.up }) :=
    ⟨⟨_, _, _, _, _, _, _, _, _, _, _, _, _, _, rfl⟩, by rw [Chip.box_setBox]; exact ⟨rfl, .inl rfl⟩,
     fun k hk => Chip.box_setBox_other _ _ hk, by rw [Chip.box_setBox]⟩
  generalize d.chip.setBox x.mb { d.chip.box x.mb with commitAt := some d.chip.up } = c0 at h0 ⊢
  have hb := Chip.setMbxState_box c0 x.mb .committed
  have ho := fun k hk => Chip.setMbxState_box_other c0 (mb := x.mb) (k := k) .committed hk
  have hn := Chip.setMbxState_wrote c0 x.mb .committed
  generalize c0.setMbxState x.mb .committed = c1 at hb ho hn ⊢
  have haud : ∃ a n h, (if m.opcode = 0x0902 then
        c1.audit 1 x.opcode status (u8 req 0) (u8 req 1) x.mb c1.newHandle (Chip.reqDigest (c1.box x.mb) req)
      else c1.audit 0 x.opcode status x.role x.slot x.mb x.session (Chip.reqDigest (c1.box x.mb) req)) =
      { c1 with mbx.audit := a, mbx.auditNext := n, mbx.auditHash := h } := by
    split <;> exact ⟨_, _, _, rfl⟩
  obtain ⟨a, n, h, h1⟩ := haud
  obtain ⟨g, h2⟩ := Chip.mirror_only { c1 with mbx.audit := a, mbx.auditNext := n, mbx.auditHash := h }
  rw [h1, h2]
  refine ⟨_, h0.trans ⟨?_, ?_, ?_, ?_⟩, rfl⟩
  · exact hn.trans ⟨_, _, _, _, _, _, _, _, _, _, _, _, _, _, rfl⟩
  · show SameBox c0.up (c0.box x.mb) (c1.box x.mb)
    rw [hb]; exact ⟨rfl, .inl rfl⟩
  · intro k hk; exact ho k hk
  · show (c1.box x.mb).rsp = _
    rw [hb]

theorem Wrote.hosts {c p : Chip} (h : Wrote c p) : p.hosts = c.hosts := by
  obtain ⟨_, _, _, _, _, _, _, _, _, _, _, _, _, _, rfl⟩ := h; rfl

theorem Wrote.auditOk {c p : Chip} (h : Wrote c p) : p.mbx.auditOk = c.mbx.auditOk := by
  obtain ⟨_, _, _, _, _, _, _, _, _, _, _, _, _, _, rfl⟩ := h; rfl

theorem Wrote.tickets {c p : Chip} (h : Wrote c p) : p.mbx.tickets = c.mbx.tickets := by
  obtain ⟨_, _, _, _, _, _, _, _, _, _, _, _, _, _, rfl⟩ := h; rfl

theorem Wrote.nextTicket {c p : Chip} (h : Wrote c p) : p.mbx.nextTicket = c.mbx.nextTicket := by
  obtain ⟨_, _, _, _, _, _, _, _, _, _, _, _, _, _, rfl⟩ := h; rfl

theorem Noted.dry {m : Cmd} {mb : Nat} {req : List Byte} {c p : Chip} (hp : Noted mb c p) (h : Issues m mb req c) :
    bit (p.box mb).reqFlags 1 = false := by
  rw [hp.box.1]; exact h.wet

/-- A chip that has the same port states does not freeze the mailbox. -/
theorem boxFrozen_congr {c d : Chip} (mb : Nat) (h : d.hosts.ports = c.hosts.ports) : d.boxFrozen mb = c.boxFrozen mb := by
  unfold Chip.boxFrozen Chip.host; rw [h]

/-- A command whose checks all pass and that commits: its change is made, and its mailbox shows OK. -/
theorem tilpo_commit {m : Cmd} {mb : Nat} {req : List Byte} {d : Dev} (h : Issues m mb req d.chip)
    (hscope : ∀ p, Noted mb d.chip p → m.scope p mb req = m.scope d.chip mb req)
    {f : Chip → Dev → Dev × List Byte}
    (hbody : ∀ p, Taken mb d.chip p → m.body (runCtx m.opcode mb d.chip) req { d with chip := p } = .commit (f p))
    (hbox : ∀ p q, Taken mb d.chip p → Noted mb d.chip q →
      ((f p { d with chip := q }).1.chip.box mb).rsp = (q.box mb).rsp ∧
      (f p { d with chip := q }).1.chip.boxFrozen mb = q.boxFrozen mb) :
    ∃ p q t, Taken mb d.chip p ∧ Noted mb d.chip q ∧ Closing mb (f p { d with chip := q }).1.chip t ∧
      Ended mb stOK (d.chip.box mb).rsp (f p { d with chip := q }).2 t ∧
      tilpo m mb req d = { (f p { d with chip := q }).1 with chip := t } := by
  obtain ⟨p, hp, he⟩ := tilpo_taken h hscope
  rw [he, hbody p hp]
  unfold finish
  have hdry := hp.dry h
  have hmb : (runCtx m.opcode mb d.chip).mb = mb := rfl
  simp only [hmb, hdry, Bool.false_eq_true, if_false]
  obtain ⟨q, hq, hc⟩ := commitCmd_eq (m := m) (x := runCtx m.opcode mb d.chip) (req := req) (status := stOK)
    (flags := 0) (f := f p) (d := { d with chip := p }) (by rw [hp.wrote.auditOk]; exact h.audit)
  refine ⟨p, q, _, hp, hp.toNoted.trans hq, ?_, ?_, hc⟩
  · exact (Chip.journal_closing _ mb _ _).trans (Chip.endCommand_closing _ _ _ _ _)
  · obtain ⟨h1, h2⟩ := hbox p q hp (hp.toNoted.trans hq)
    obtain ⟨cfg, hj⟩ := Chip.journal_only (f p { d with chip := q }).1.chip m req
    apply Chip.endCommand_ended
    · rw [hj]
      refine Eq.trans (boxFrozen_congr mb rfl) (h2.trans ?_)
      rw [boxFrozen_congr (c := d.chip) mb (by rw [(hp.toNoted.trans hq).wrote.hosts])]
      exact boxFrozen_of_reaches h.reach
    · rw [hj]
      exact h1.trans (hp.toNoted.trans hq).rsp

/-- A command that ends without a commit point (a read): its answer stands in its mailbox. -/
theorem tilpo_ends {m : Cmd} {mb : Nat} {req : List Byte} {d : Dev} (h : Issues m mb req d.chip)
    (hscope : ∀ p, Noted mb d.chip p → m.scope p mb req = m.scope d.chip mb req)
    {st : Chip → Nat} {fl : Chip → Nat} {rsp : Chip → List Byte} {f : Chip → Dev → Dev}
    (hbody : ∀ p, Taken mb d.chip p →
      m.body (runCtx m.opcode mb d.chip) req { d with chip := p } = .ends (st p) (fl p) (rsp p) (f p))
    (hbox : ∀ p, Taken mb d.chip p → ((f p { d with chip := p }).chip.box mb).rsp = (p.box mb).rsp ∧
      (f p { d with chip := p }).chip.boxFrozen mb = p.boxFrozen mb) :
    ∃ p t, Taken mb d.chip p ∧ Closing mb (f p { d with chip := p }).chip t ∧
      Ended mb (st p) (d.chip.box mb).rsp (rsp p) t ∧
      tilpo m mb req d = { f p { d with chip := p } with chip := t } := by
  obtain ⟨p, hp, he⟩ := tilpo_taken h hscope
  rw [he, hbody p hp]
  unfold finish
  have hdry := hp.dry h
  have hmb : (runCtx m.opcode mb d.chip).mb = mb := rfl
  simp only [hmb, hdry, Bool.false_eq_true, if_false]
  refine ⟨p, _, hp, Chip.endCommand_closing _ _ _ _ _, ?_, rfl⟩
  obtain ⟨h1, h2⟩ := hbox p hp
  apply Chip.endCommand_ended
  · refine h2.trans ?_
    rw [boxFrozen_congr (c := d.chip) mb (by rw [hp.wrote.hosts])]
    exact boxFrozen_of_reaches h.reach
  · exact h1.trans hp.rsp

/-- The device with the ticket of a command opened. -/
def ticketed (m : Cmd) (mb : Nat) (d : Dev) (kind : Nat → TicketKind) (inst : Nat) (q : Chip) : Dev :=
  { d with chip := q.openTicket (runCtx m.opcode mb d.chip) inst (kind d.chip.mbx.nextTicket) }

/-- A command that commits now and makes its change later: its mailbox shows PENDING with the ticket (R347). -/
theorem tilpo_later {m : Cmd} {mb : Nat} {req : List Byte} {d : Dev} (h : Issues m mb req d.chip)
    (hscope : ∀ p, Noted mb d.chip p → m.scope p mb req = m.scope d.chip mb req) (htk : d.chip.mbx.tickets.length < 64)
    {kind : Chip → Nat → TicketKind} {inst : Chip → Nat} {f : Chip → Nat → Dev → Dev × List Byte}
    (hbody : ∀ p, Taken mb d.chip p → m.body (runCtx m.opcode mb d.chip) req { d with chip := p } = .later (kind p) (inst p) (f p))
    (hbox : ∀ p q, Taken mb d.chip p → Noted mb d.chip q →
      ((f p d.chip.mbx.nextTicket (ticketed m mb d (kind p) (inst p) q)).1.chip.box mb).rsp = (q.box mb).rsp ∧
      (f p d.chip.mbx.nextTicket (ticketed m mb d (kind p) (inst p) q)).1.chip.boxFrozen mb = q.boxFrozen mb) :
    ∃ p q t, Taken mb d.chip p ∧ Noted mb d.chip q ∧
      Closing mb (f p d.chip.mbx.nextTicket (ticketed m mb d (kind p) (inst p) q)).1.chip t ∧
      Ended mb stPENDING (d.chip.box mb).rsp (le 4 d.chip.mbx.nextTicket ++ le 4 0 ++
        (f p d.chip.mbx.nextTicket (ticketed m mb d (kind p) (inst p) q)).2) t ∧
      tilpo m mb req d = { (f p d.chip.mbx.nextTicket (ticketed m mb d (kind p) (inst p) q)).1 with chip := t } := by
  obtain ⟨p, hp, he⟩ := tilpo_taken h hscope
  rw [he, hbody p hp]
  unfold finish
  have hdry := hp.dry h
  have hmb : (runCtx m.opcode mb d.chip).mb = mb := rfl
  have hlt : ¬ 64 ≤ p.mbx.tickets.length := by rw [hp.wrote.tickets]; omega
  have hid := hp.wrote.nextTicket
  simp only [hmb, hdry, hlt, hid, Bool.false_eq_true, if_false]
  obtain ⟨q, hq, hc⟩ := commitCmd_eq (m := m) (x := runCtx m.opcode mb d.chip) (req := req) (status := stPENDING)
    (flags := 2) (f := fun d0 =>
        ((f p d.chip.mbx.nextTicket (d0.onChip fun c => c.openTicket (runCtx m.opcode mb d.chip) (inst p)
          (kind p d.chip.mbx.nextTicket))).1, le 4 d.chip.mbx.nextTicket ++ le 4 0 ++
         (f p d.chip.mbx.nextTicket (d0.onChip fun c => c.openTicket (runCtx m.opcode mb d.chip) (inst p)
          (kind p d.chip.mbx.nextTicket))).2))
    (d := { d with chip := p }) (by rw [hp.wrote.auditOk]; exact h.audit)
  have hd : Dev.onChip (fun c => c.openTicket (runCtx m.opcode mb d.chip) (inst p) (kind p d.chip.mbx.nextTicket))
      { d with chip := q } = ticketed m mb d (kind p) (inst p) q := rfl
  simp only [hd] at hc
  refine ⟨p, q, _, hp, hp.toNoted.trans hq, ?_, ?_, hc⟩
  · exact (Chip.journal_closing _ mb _ _).trans (Chip.endCommand_closing _ _ _ _ _)
  · obtain ⟨h1, h2⟩ := hbox p q hp (hp.toNoted.trans hq)
    obtain ⟨cfg, hj⟩ := Chip.journal_only
      (f p d.chip.mbx.nextTicket (ticketed m mb d (kind p) (inst p) q)).1.chip m req
    apply Chip.endCommand_ended
    · rw [hj]
      refine Eq.trans (boxFrozen_congr mb rfl) (h2.trans ?_)
      rw [boxFrozen_congr (c := d.chip) mb (by rw [(hp.toNoted.trans hq).wrote.hosts])]
      exact boxFrozen_of_reaches h.reach
    · rw [hj]
      exact h1.trans (hp.toNoted.trans hq).rsp

/-- A committed change of the chip alone that leaves the mailboxes and the port states as they are. -/
theorem tilpo_doC {m : Cmd} {mb : Nat} {req : List Byte} {d : Dev} (h : Issues m mb req d.chip)
    (hscope : ∀ p, Noted mb d.chip p → m.scope p mb req = m.scope d.chip mb req) {g : Chip → Chip → Chip}
    (hbody : ∀ p, Taken mb d.chip p → m.body (runCtx m.opcode mb d.chip) req { d with chip := p } = .doC (g p))
    (hg : ∀ p q, (g p q).mbx.boxes = q.mbx.boxes ∧ (g p q).hosts.ports = q.hosts.ports) :
    ∃ p q t, Taken mb d.chip p ∧ Noted mb d.chip q ∧ Closing mb (g p q) t ∧ Ended mb stOK (d.chip.box mb).rsp [] t ∧
      tilpo m mb req d = { d with chip := t } := by
  obtain ⟨p, q, t, hp, hq, hc, he, ht⟩ := tilpo_commit (f := fun p d => (d.onChip (g p), [])) h hscope hbody (by
    intro p q _ _
    refine ⟨?_, boxFrozen_congr mb (hg p q).2⟩
    show ((g p q).box mb).rsp = _
    unfold Chip.box; rw [(hg p q).1])
  exact ⟨p, q, t, hp, hq, hc, he, ht⟩

/-- A committed change of the chip with a response, that leaves the mailboxes and the port states as they are. -/
theorem tilpo_doR {m : Cmd} {mb : Nat} {req : List Byte} {d : Dev} (h : Issues m mb req d.chip)
    (hscope : ∀ p, Noted mb d.chip p → m.scope p mb req = m.scope d.chip mb req) {g : Chip → Chip → Chip × List Byte}
    (hbody : ∀ p, Taken mb d.chip p → m.body (runCtx m.opcode mb d.chip) req { d with chip := p } = .doR (g p))
    (hg : ∀ p q, (g p q).1.mbx.boxes = q.mbx.boxes ∧ (g p q).1.hosts.ports = q.hosts.ports) :
    ∃ p q t, Taken mb d.chip p ∧ Noted mb d.chip q ∧ Closing mb (g p q).1 t ∧
      Ended mb stOK (d.chip.box mb).rsp (g p q).2 t ∧ tilpo m mb req d = { d with chip := t } := by
  obtain ⟨p, q, t, hp, hq, hc, he, ht⟩ := tilpo_commit
    (f := fun p d => ({ d with chip := (g p d.chip).1 }, (g p d.chip).2)) h hscope hbody (by
    intro p q _ _
    refine ⟨?_, boxFrozen_congr mb (hg p q).2⟩
    show ((g p q).1.box mb).rsp = _
    unfold Chip.box; rw [(hg p q).1])
  exact ⟨p, q, t, hp, hq, hc, he, ht⟩

/-- A plain answer: nothing but the command's own notes changes. -/
theorem tilpo_say {m : Cmd} {mb : Nat} {req : List Byte} {d : Dev} (h : Issues m mb req d.chip)
    (hscope : ∀ p, Noted mb d.chip p → m.scope p mb req = m.scope d.chip mb req) {rsp : Chip → List Byte}
    (hbody : ∀ p, Taken mb d.chip p → m.body (runCtx m.opcode mb d.chip) req { d with chip := p } = .say (rsp p)) :
    ∃ p t, Taken mb d.chip p ∧ Closing mb p t ∧ Ended mb stOK (d.chip.box mb).rsp (rsp p) t ∧
      tilpo m mb req d = { d with chip := t } := by
  obtain ⟨p, t, hp, hc, he, ht⟩ := tilpo_ends (st := fun _ => stOK) (fl := fun _ => 0) (rsp := rsp) (f := fun _ => id)
    h hscope hbody (fun _ _ => ⟨rfl, rfl⟩)
  exact ⟨p, t, hp, hc, he, ht⟩

theorem validMb_of_view {mb : Nat} (h : validView mb = true) : validMb mb = true := by
  unfold validMb; rw [h]; rfl

theorem not_held {c : Chip} (h : c.mailboxUp = true) : c.power.held = false := by
  unfold Chip.mailboxUp at h
  simp only [Bool.and_eq_true, Bool.not_eq_true'] at h
  exact h.1

/-- A command row runs while the mailboxes work. -/
theorem onDevIf_tilpo {m : Cmd} {mb : Nat} {req : List Byte} {s : State} (h : Issues m mb req s.chip) (f : Dev → Dev) :
    s.onDevIf (validMb mb) f = .next (s.onDev f) := by
  unfold State.onDevIf State.runDev
  rw [if_pos (validMb_of_view h.view)]
  simp [not_held h.up]

/-- The taking of a command leaves its right to be issued alone where its scope reads none of what the taking notes. -/
theorem scope_default {m : Cmd} {c : Chip} {mb : Nat} {req : List Byte} (h : m.scope = fun _ _ _ => false) :
    ∀ p, Noted mb c p → m.scope p mb req = m.scope c mb req := by
  intro p _; rw [h]

/-- A change that reads none of the notes and writes no mailbox keeps them apart. -/
theorem Noted.lift {mb : Nat} {c q c' q' : Chip} (h : Noted mb c q) (w : Wrote c' q') (hu : c'.up = c.up)
    (h1 : c'.mbx.boxes = c.mbx.boxes) (h2 : q'.mbx.boxes = q.mbx.boxes) : Noted mb c' q' := by
  have e1 : ∀ k, c'.box k = c.box k := fun k => by unfold Chip.box; rw [h1]
  have e2 : ∀ k, q'.box k = q.box k := fun k => by unfold Chip.box; rw [h2]
  refine ⟨w, ?_, ?_, ?_⟩
  · rw [e1, e2, hu]; exact h.box
  · intro k hk; rw [e1, e2]; exact h.other k hk
  · rw [e1, e2]; exact h.rsp

/-- As `Noted.lift`, where the change writes the command's own mailbox, the same way on both sides. -/
theorem Noted.liftBox {mb : Nat} {c q c' q' : Chip} (h : Noted mb c q) (w : Wrote c' q')
    (hb : SameBox c'.up (c'.box mb) (q'.box mb)) (hr : (q'.box mb).rsp = (c'.box mb).rsp)
    (h1 : ∀ k, k ≠ mb → c'.box k = c.box k) (h2 : ∀ k, k ≠ mb → q'.box k = q.box k) : Noted mb c' q' :=
  ⟨w, hb, fun k hk => by rw [h1 k hk, h2 k hk]; exact h.other k hk, hr⟩

/-- What is noted before the change and what is written after it are the notes of a command. -/
theorem onlyNotes_of {mb : Nat} {c q t : Chip} (hq : Noted mb c q) (ht : Closing mb q t) : OnlyNotes mb c t := by
  obtain ⟨_, _, _, _, _, _, _, _, _, _, _, _, _, _, e1⟩ := hq.wrote
  obtain ⟨_, _, _, _, _, _, _, _, _, _, _, _, _, e2⟩ := ht.wrote
  have hh : q.hosts = c.hosts := hq.wrote.hosts
  refine ⟨?_, hq.box.trans (hq.wrote.up ▸ ht.box), fun k hk => (ht.other k hk).trans (hq.other k hk), ?_, ?_⟩
  · rw [e2, e1]
  · intro p
    obtain ⟨u, w, n, h⟩ := ht.host p
    have : q.host p = c.host p := by unfold Chip.host; rw [hh]
    rw [h, this]
  · intro f
    obtain ⟨x, h⟩ := ht.fn f
    have : q.fn f = c.fn f := by unfold Chip.fn; rw [hh]
    rw [h, this]

/-- A committing command: its statement from what its body answers and what its change is. -/
theorem ends_change {m : Cmd} {i : Nat → List Byte → Instr} {mb : Nat} {req rsp : List Byte} {s : State} {c' : Chip}
    {mem : Mem} (hi : exec (i mb req) s = s.onDevIf (validMb mb) (tilpo m mb req))
    (hscope : ∀ p, Noted mb s.chip p → m.scope p mb req = m.scope s.chip mb req)
    (f : Chip → Dev → Dev × List Byte)
    (hbody : Issues m mb req s.chip → ∀ p, Taken mb s.chip p →
      m.body (runCtx m.opcode mb s.chip) req { chip := p, mem := s.mem } = .commit (f p))
    (hchg : ∀ p q, Taken mb s.chip p → Noted mb s.chip q →
      Noted mb c' (f p { chip := q, mem := s.mem }).1.chip ∧
      ((f p { chip := q, mem := s.mem }).1.chip.box mb).rsp = (q.box mb).rsp ∧
      (f p { chip := q, mem := s.mem }).1.chip.boxFrozen mb = q.boxFrozen mb ∧
      (f p { chip := q, mem := s.mem }).1.mem = mem ∧ (f p { chip := q, mem := s.mem }).2 = rsp) :
    Ends m i mb req s stOK rsp c' mem := by
  intro h
  obtain ⟨p, q, t, hp, hq, hc, he, ht⟩ := tilpo_commit (d := { chip := s.chip, mem := s.mem }) (f := f) h hscope
    (hbody h) (by
      intro p q hp hq
      obtain ⟨_, h2, h3, _, _⟩ := hchg p q hp hq
      exact ⟨h2, h3⟩)
  obtain ⟨w, _, _, h4, h5⟩ := hchg p q hp hq
  rw [h5] at he
  refine ⟨s.onDev (tilpo m mb req), ?_, ?_, ?_, ?_, rfl⟩
  · rw [hi, onDevIf_tilpo h]
  · show Ended mb stOK _ rsp (tilpo m mb req _).chip
    rw [ht]; exact he
  · show OnlyNotes mb c' (tilpo m mb req _).chip
    rw [ht]; exact onlyNotes_of w hc
  · show (tilpo m mb req _).mem = mem
    rw [ht]; exact h4

/-- A committing command that writes no mailbox and no port state. -/
theorem ends_commit {m : Cmd} {i : Nat → List Byte → Instr} {mb : Nat} {req rsp : List Byte} {s : State} {c' : Chip}
    {mem : Mem} (hi : exec (i mb req) s = s.onDevIf (validMb mb) (tilpo m mb req))
    (hscope : ∀ p, Noted mb s.chip p → m.scope p mb req = m.scope s.chip mb req)
    (f : Chip → Dev → Dev × List Byte)
    (hbody : Issues m mb req s.chip → ∀ p, Taken mb s.chip p →
      m.body (runCtx m.opcode mb s.chip) req { chip := p, mem := s.mem } = .commit (f p))
    (hchg : ∀ p q, Taken mb s.chip p → Noted mb s.chip q →
      Wrote c' (f p { chip := q, mem := s.mem }).1.chip ∧
      (f p { chip := q, mem := s.mem }).1.chip.mbx.boxes = q.mbx.boxes ∧
      (f p { chip := q, mem := s.mem }).1.chip.hosts.ports = q.hosts.ports ∧
      (f p { chip := q, mem := s.mem }).1.mem = mem ∧ (f p { chip := q, mem := s.mem }).2 = rsp)
    (hb : c'.mbx.boxes = s.chip.mbx.boxes) (hu : c'.up = s.chip.up) : Ends m i mb req s stOK rsp c' mem := by
  refine ends_change hi hscope f hbody ?_
  intro p q hp hq
  obtain ⟨h1, h2, h3, h4, h5⟩ := hchg p q hp hq
  refine ⟨hq.lift h1 hu hb h2, ?_, boxFrozen_congr mb h3, h4, h5⟩
  unfold Chip.box; rw [h2]

/-- A command that ends with its answer and a change of its own, without a commit point. -/
theorem ends_ends {m : Cmd} {i : Nat → List Byte → Instr} {mb st : Nat} {req rsp : List Byte} {s : State} {c' : Chip}
    {mem : Mem} (hi : exec (i mb req) s = s.onDevIf (validMb mb) (tilpo m mb req))
    (hscope : ∀ p, Noted mb s.chip p → m.scope p mb req = m.scope s.chip mb req) (fl : Chip → Nat)
    (f : Chip → Dev → Dev)
    (hbody : Issues m mb req s.chip → ∀ p, Taken mb s.chip p →
      m.body (runCtx m.opcode mb s.chip) req { chip := p, mem := s.mem } = .ends st (fl p) rsp (f p))
    (hchg : ∀ p, Taken mb s.chip p →
      Noted mb c' (f p { chip := p, mem := s.mem }).chip ∧
      ((f p { chip := p, mem := s.mem }).chip.box mb).rsp = (p.box mb).rsp ∧
      (f p { chip := p, mem := s.mem }).chip.boxFrozen mb = p.boxFrozen mb ∧
      (f p { chip := p, mem := s.mem }).mem = mem) :
    Ends m i mb req s st rsp c' mem := by
  intro h
  obtain ⟨p, t, hp, hc, he, ht⟩ := tilpo_ends (d := { chip := s.chip, mem := s.mem }) (st := fun _ => st) (fl := fl)
    (rsp := fun _ => rsp) (f := f) h hscope (hbody h) (by
      intro p hp
      obtain ⟨_, h2, h3, _⟩ := hchg p hp
      exact ⟨h2, h3⟩)
  obtain ⟨w, _, _, h4⟩ := hchg p hp
  refine ⟨s.onDev (tilpo m mb req), ?_, ?_, ?_, ?_, rfl⟩
  · rw [hi, onDevIf_tilpo h]
  · show Ended mb st _ rsp (tilpo m mb req _).chip
    rw [ht]; exact he
  · show OnlyNotes mb c' (tilpo m mb req _).chip
    rw [ht]; exact onlyNotes_of w hc
  · show (tilpo m mb req _).mem = mem
    rw [ht]; exact h4

/-- A committing command that changes the chip alone and answers nothing. -/
theorem ends_doC {m : Cmd} {i : Nat → List Byte → Instr} {mb : Nat} {req : List Byte} {s : State} {c' : Chip}
    (hi : exec (i mb req) s = s.onDevIf (validMb mb) (tilpo m mb req))
    (hscope : ∀ p, Noted mb s.chip p → m.scope p mb req = m.scope s.chip mb req)
    (g : Chip → Chip → Chip)
    (hbody : Issues m mb req s.chip → ∀ p, Taken mb s.chip p →
      m.body (runCtx m.opcode mb s.chip) req { chip := p, mem := s.mem } = .doC (g p))
    (hchg : ∀ p q, Taken mb s.chip p → Noted mb s.chip q →
      Wrote c' (g p q) ∧ (g p q).mbx.boxes = q.mbx.boxes ∧ (g p q).hosts.ports = q.hosts.ports)
    (hb : c'.mbx.boxes = s.chip.mbx.boxes) (hu : c'.up = s.chip.up) : Ends m i mb req s stOK [] c' s.mem :=
  ends_commit hi hscope (fun p d => (d.onChip (g p), [])) hbody
    (fun p q hp hq => ⟨(hchg p q hp hq).1, (hchg p q hp hq).2.1, (hchg p q hp hq).2.2, rfl, rfl⟩) hb hu

/-- A plain answer. -/
theorem ends_say {m : Cmd} {i : Nat → List Byte → Instr} {mb : Nat} {req rsp : List Byte} {s : State}
    (hi : exec (i mb req) s = s.onDevIf (validMb mb) (tilpo m mb req))
    (hscope : ∀ p, Noted mb s.chip p → m.scope p mb req = m.scope s.chip mb req)
    (hbody : Issues m mb req s.chip → ∀ p, Taken mb s.chip p →
      m.body (runCtx m.opcode mb s.chip) req { chip := p, mem := s.mem } = .say rsp) :
    Ends m i mb req s stOK rsp s.chip s.mem := by
  intro h
  obtain ⟨p, t, hp, hc, he, ht⟩ := tilpo_say (d := { chip := s.chip, mem := s.mem }) (rsp := fun _ => rsp) h hscope
    (hbody h)
  refine ⟨s.onDev (tilpo m mb req), ?_, ?_, ?_, ?_, rfl⟩
  · rw [hi, onDevIf_tilpo h]
  · show Ended mb stOK _ rsp (tilpo m mb req _).chip
    rw [ht]; exact he
  · show OnlyNotes mb s.chip (tilpo m mb req _).chip
    rw [ht]; exact onlyNotes_of hp.toNoted hc
  · show (tilpo m mb req _).mem = s.mem
    rw [ht]

/-- A command that commits with a ticket. -/
theorem ends_later {m : Cmd} {i : Nat → List Byte → Instr} {mb : Nat} {req rsp : List Byte} {s : State} {c' : Chip}
    {mem : Mem} (hi : exec (i mb req) s = s.onDevIf (validMb mb) (tilpo m mb req))
    (hscope : ∀ p, Noted mb s.chip p → m.scope p mb req = m.scope s.chip mb req)
    (htk : s.chip.mbx.tickets.length < 64) (kind : Chip → Nat → TicketKind) (inst : Chip → Nat)
    (f : Chip → Nat → Dev → Dev × List Byte)
    (hbody : Issues m mb req s.chip → ∀ p, Taken mb s.chip p →
      m.body (runCtx m.opcode mb s.chip) req { chip := p, mem := s.mem } = .later (kind p) (inst p) (f p))
    (hchg : ∀ p q r, Taken mb s.chip p → Noted mb s.chip q →
      r = f p s.chip.mbx.nextTicket (ticketed m mb { chip := s.chip, mem := s.mem } (kind p) (inst p) q) →
      Wrote c' r.1.chip ∧ r.1.chip.mbx.boxes = q.mbx.boxes ∧ r.1.chip.hosts.ports = q.hosts.ports ∧ r.1.mem = mem ∧
        r.2 = rsp)
    (hb : c'.mbx.boxes = s.chip.mbx.boxes) (hu : c'.up = s.chip.up) :
    Ends m i mb req s stPENDING (le 4 s.chip.mbx.nextTicket ++ le 4 0 ++ rsp) c' mem := by
  intro h
  obtain ⟨p, q, t, hp, hq, hc, he, ht⟩ := tilpo_later (d := { chip := s.chip, mem := s.mem }) (kind := kind)
    (inst := inst) (f := f) h hscope htk (hbody h) (by
      intro p q hp hq
      obtain ⟨_, h2, h3, _, _⟩ := hchg p q _ hp hq rfl
      refine ⟨?_, boxFrozen_congr mb h3⟩
      unfold Chip.box; rw [h2])
  obtain ⟨w, h2, _, h4, h5⟩ := hchg p q _ hp hq rfl
  rw [h5] at he
  refine ⟨s.onDev (tilpo m mb req), ?_, ?_, ?_, ?_, rfl⟩
  · rw [hi, onDevIf_tilpo h]
  · show Ended mb stPENDING _ _ (tilpo m mb req _).chip
    rw [ht]; exact he
  · show OnlyNotes mb c' (tilpo m mb req _).chip
    rw [ht]; exact onlyNotes_of (hq.lift w hu hb h2) hc
  · show (tilpo m mb req _).mem = mem
    rw [ht]; exact h4

end Sys2Proof.Machine
end

