-- ==== Sys2Proof/Tests/Slice0.lean ====
section
/-! SUPPORT. Tests: for every obligation a theorem whose proof meets all hypotheses of each clause by concrete states and
operands, an ill-formed term for each check of WellFormed, and worked examples of the spec. -/

open Sys2Proof Sys2Proof.Machine

set_option Elab.async false

namespace Sys2Proof.Tests

/-- A closed fact that the kernel evaluates. -/
theorem yes {p : Prop} [Decidable p] (h : p := by decide +kernel) : p := h

/-- A host port that has trained and serves no DMA yet. -/
def early : HostSt := { HostSt.reset with state := .early, link := true, rate := 1, width := 1 }

/-- A device in service: stage S4, management pair A active, pair B its standby, no key programmed, both host ports EARLY. -/
def ready : State :=
  { State.reset with chip := { Chip.reset with
      hosts.ports := [(0, early), (1, early)], power.stage := .s4, power.held := false, mgmt.pairA := .active, mgmt.pairB := .standby } }

/-- `ready` with its chip changed. -/
def with_ (f : Chip → Chip) : State := ready.onChip f

/-- Bytes from numbers. -/
def bs (l : List Nat) : List Byte := l.map (BitVec.ofNat 8)

/-- A command of the command set can be carried out in mailbox `mb` of a chip whose own values pass the checks. -/
theorem issues_of {m : Cmd} {mb : Nat} {req : List Byte} {c : Chip}
    (h : (validView mb && c.mailboxUp && !c.power.recovery && !c.power.standby && c.reaches mb &&
      (decide ((c.box mb).state = .idle) || decide ((c.box mb).state = .done)) && ((c.box mb).target == 0x3FF) &&
      !bit (c.box mb).reqFlags 1 && c.pairActive && c.mbx.auditOk && decide (req.length ≤ 4096) && m.size req &&
      decide (m.stage ≤ c.stageNo) && !c.bellWaits && c.mayIssue m (c.ctxOf mb) req) = true) : Issues m mb req c := by
  simp only [Bool.and_eq_true, Bool.or_eq_true, decide_eq_true_eq, Bool.not_eq_true', beq_iff_eq] at h
  obtain ⟨⟨⟨⟨⟨⟨⟨⟨⟨⟨⟨⟨⟨⟨h1, h2⟩, h3⟩, h4⟩, h5⟩, h6⟩, h7⟩, h8⟩, h9⟩, h10⟩, h11⟩, h12⟩, h13⟩, h15⟩, h14⟩ := h
  exact ⟨h1, h2, h3, h4, h5, h6, .inl h7, h8, h9, h10, h11, h12, h13, h15, h14⟩

/-- `ready` 5 s after its reset release, with its time registers changed. -/
def timed (f : TimeSt → TimeSt) : State := with_ fun c => { c with
  time := f { c.time with tb := 5 * secU, up := 3 * secU } }

/-- `s` with its mailbox `mb` changed. -/
def boxed (mb : Nat) (f : Mailbox → Mailbox) (s : State) : State := s.onChip fun c => c.setBox mb (f (c.box mb))

/-- STREAM.CREATE of stream 5: port 3, 640 by 400, through memory on pipe 4 to write channel 7 of function 0. -/
def streamReq : List Byte :=
  le 2 5 ++ bs [2, 3, 0, 1, 4, 0, 0, 0, 0, 7, 0, 0, 0, 0] ++ le 2 640 ++ le 2 400 ++ bs [1, 0, 0xFF, 0] ++ le 4 30000 ++
    le 4 10000 ++ le 4 20000 ++ le 4 100 ++ le 4 10000 ++ le 2 100 ++ le 2 0 ++ le 4 0

/-- That stream, as created. -/
def stream5 : StreamSt := parseStream streamReq

/-- `timed` with camera port 3 configured and host port 0 in service at full rate. -/
def camera : State := (timed id).onChip fun c =>
  (((c.setPort 3 { PortSt.reset with configured := true, width := 1 }).setQuad 0 { c.quad 0 with role := .camera }).setHost 0
    { c.host 0 with state := .service, link := true, rate := 7, width := 16 }).setFn 0 { c.fn 0 with bme := true, msixOn := true }

/-- `camera` with stream 5, changed by `f`, on its write channel. -/
def streaming (f : StreamSt → StreamSt) : State := camera.onChip fun c =>
  (c.setStream 5 (f stream5)).setWch 0 7 { ChanSt.reset with fn := some 0, stream := 5 }

/-- A frame of stream 5 of which 100 lines have come. -/
def frameIn : Frame := { Frame.blank with
  phase := .input, width := 640, height := 400, seq := 9,
  exps := [{ index := 0, dur := 1, lines := List.replicate 100 (bs [0]), done := 0 }], packing := 8, stored := some 8192,
  slots := 2, place := stream5.place, out := stream5.out }

/-- `timed` with position channel 2 in mode `m`, counted to 10 and changed by `f`. -/
def chan (m : EncMode) (f : EncChan → EncChan) : State := (timed id).onChip fun c => { c with
  pos.chans := [(2, f { EncChan.reset with mode := m, raw := 10, xc := 10 })] }

theorem meets_StepRunsFront (h : Obligations.StepRunsFront) : True := by
  have _ := h.2.1 .ppsOutRise [] { ready with pending := [.ppsOutRise] } rfl
  have _ := h.2.2 ready rfl
  trivial

theorem meets_EveryRowCompletes (h : Obligations.EveryRowCompletes) : True := by
  have _ := (h (.systemIdentify 0 []) ready).1 rfl
  have _ := (h (.systemIdentify 0x8400 []) ready).2 (by decide)
  trivial

theorem meets_HeldDeviceRests (h : Obligations.HeldDeviceRests) : True := by
  have _ := h .ppsOutRise (with_ fun c => { c with power.held := true }) rfl rfl rfl
  trivial

theorem meets_MemoryStaysCanonical (h : Obligations.MemoryStaysCanonical) : True := by
  have _ := h State.reset _ ⟨rfl, fun _ => ⟨rfl, rfl⟩⟩ rfl
  trivial

theorem meets_SafePinsHold (h : Obligations.SafePinsHold) : True := by
  have _ := h State.reset _ ⟨fun _ => ⟨rfl, rfl, rfl, rfl⟩, fun _ => rfl⟩ rfl
  trivial

theorem meets_CommandFrames (h : Obligations.CommandFrames) : True := by
  have _ := h (.systemIdentify 0 []) ready _ rfl .time (by decide)
  trivial

theorem meets_AccessFrames (h : Obligations.AccessFrames) : True := by
  have _ := h (.tbNsRead 0) ready _ rfl .mbx (by decide)
  trivial

theorem meets_EventFrames (h : Obligations.EventFrames) : True := by
  have _ := h .ppsOutRise ready _ rfl .mem (by decide)
  trivial

theorem meets_ResetValues (h : Obligations.ResetValues) : True := by
  have _ := h _ rfl
  trivial

/-- `ready` at 1,000 s with keys of MAKER, INSTALLER, OPERATOR and SAFETY slots. -/
def keyed : State := with_ fun c => { c with
  mbx.keys := [(0, { state := 1, key := List.replicate 32 7 }), (1, { state := 1, key := List.replicate 32 6 }),
    (4, { state := 1, key := List.replicate 32 9 }), (12, { state := 1, key := List.replicate 32 5 })],
  time.tb := 1000 * secU, time.up := 100 * secU }

/-- `keyed` with a session of role `r` in mailbox 0. -/
def sessioned (r : Nat) : State := keyed.onChip fun c => c.setBox 0 { c.box 0 with
  session := 5, sess := some { handle := 5, role := r, slot := 0, used := 99 * secU } }

/-- A ticket of kind `k`. -/
def sysTicket (k : TicketKind) : Ticket :=
  { id := 7, opcode := 0x0106, mailbox := 0, instant := 0, session := 0, role := 0, slot := 0, kind := k }

/-- `ready` with that ticket and a save under way. -/
def sysTicketed (k : TicketKind) : State := with_ fun c => { c with
  mbx.tickets := [sysTicket k], board.saving := some ([], []) }

theorem meets_SystemCommands (h : Obligations.SystemCommands) : True := by
  have _ := (h.1 0 [] ready).1 (issues_of rfl)
  have _ := (h.1 0 (bs [1, 0, 1, 0, 0, 0]) ready).2.1 _ (by decide) (by decide) rfl (by decide) (issues_of rfl)
  have _ := (h.1 0 [] ready).2.2 (issues_of rfl)
  have _ := (h.2 0 (List.replicate 36 1) ready).1 (issues_of rfl)
  have _ := (h.2 0 [] ready).2.1 rfl (by decide) (issues_of rfl)
  have _ := (h.2 0 [] (sysTicketed .saveConfig)).2.2.1 (sysTicket .saveConfig) ([], []) rfl rfl rfl rfl
  have c := fun k => (h.2 0 (le 4 7) (sysTicketed k)).2.2.2 (sysTicket k) rfl (.inl rfl) (.inl rfl)
  have _ := c .saveConfig _ rfl (issues_of rfl)
  have _ := c .timeStep _ rfl (issues_of rfl)
  have _ := c (.snapshot 1) _ rfl (issues_of rfl)
  have _ := c (.seamSnapshot 1) _ rfl (issues_of rfl)
  have _ := c (.fwActivate 1) _ rfl (issues_of rfl)
  have _ := (h.2 0 (le 4 7) (sysTicketed (.fwCommit 0))).2.2.2 (sysTicket (.fwCommit 0)) rfl (.inl rfl) (.inl rfl) _
    rfl (issues_of rfl)
  trivial

/-- `keyed` with a challenge in mailbox 0. -/
def challenged : State := keyed.onChip fun c => c.setBox 0 { c.box 0 with
  chal := some { id := 77, nonce := List.replicate 32 3, issued := 95 * secU } }

/-- The right answer of slot 0 of role 1 to that challenge. -/
def answer : List Byte := hmac (List.replicate 32 7) (Chip.sessionMessage (List.replicate 32 3) 0 1 0 77)

theorem meets_RoleKeyCommands (h : Obligations.RoleKeyCommands) : True := by
  have _ := (h 0 (bs [2, 0] ++ List.replicate 34 1) ready).1 2 0 (by decide) (by decide) rfl (.inl rfl) rfl _ rfl
    (issues_of rfl)
  have _ := (h 0 [] (sessioned 1)).2.1 ⟨0, by decide, rfl⟩ ⟨0, by decide, rfl⟩ rfl (issues_of rfl)
  have _ := (h 0 (bs [2, 0, 0, 0, 60, 0, 0, 0]) ready).2.2.1 2 60 (by decide) (by decide) (by decide) (by decide)
    (by decide) (by decide) (fun k z hz => nomatch (show none = some z from hz)) (issues_of rfl)
  have _ := (h 0 [] ready).2.2.2.1 (issues_of rfl)
  have _ := (h 0 (bs [0, 0, 0, 0, 1, 0, 0, 0] ++ List.replicate 32 1)
      ((sessioned 1).onChip fun c => { c with mbx.auditNext := 1 })).2.2.2.2 0 1 1 _
    (by decide) (by decide) rfl (by decide) (by decide) (by decide) (by decide) rfl (issues_of rfl)
  trivial

theorem meets_RoleSessions (h : Obligations.RoleSessions) : True := by
  have _ := (h.1 0 [] ready).1 rfl rfl (issues_of rfl)
  have a := ((h.1 0 (bs [1, 0, 0, 0, 77, 0, 0, 0] ++ answer) challenged).2.1 1 0 _ (by decide) (by decide) rfl rfl
    _ Iff.rfl)
  have _ := a.1 ⟨by decide, by decide, rfl, by decide,
    (List.drop_left' (l₁ := bs [1, 0, 0, 0, 77, 0, 0, 0]) rfl).symm⟩ _ rfl (issues_of yes)
  have _ := (((h.1 0 (bs [1, 0, 0, 0, 76] ++ List.replicate 35 0) challenged).2.1 1 0 _ (by decide) (by decide) rfl
    rfl _ Iff.rfl)).2
    (fun g => absurd g.1 (by decide)) (issues_of rfl)
  have _ := (h.1 0 [] (sessioned 1)).2.2 (issues_of rfl)
  have _ := (h.2 0 (bs [1, 0]) (sessioned 1)).1 1 0 (by decide) (by decide) rfl (.inr rfl) rfl
    (fun _ => ⟨0, by decide, 1, by decide, by decide, rfl, rfl⟩) (issues_of rfl)
  have _ := (h.2 0 (bs [3, 0]) (sessioned 2)).1 3 0 (by decide) (by decide) rfl (.inr rfl) rfl (by decide) (issues_of
    rfl)
  have _ := (h.2 0 [] (sessioned 2)).2.1 _ rfl rfl rfl
  have _ := (h.2 0 [] ready).2.2.1 rfl rfl
  have _ := (h.2 0 [] ready).2.2.2.1 rfl rfl
  have _ := (h.2 0 [] ready).2.2.2.2 rfl
  trivial

/-- The common prefix of a set of flags of an event record. -/
def someRecord (line : Nat) : EventRec :=
  { line := line, kind := 1, inst := 0, detail := 0, value := 0, time := 5, source := 0x3FF }

def someRing : EventRing := { base := 4096, log2 := 6, vector := 0, wr := 4, rel := 0, overrun := false }

theorem meets_ObserveCommands (h : Obligations.ObserveCommands) : True := by
  have _ := (h 0 (bs [1, 20, 0, 0] ++ le 8 1 ++ le 8 0) ready).1 1 20 _ (by decide) (by decide) rfl (by decide)
    (by decide) (by decide) (fun x => nomatch x) (issues_of rfl)
  have _ := (h 0 (bs [2, 0, 0, 6] ++ le 8 1 ++ le 8 4096) ready).1 2 0 _ (by decide) (by decide) rfl (by decide)
    (by decide) (by decide) (fun x => nomatch x) (issues_of rfl)
  have _ := (h 0 (le 8 0 ++ le 4 64) (with_ fun c => { c with
      ev.trace.sink := 1, ev.trace.sizeLog2 := 20, ev.trace.filter := 1 })).2.1 64 (by decide) (by decide) (by decide)
    rfl
    (by decide) rfl (issues_of rfl)
  have _ := (h 0 (le 2 0 ++ le 2 4) ready).2.2.1 0 4 (by decide) (by decide) (by decide) (by decide) (by decide)
  have _ := (h 0 (le 8 1000000) ready).2.2.2.1 (by decide) (by decide) (by decide) (issues_of rfl)
  have _ := (h 0 (le 4 1 ++ le 2 0x3FF ++ le 2 0 ++ le 2 1 ++ le 2 0)
      (with_ fun c => { c with ev.snaps := [c.latch 1 5] })).2.2.2.2.1 0 1 _ _ _ _ (by decide) (by decide) (by decide)
    (by decide) (by decide) rfl rfl rfl (.inr rfl) (issues_of rfl)
  have r := fun (b : Nat) (s : State) => (h 0 (bs [0, 6, 3, 0] ++ le 8 b) s).2.2.2.2.2.1
  have _ := (r 0 ready 0 6 0 (by decide) (by decide) (by decide) rfl (by decide) (by decide) rfl (by decide) rfl).1 rfl
    (issues_of rfl)
  have _ := (r 4096 (with_ fun c => { c with power.causeGiven := [0] }) 0 6 4096 (by decide) (by decide) (by decide) rfl
    (by decide) (by decide) rfl (by decide) rfl).2.1 (by decide) (by decide) (issues_of rfl)
  have _ := (r 4096 ready 0 6 4096 (by decide) (by decide) (by decide) rfl (by decide) (by decide) rfl (by decide)
    rfl).2.2
    (by decide) (by decide) (issues_of rfl)
  have _ := (h 0 (bs [7, 9, 1]) ready).2.2.2.2.2.2 7 9 (by decide) (by decide) (by decide) rfl (by decide) (issues_of
    rfl)
  trivial

theorem meets_ObserveEvents (h : Obligations.ObserveEvents) : True := by
  have _ := (h (with_ fun c => { c with ev.waiting := [someRecord 7], ev.routes := [(7, [(0, 1)])] })
    rfl).1 7 (someRecord 7)
    [] [] rfl rfl (by simp) rfl (fun k a b => by interval_cases k <;> rfl)
  have _ := (h (with_ fun c => { c with ev.overruns := [(3, { first := 2, since := 4, last := none })] }) rfl).2.1 3 _
    rfl
    (by decide)
  have _ := (h (with_ fun c => { c with ev.trace.dropNew := 4 }) rfl).2.2.1 (by decide)
  have _ := (h ready rfl).2.2.2.1 0 (by decide)
  have _ := (h (with_ fun c => { c with ev.rings := [(0, someRing)] }) rfl).2.2.2.2.1 0 2 _ rfl rfl rfl
  have _ := (h (with_ fun c => { c with ev.snaps := [scheduledSnap 1 5 none] }) rfl).2.2.2.2.2.1 1 _ rfl
  have _ := (h ready rfl).2.2.2.2.2.2.1 1
  have _ := (h ready rfl).2.2.2.2.2.2.2.1 .clamp (by decide) rfl
  have _ := (h ready rfl).2.2.2.2.2.2.2.2
  trivial

/-- A mailbox that waits for the answer of device 5, whose relayed header is `sent`. -/
def relaying : State :=
  boxed 0 (fun b => { b with
    state := .running, target := 5, seq := 7, parked := some { on := .relay 5, answer := none, cancelSent := false } })
    (with_ fun c => { c with
      seam.id := some 1,
      seam.relays := [{ mailbox := 0, target := 5, sent := true, bytes := le 2 0 ++ le 2 7, late := false }] })

theorem meets_MailboxEvents (h : Obligations.MailboxEvents) : True := by
  have _ := (h 0 0 ready rfl rfl rfl).1 (.inl rfl) rfl rfl
  have _ := (h 0 1 ready rfl rfl rfl).2.1 (by decide)
  have a := (h 0 0 (boxed 0 (fun b => { b with state := .queued }) ready) rfl rfl rfl).2.2.1 (.inl rfl) rfl nofun
    (by decide)
  have _ := a.1 rfl
  have b := (h 0 0 (boxed 0 (fun b => { b with state := .committed }) ready) rfl rfl rfl).2.2.2 (.inl rfl)
  have _ := b.1 rfl
  trivial

theorem meets_CommandTaking (h : Obligations.CommandTaking) : True := by
  have _ := (h.1 0 (boxed 0 (fun b => { b with state := .queued, opcode := 0x0909 }) ready)).1 rfl rfl rfl rfl rfl
    (by decide) (by decide) rfl rfl rfl rfl rfl
  have _ := (h.1 0 (boxed 0 (fun b => { b with state := .queued }) ready)).2.1 (fun b => b.state == .queued) rfl
  have _ := (h.1 0 (with_ fun c => { c with power.coreHold := true })).2.2 rfl
  let p := fun st data => boxed 0 (fun b => { b with
    state := .running, opcode := 0x0223, length := 4, req := [(2, 1)],
    parked := some { on := .camera 3 1, answer := some (st, data), cancelSent := false } }) ready
  have a := fun st data => h.2 (p st data) 0 _ _ 3 1 st data rfl rfl rfl rfl rfl rfl rfl rfl rfl (by decide)
    (show bit 0 1 = false from rfl)
  have _ := (a 0 [5]).1 1 (by decide) rfl rfl
  have _ := (a noAnswer []).2.1 rfl
  have _ := (a 3 []).2.2 1 (by decide) rfl rfl
  trivial

theorem meets_RelayedCommands (h : Obligations.RelayedCommands) : True := by
  have _ := (h 5 ready (by decide) rfl).1 [] rfl rfl (.inl rfl)
  have _ := (h 5 relaying (by decide) rfl).2.1 (le 2 0 ++ le 2 7 ++ le 4 0) _ rfl rfl rfl
  have _ := (h 5 (boxed 0x8005 (fun b => { b with state := .queued }) ready) (by decide) rfl).2.2.1 0 rfl (.inl rfl)
  have _ := (h 5 relaying (by decide) rfl).2.2.2 0 rfl (.inr ⟨rfl, nofun⟩) rfl rfl
  trivial

theorem meets_TimeCommands (h : Obligations.TimeCommands) : True := by
  have _ := (h 0 [] ready).1 (issues_of rfl)
  have _ := (h 0 (bs [1, 1, 0, 0] ++ le 4 1000 ++ le 4 5) (timed id)).2.1 .ext yes yes yes
    yes yes yes yes rfl (issues_of rfl)
  have _ := (h 0 (bs [1, 0] ++ le 6 9 ++ le 8 0) (timed id)).2.2.1 yes yes yes rfl rfl rfl yes
    (issues_of rfl)
  have _ := (h 0 (bs [2, 0] ++ le 6 0 ++ le 8 100) (timed id)).2.2.2.1 yes yes yes rfl rfl rfl (issues_of rfl)
  have _ := (h 0 (bs [2, 0] ++ le 6 0 ++ le 8 100) (timed fun t => { t with source := .ext })).2.2.2.2.1 yes rfl
    yes yes rfl (issues_of rfl)
  have _ := (h 0 (bs [1, 1]) ready).2.2.2.2.2 yes yes (issues_of rfl)
  trivial

theorem meets_TimeEvents (h : Obligations.TimeEvents) : True := by
  have _ := (h.1 ready rfl).1 0 rfl rfl
  have r := fun m o => (h.1 (timed fun t => { t with
    staged := [(1, { StageRegs.reset with sec := if m = 1 then 9 else 0, mode := m, ofs := o })], hostCtl := [1] })
    rfl).2 1 _
      rfl rfl
  have _ := ((h.1 (timed fun t => { t with pendingStep := some { sec := 9, ticket := none } }) rfl).2 1 _ rfl rfl).1
    yes
  have _ := ((h.1 (timed id) rfl).2 1 _ rfl rfl).2.1 rfl yes
  have _ := (r 1 0).2.2.1 rfl yes rfl yes rfl rfl
  have _ := (r 2 100).2.2.2 rfl yes rfl yes rfl rfl
  have _ := (h.2 (timed fun t => { t with pendingStep := some { sec := 9, ticket := none } }) rfl).1 _ rfl
  have _ := (h.2 (timed fun t => { t with source := .ext, disc := .acquire, good := 7 }) rfl).2.1 5 5 0 false rfl rfl
    yes
    yes yes
  have _ := (h.2 (timed fun t => { t with source := .ext, disc := .acquire }) rfl).2.2.1 2000000 5 0 false rfl rfl yes
  have _ := ((h.2 (timed fun t => { t with source := .ext, disc := .locked, useTen := true }) rfl).2.2.2.1 rfl rfl).2
    rfl
  have _ := (h.2 (timed fun t => { t with source := .ext, disc := .holdover }) rfl).2.2.2.2.1 5 5 0 true rfl rfl
  have _ := (h.2 (timed fun t => { t with source := .seam, disc := .locked }) rfl).2.2.2.2.2.1 rfl rfl rfl
  have _ := (h.2 (timed fun t => { t with acqStep := some 2000000, disc := .acquire }) rfl).2.2.2.2.2.2.1 _ rfl rfl
    rfl rfl
    yes
  have _ := (h.2 ready rfl).2.2.2.2.2.2.2
  trivial

/-- A trigger unit armed on channel 2. -/
def armedOn2 : TrigUnit := { TrigUnit.reset with state := 1, head := { TrigUnit.reset.head with source := 2 } }

theorem meets_PositionCommands (h : Obligations.PositionCommands) : True := by
  have _ := (h 0 (bs [2, 3, 4, 0] ++ le 2 50 ++ bs [3, 0, 1, 2, 1, 0] ++ le 8 (unsigned 64 (-9))) (chan .ssi id) _ rfl
    yes).1 _ rfl yes yes yes yes yes yes yes yes yes yes rfl rfl (issues_of rfl)
  have _ := (h 0 (bs [2, 0, 10, 1] ++ le 4 64000 ++ le 4 10000) (chan .ssi id) _ rfl yes).2.1 yes yes yes yes yes yes
    yes yes rfl
    (issues_of rfl)
  have _ := (h 0 (bs [2, 10, 24, 1, 0, 0, 0, 0] ++ le 4 50000 ++ le 4 20000 ++ le 4 0 ++ le 4 20000 ++ le 8 65536)
    (chan .ssi id) _ rfl yes).2.2.1 yes yes yes yes yes yes yes yes yes yes yes yes yes yes yes yes yes yes yes rfl
    (issues_of rfl)
  have _ := (h 0 (bs [2, 0, 0, 0, 0, 0, 0, 0] ++ le 8 99) (chan .quadX1 id) _ rfl yes).2.2.2.1 yes yes rfl (issues_of
    rfl)
  have _ := (h 0 (bs [2]) (chan .quadX1 id) _ rfl yes).2.2.2.2.1 rfl rfl (issues_of rfl)
  have _ := (h 0 (bs [2]) (chan .quadX1 id) _ rfl yes).2.2.2.2.2.1 (issues_of rfl)
  have _ := (h 0 (bs [2]) ((chan .quadX1 id).onChip fun c => c.setUnit 0 armedOn2) _ rfl yes).2.2.2.2.2.2.1
    rfl rfl (issues_of rfl)
  have _ := (h 0 (bs [2, 5] ++ le 2 16 ++ le 4 25 ++ le 4 36) (chan .ssi id) _ rfl yes).2.2.2.2.2.2.2 yes yes yes yes
    yes yes yes
    (by intro k hk; rcases hk with rfl | rfl <;> exact yes) _ rfl (issues_of rfl)
  trivial

theorem meets_PositionDecoders (h : Obligations.PositionDecoders) : True := by
  have _ := ((h (chan .quadX4 id) 2 rfl rfl).1 true false (.inl rfl)).1 yes
  have _ := ((h (chan .quadX2 id) 2 rfl rfl).1 true false (.inr (.inl ⟨rfl, yes⟩))).1 yes
  have _ := ((h (chan .quadX1 id) 2 rfl rfl).1 true false (.inr (.inr ⟨rfl, rfl, rfl⟩))).1 yes
  have _ := ((h (chan .quadX4 id) 2 rfl rfl).1 false true (.inl rfl)).2 yes
  have _ := (h (chan .quadX1 id) 2 rfl rfl).2.1 true true (.inl rfl) yes
  have _ := (h (chan .quadX2 id) 2 rfl rfl).2.2.1 false true (.inl ⟨rfl, rfl⟩) yes
  have _ := (h (chan .quadX1 id) 2 rfl rfl).2.2.1 false true (.inr ⟨rfl, .inl rfl⟩) yes
  have _ := ((h (chan .pulseDir id) 2 rfl rfl).2.2.2.1 rfl).1 true
  have _ := ((h (chan .upDown id) 2 rfl rfl).2.2.2.2.1 rfl).2
  have a := (h (chan .hall id) 2 rfl rfl).2.2.2.2.2.1 rfl
  have _ := (a 6 yes).1 yes
  have _ := (a 5 yes).2.1 yes
  have _ := (a 7 yes).2.2.1 (.inr rfl)
  have _ := ((h (chan .hall fun e => { e with hallNow := 4 }) 2 rfl rfl).2.2.2.2.2.1 rfl 0 yes).2.2.1 (.inl rfl)
  have _ := (a 2 yes).2.2.2.1 _ _ rfl rfl yes
  have _ := ((h (chan .hall fun e => { e with hallNow := 7 }) 2 rfl rfl).2.2.2.2.2.1 rfl 4 yes).2.2.2.2 rfl yes
  have _ := (h (chan .quadX2 id) 2 rfl rfl).2.2.2.2.2.2.1 (.inr (.inl rfl)) 1 yes
  have _ := ((h (chan .off id) 2 rfl rfl).2.2.2.2.2.2.2 rfl).1 true false yes
  have _ := ((h (chan .off id) 2 rfl rfl).2.2.2.2.2.2.2 rfl).2 5 yes
  trivial

theorem meets_PositionEvents (h : Obligations.PositionEvents) : True := by
  have _ := ((h (chan .quadX4 fun e => { e with indexAction := 1 }) 2 rfl).1 (.inr (.inr (.inl rfl))) true _ rfl (.inr
    rfl)).1 rfl
  have _ := ((h (chan .pulseDir fun e => { e with indexAction := 2 }) 2 rfl).1
    (.inr (.inr (.inr (.inl rfl)))) true _ rfl (.inr rfl)).2 rfl rfl
  have _ := (h (chan .quadX4 fun e => { e with wbMask := 7 }) 2 rfl).2.1 2 yes (.inl ⟨yes, yes⟩) rfl rfl
  have _ := (h (chan .ssi fun e => { e with wbMask := 7 }) 2 rfl).2.1 0 yes (.inr rfl) rfl rfl
  have _ := (h (chan .quadX4 id) 2 rfl).2.2.1 2
  have s := fun p f w => (h (chan .ssi fun e => { e with serCode := 0, serPrev := p, serFails := f }) 2 rfl).2.2.2.1
    rfl rfl
    rfl 5 true w rfl
  have _ := (s none 0 yes).1 rfl
  have _ := (s (some 3) 0 yes).2.1 _ _ rfl rfl yes yes
  have _ := (s none 2 yes).2.2 rfl
  have _ := (h ((timed id).onChip fun c => { c with
    pos.divs := [(1, { Divider.reset with source := some 2, backlog := -1 })] }) 2 rfl).2.2.2.2.1 1 _ rfl yes
  have _ := (h (chan .quadX4 id) 2 rfl).2.2.2.2.2.1 rfl
  have _ := (h (timed id) 2 rfl).2.2.2.2.2.2 0 rfl rfl
  trivial

/-- An enabled safety function with nothing asked of it. -/
def fnActive : SafeFn := { SafeFn.reset with enabled := true, state := .active }

/-- A channel that function 3 may cover. -/
def watched : EncChan := { EncChan.reset with mode := .quadX4, wbMask := 7, qerrLimit := 1 }

/-- `timed` outside the safe state, function 1 over everything in scope 0 and function 3 over channel 2, changed by `f`. -/
def guarded (f : Chip → Chip) : State := (timed id).onChip fun c =>
  f (({ c with safety.safe := false }.setSafeFn 1 fnActive).setSafeFn 3 { fnActive with scope := 4 })

theorem meets_SafetyCommands (h : Obligations.SafetyCommands) : True := by
  have _ := ((h 0 (bs [1, 1, 0, 0, 0, 0, 0, 0] ++ le 8 0x30000) (guarded id)).1 _ _ rfl rfl yes yes).1 yes rfl
    (by intro e; exact absurd e yes) (by intro e; exact absurd e yes) (by intro e; exact absurd e yes) (issues_of rfl)
  have _ := ((h 0 (bs [0, 1, 0, 0, 0, 0, 0, 0] ++ le 8 0x30000) (guarded id)).1 _ _ rfl rfl yes yes).1 yes rfl
    (by intro _; exact yes) (by intro e; exact absurd e yes) (by intro e; exact absurd e yes) (issues_of rfl)
  have _ := ((h 0 (bs [2, 1, 0, 0, 0, 0, 0, 0] ++ le 8 0) (guarded id)).1 _ _ rfl rfl yes yes).1 yes rfl
    (by intro e; exact absurd e yes) (by intro _; rfl) (by intro e; exact absurd e yes) (issues_of rfl)
  have _ := ((h 0 (bs [3, 1, 0, 0, 0, 0, 0, 0] ++ le 8 4) (guarded fun c => c.setEnc 2 watched)).1 _ _ rfl rfl yes
    yes).1 yes rfl
    (by intro e; exact absurd e yes) (by intro e; exact absurd e yes)
    (by intro _ k hk e; interval_cases k <;> first | rfl | exact absurd e yes) (issues_of rfl)
  have _ := ((h 0 (bs [1, 0, 0, 0, 0, 0, 0, 0] ++ le 8 0x30000) (guarded id)).1 _ _ rfl rfl yes yes).2 yes
    (by intro e; exact absurd e yes) (issues_of rfl)
  have _ := ((h 0 (bs [3, 0, 0, 0, 0, 0, 0, 0] ++ le 8 4) (guarded id)).1 _ _ rfl rfl yes yes).2 yes
    (by intro _; rfl) (issues_of rfl)
  have _ := (h 0 [] (guarded id)).2.1 _ (fun _ => rfl) (issues_of rfl)
  have _ := (h 0 [] (guarded id)).2.2.1 (issues_of rfl)
  have _ := (h 0 [] (guarded fun c => { c with safety.all := [(0x0F02, 0)] })).2.2.2.1 (.inl yes) (issues_of rfl)
  have _ := (h 0 [] (guarded fun c => c.setSafeFn 1 { fnActive with state := .demand })).2.2.2.1
    (.inr ⟨1, by decide, rfl⟩) (issues_of rfl)
  have _ := (h 0 [] (guarded fun c => { c with safety.safe := true })).2.2.2.2 rfl
    (by intro i hi; interval_cases i <;> decide) rfl (issues_of rfl)
  trivial

theorem meets_MonitorAndPairs (h : Obligations.MonitorAndPairs) : True := by
  have _ := (h.1 (guarded id) rfl).1 true yes
  have _ := (h.1 (guarded fun c => { c with safety.all := [(0x0F02, 1)] }) rfl).2.1 false rfl
  have _ := ((h.1 (guarded fun c => { c with safety.lastT := some (c.t64 + 1) }) rfl).2.2.1 1 rfl rfl rfl rfl).1 _ rfl
    yes
  have _ := ((h.1 (guarded fun c => { c with safety.lastT := some c.t64 }) rfl).2.2.1 1 rfl rfl rfl rfl).2 _ rfl yes
  have b := (h.1 (guarded fun c => { c with safety.beat := true }) rfl).2.2.2.1 rfl rfl rfl
  have _ := b.2 yes
  have _ := (h.1 (guarded fun c => { c with safety.resume := true }) rfl).2.2.2.2 rfl rfl rfl rfl
    (by intro i hi e; interval_cases i <;> first | rfl | cases e)
  have _ := (h.2 ready rfl).1 rfl rfl rfl rfl
  have _ := (h.2 (with_ fun c => { c with mgmt.pairB := .faulted }) rfl).2.1 rfl rfl yes rfl
  have a := (h.2 (with_ fun c => { c with mgmt.pairB := .faulted }) rfl).2.2.1 1 rfl
  have _ := a.2.1 rfl
  have b := (h.2 (with_ fun c => { c with mgmt.pairA := .faulted, mgmt.pairB := .faulted }) rfl).2.2.1 1 rfl
  have _ := b.2.2 rfl
  have _ := (h.2 (with_ fun c => { c with mgmt.pairB := .booting }) rfl).2.2.2 1 rfl rfl
  trivial

/-- The head of an arming: unit, source, direction, lead in ns, no port, pin or window, an event. -/
def head (u src dir lead : Nat) : List Byte := bs [u, src, dir, 0, 0, 0xFF, 1, 0xFF] ++ le 4 lead

/-- Unit 3 armed for one shot by time at `x`, in `timed`. -/
def armedUnit (x : Int) : TrigUnit := { TrigUnit.reset with
  state := 1, head := { TrigUnit.reset.head with source := 8, event := true }, mode := .oneShot x }

theorem meets_TriggerArming (h : Obligations.TriggerArming) : True := by
  have _ := ((h 0 (head 3 2 0 100000 ++ le 8 1000) (timed id) _ _ _ rfl rfl rfl rfl _ rfl).1 rfl).1 _ rfl
    (fun _ => yes) (fun e => absurd e yes) (issues_of rfl)
  have _ := ((h 0 (head 3 8 0 100000 ++ le 8 7000000000) (timed id) _ _ _ rfl rfl rfl rfl _ rfl).1 rfl).1 _ rfl
    (fun e => absurd e yes) (fun _ => yes) (issues_of rfl)
  have _ := ((h 0 (head 3 8 0 100000 ++ le 8 7000000000 ++ le 4 5000 ++ le 4 3 ++ le 4 0) (timed id) _ _ _ rfl rfl rfl
    rfl
    _ rfl).1 rfl).2.1 _ rfl yes yes (fun e => absurd e yes) (fun _ => yes) (issues_of rfl)
  have _ := ((h 0 (head 3 2 0 100000 ++ le 8 7000 ++ le 4 5000 ++ le 4 3 ++ le 4 0) (timed id) _ _ _ rfl rfl rfl rfl
    _ rfl).1 rfl).2.1 _ rfl yes yes (fun _ => yes) (fun e => absurd e yes) (issues_of rfl)
  have _ := ((h 0 (head 3 8 0 100000 ++ le 8 4999999990 ++ le 4 50000 ++ le 4 3 ++ le 4 1) (timed id) _ _ _ rfl rfl
    rfl rfl
    _ rfl).1 rfl).2.2.1 3 yes yes yes yes (fun _ => yes) (issues_of rfl)
  have _ := ((h 0 (head 3 2 0 100000 ++ le 8 1000 ++ le 4 300 ++ le 4 3 ++ le 4 1) (timed id) _ _ _ rfl rfl rfl rfl
    _ rfl).1 rfl).2.2.2.1 _ (-3) rfl yes yes yes yes yes yes yes yes (issues_of rfl)
  have _ := ((h 0 (head 3 2 0 100000 ++ le 4 5 ++ le 4 3 ++ bs [1, 0, 0, 0] ++ le 8 1000)
    ((timed id).onChip fun c => { c with trig.table := [(5, 10), (6, 20), (7, 30)] }) _ _ _ rfl rfl rfl rfl
    _ rfl).1 rfl).2.2.2.2 5 3 1000 _ yes yes yes rfl yes yes yes yes
    (by intro i hi; have : i < 2 := by omega
        interval_cases i <;> exact yes) yes yes (.inr yes) yes (issues_of rfl)
  have _ := (h 0 (head 3 2 0 100000 ++ le 8 1000) ((timed id).onChip fun c => c.setUnit 3 (armedUnit 7)) _ _ _ rfl rfl
    rfl rfl
    _ rfl).2 rfl (fun _ => yes) (issues_of rfl)
  trivial

theorem meets_TriggerCommands (h : Obligations.TriggerCommands) : True := by
  have _ := ((h 0 (bs [3]) ((timed id).onChip fun c => c.setUnit 3 (armedUnit 7))).1 _ rfl yes rfl).1 rfl (issues_of
    rfl)
  have _ := ((h 0 (bs [3]) ((timed id).onChip fun c => c.setUnit 3 (armedUnit 7))).1 _ rfl yes rfl).2 (issues_of rfl)
  have _ := (h 0 (le 4 9 ++ le 4 2 ++ le 8 5 ++ le 8 6) (timed id)).2.1 9 2 yes yes yes yes yes
    (by intro i hi; interval_cases i <;> exact yes) rfl (issues_of rfl)
  have _ := ((h 0 (bs [3, 0, 0, 255] ++ le 8 1000 ++ le 8 5000) (timed id)).2.2.1 _ rfl yes yes yes yes yes yes rfl).1
    yes yes
    (issues_of rfl)
  have _ := ((h 0 (bs [3, 1, 0, 7] ++ le 8 1000 ++ le 8 5000) (timed id)).2.2.1 _ rfl yes yes yes yes yes yes rfl).2 _
    rfl yes yes
    yes yes (fun _ => .inr yes) (issues_of rfl)
  have _ := (h 0 (bs [3, 1, 0, 0] ++ le 2 0 ++ le 4 500 ++ le 6 6 ++ le 8 5000 ++ le 8 0 ++ le 2 9 ++ le 2 0)
    ((timed id).onChip fun c => c.setPin 3 { PinSt.reset with output := true })).2.2.2.1 _ _ rfl yes yes rfl yes yes
    yes yes yes yes rfl
    rfl yes (issues_of rfl)
  have _ := (h 0 (bs [3, 1, 1, 0, 0, 2, 0, 0] ++ le 8 6000000000 ++ le 8 55) (timed id)).2.2.2.2.1 _ _ _ rfl yes yes
    rfl rfl rfl
    rfl yes (fun i e => by cases e; exact yes) (issues_of rfl)
  have _ := (h 0 (bs [3, 1]) ((timed id).onChip fun c => c.setWindow 3 { WinSt.reset with
    phase := .opened, stop := .command })).2.2.2.2.2.1 _ _ rfl yes rfl yes yes rfl (issues_of rfl)
  have _ := (h 0 (bs [3]) (timed id)).2.2.2.2.2.2 _ _ _ rfl yes rfl rfl (issues_of rfl)
  trivial

/-- A delivery of unit 3 by time at `n`. -/
def delivery : FireInst :=
  { instant := 9, tp := 9, delayed := false, lost := false, fireId := none, port := none, event := true, window := none,
    source := 8 }

/-- `timed` with window 3 in `phase`, opened at 1 s, with one event at 5 s. -/
def windowed (phase : WinPhase) (stop rearm : Bool) : State := (timed id).onChip fun c => c.setWindow 3 { WinSt.reset with
  phase := phase, rearm := rearm, tStart := secU, events := [{ at_ := 5 * secU, stop := stop }] }

theorem meets_TriggerEvents (h : Obligations.TriggerEvents) : True := by
  have _ := (h ((timed id).onChip fun c => c.setUnit 3 (armedUnit 6000000000)) rfl).1 3 _ _ rfl rfl rfl rfl rfl rfl
    rfl rfl rfl yes
  have _ := (h ((timed id).onChip fun c => (c.setUnit 3 (armedUnit 6000000000)).setSafeFn 2 { SafeFn.reset with
    enabled := true, state := .demand, scope := 8 }) rfl).2.1 3 _ _ rfl rfl rfl rfl rfl rfl yes
  have _ := (h ((timed id).onChip fun c => c.setUnit 3 { armedUnit 7 with fires := [delivery] }) rfl).2.2.1 3 _ _ rfl
    rfl rfl
    rfl rfl yes rfl
  have _ := (h ((timed id).onChip fun c => c.setPin 3 { PinSt.reset with
    output := true, pulses := [{ start := 9, high := 9, period := 0, count := 1, scheduled := true }] })
    rfl).2.2.2.1 3 _ _
    rfl rfl rfl rfl
  have _ := (h ((timed id).onChip fun c => c.setPin 3 { PinSt.reset with output := true, falls := [9] })
    rfl).2.2.2.2.1 3 _ _
    rfl rfl
  have _ := (h ready rfl).2.2.2.2.2.1
  have _ := (h (timed id) rfl).2.2.2.2.2.2.1 3 true rfl (.inr rfl) yes
  have w := fun p a b => (h (windowed p a b) rfl).2.2.2.2.2.2.2.1 3 _ _ _ rfl rfl (by simp)
  have _ := (w .waiting false false).1 rfl rfl (.inl rfl)
  have _ := (w .waiting false true).1 rfl rfl (.inr (.inl rfl))
  have _ := (w .opened true false).2.1 rfl rfl yes
  have _ := (w .waiting true false).2.2.1 rfl rfl rfl
  have _ := (w .opened false false).2.2.2 rfl rfl
  have _ := (h ((timed id).onChip fun c => c.setStream 5 { StreamSt.blank with
    window := some 3, frames := [{ Frame.blank with phase := .judging }], place.seam := true })
    rfl).2.2.2.2.2.2.2.2.1 3 5 _ _
    _ rfl rfl rfl rfl (by simp) rfl rfl
  have _ := (h ((timed id).onChip fun c => { (c.setUnit 3 { armedUnit 6000000000 with
    head.source := 8, head.port := some 5 }).setSafeFn 2 { fnActive with scope := 8 } with
      safety.safe := false, safety.wrong.fire := 8 }) rfl).2.2.2.2.2.2.2.2.2.1 3 _ _ rfl rfl rfl rfl rfl yes rfl rfl
    rfl rfl yes yes
  have _ := (h ready rfl).2.2.2.2.2.2.2.2.2.2
  trivial

/-- `timed` with quad 3 a camera quad with its synthesiser locked, changed by `g`, and lane 12 changed by `f`. -/
def camQuad (g : QuadSt → QuadSt) (f : LaneSt → LaneSt) : State := (timed id).onChip fun c =>
  (c.setQuad 3 (g { c.quad 3 with role := .camera, synthOn := true, synthLock := true })).setLane 12
    (f { LaneSt.reset with state := .detect, power := 0 })

/-- An inverted comma with `n` symbol errors, in a block whose CRC fails. -/
def commaSeen (n : Nat) : AlignObs :=
  { comma := Machine.comma ^^^ (2 ^ n - 1), content := 0, inverted := true, precoded := false }

theorem meets_QuadCommands (h : Obligations.QuadCommands) : True := by
  have _ := (h 0 (bs [3, 1, 0, 0]) (timed id)).1 _ _ rfl rfl yes yes yes yes (.inr rfl) rfl (fun e => absurd e yes)
    yes rfl yes
    (issues_of rfl)
  have _ := (h 0 (bs [3, 2, 1, 1]) (camQuad id id)).1 _ _ rfl rfl yes yes yes yes (.inl rfl) rfl (fun _ => yes) yes
    rfl yes
    (issues_of rfl)
  have r := fun st w => (h 0 (le 2 8 ++ bs [2, 0]) ((camQuad id id).onChip fun c => { c with power.stage := st })).2 8 2 yes yes
    yes yes (by intro q hq _ e he; interval_cases q <;> cases he) (by intro e he; cases he) w
  have _ := (r .s3 (issues_of rfl)).1 rfl
  have _ := (r .s4 (issues_of rfl)).2 rfl
  trivial

theorem meets_LaneCommands (h : Obligations.LaneCommands) : True := by
  have _ := ((h 0 (bs [12, 1] ++ le 2 500 ++ le 2 600 ++ bs [0, 0, 60, 0, 0, 2]) (camQuad id id) _ _ rfl rfl yes).1
    yes (.inl rfl)
    yes yes).1 rfl (issues_of rfl)
  have _ := ((h 0 (bs [12, 1] ++ le 2 500 ++ le 2 600 ++ bs [0, 0, 60, 0, 0, 2]) (camQuad id fun l => { l with
    preSet := some true }) _ _ rfl rfl yes).1 yes (.inl rfl) yes yes).2 rfl (issues_of rfl)
  have _ := ((h 0 (bs [12, 0, 1, 1] ++ le 2 500 ++ bs [0, 0, 60, 0, 0]) (camQuad id id) _ _ rfl rfl yes).2.1 yes rfl _
    rfl).1 rfl
    (issues_of rfl)
  have _ := ((h 0 (bs [12, 0, 1, 1] ++ le 2 500 ++ bs [0, 0, 60, 0, 0]) (camQuad id fun l => { l with
    limits := some { swingMin := 600, swingMax := 700, tapMax := [], precode := 0 } }) _ _ rfl rfl yes).2.1 yes rfl _
    rfl).2 rfl
    (issues_of rfl)
  have _ := ((h 0 (bs [12, 0, 2, 0]) (camQuad id id) _ _ rfl rfl yes).2.2.1 yes yes).1 yes yes (issues_of rfl)
  have _ := ((h 0 (bs [12, 1, 0, 0]) (camQuad id id) _ _ rfl rfl yes).2.2.1 yes yes).2.1 yes (issues_of rfl)
  have _ := ((h 0 (bs [12, 2, 0, 0]) (camQuad id id) _ _ rfl rfl yes).2.2.1 yes yes).2.2.1 yes (issues_of rfl)
  have _ := ((h 0 (bs [12, 3, 0, 0]) (camQuad id fun l => { l with state := .up }) _ _ rfl rfl yes).2.2.1 yes
    yes).2.2.2 yes rfl
    (issues_of rfl)
  have a := (h 0 (bs [12, 2]) (camQuad id id) _ _ rfl rfl yes).2.2.2.1 yes yes rfl (fun e => absurd e yes) (fun _ =>
    yes)
    (issues_of rfl)
  have b := (h 0 (bs [12, 0]) (camQuad id fun l => { l with state := .l2, power := 2 }) _ _ rfl rfl yes).2.2.2.1 yes
    yes rfl
    (fun e => absurd e yes) (fun e => absurd e yes) (issues_of rfl)
  have _ := (h 0 (bs [12, 1, 0, 1]) (camQuad id id) _ _ rfl rfl yes).2.2.2.2.1 yes yes yes (.inl yes) rfl yes
    (issues_of rfl)
  have _ := (h 0 (bs [12, 0, 0, 1]) (camQuad id fun l => { l with state := .test, pattern := 1 }) _ _ rfl rfl
    yes).2.2.2.2.1 yes yes
    yes (.inl yes) rfl yes (issues_of rfl)
  have _ := ((h 0 (bs [12, 1] ++ le 2 5 ++ le 4 9 ++ le 2 8 ++ le 2 0) (camQuad id id) _ _ rfl rfl yes).2.2.2.2.2.1 _
    _ rfl rfl yes
    yes yes yes (.inl yes)).2 (fun e => absurd e yes) (issues_of rfl)
  have _ := ((h 0 (bs [12, 3] ++ le 2 5 ++ le 4 9 ++ le 2 8 ++ le 2 0) ((camQuad id id).onChip fun c => c.setPort 12
    { c.port 12 with configured := true, width := 1, state := .linking }) _ _ rfl rfl yes).2.2.2.2.2.1 _ _ rfl rfl yes
    yes yes yes
    (.inr (.inl yes))).1 yes rfl (issues_of rfl)
  have _ := (h 0 (bs [12]) (camQuad id id) _ _ rfl rfl yes).2.2.2.2.2.2.1 rfl (issues_of rfl)
  have _ := (h 0 (bs [12]) (camQuad id fun l => { l with frozen := true }) _ _ rfl rfl yes).2.2.2.2.2.2.2.1 rfl
    (issues_of rfl)
  have _ := (h 0 (bs [12]) (camQuad id id) _ _ rfl rfl yes).2.2.2.2.2.2.2.2.1 (issues_of rfl)
  have _ := (h 0 (bs [12]) (camQuad id id) _ _ rfl rfl yes).2.2.2.2.2.2.2.2.2 (issues_of rfl)
  trivial

theorem meets_LaneBringUp (h : Obligations.LaneBringUp) : True := by
  have _ := (h (camQuad (fun q => { q with synthLock := false }) id) 12 _ _ rfl rfl rfl).1 3 rfl rfl rfl rfl
    (by intro i hi e; have : i = 12 ∨ i = 13 ∨ i = 14 ∨ i = 15 := by omega
        rcases this with rfl | rfl | rfl | rfl <;> cases e)
  have _ := (h (camQuad (fun q => { q with waitNo := some 5 }) fun l => { l with state := .wait }) 12 _ _ rfl rfl
    rfl).2.1 3 5 yes
    yes rfl (by intro j v hj e; interval_cases j <;> first | (cases e; exact .inr ⟨rfl, by decide⟩) | cases e)
  have _ := (h (camQuad id id) 12 _ _ rfl rfl rfl).2.2.1 rfl (.inl rfl) rfl
  have _ := (h (camQuad id fun l => { l with state := .down }) 12 _ _ rfl rfl rfl).2.2.1 rfl (.inr rfl) rfl
  have _ := (h (camQuad id fun l => { l with state := .acquire }) 12 _ _ rfl rfl rfl).2.2.2.1 rfl
  have _ := (h (camQuad id fun l => { l with state := .blind }) 12 _ _ rfl rfl rfl).2.2.2.2.1 rfl
  have _ := (h (camQuad id fun l => { l with state := .train }) 12 _ _ rfl rfl rfl).2.2.2.2.2.1 rfl
  have _ := (h (camQuad id fun l => { l with state := .qualify }) 12 _ _ rfl rfl rfl).2.2.2.2.2.2.1 7 rfl rfl
  have _ := (h (camQuad id fun l => { l with state := .qualify, qualWindow := true }) 12 _ _ rfl rfl
    rfl).2.2.2.2.2.2.2.1 7 rfl rfl
  have _ := (h (camQuad id fun l => { l with state := .train }) 12 _ _ rfl rfl rfl).2.2.2.2.2.2.2.2.1 (.inr (.inr
    (.inr rfl)))
  have _ := (h (camQuad id fun l => { l with state := .align, matches_ := 2, hypothesis := 2 }) 12 _ _ rfl rfl
    rfl).2.2.2.2.2.2.2.2.2.1 (commaSeen 6) rfl rfl rfl
    yes rfl rfl yes
  have _ := (h (camQuad id id) 12 _ _ rfl rfl rfl).2.2.2.2.2.2.2.2.2.2.1 rfl rfl yes yes yes rfl yes
  have _ := (h (camQuad id fun l => { l with state := .l1 }) 12 _ _ rfl rfl rfl).2.2.2.2.2.2.2.2.2.2.2.1 rfl
  have _ := (h (camQuad id id) 12 _ _ rfl rfl rfl).2.2.2.2.2.2.2.2.2.2.2.2.1 5 rfl
  have _ := (h ((camQuad id fun l => { l with state := .down }).onChip fun c => { c with lanes.refOk := false }) 12 _
    _ rfl rfl
    rfl).2.2.2.2.2.2.2.2.2.2.2.2.2 rfl
  trivial

theorem meets_LaneRunning (h : Obligations.LaneRunning) : True := by
  have u := fun (f : LaneSt → LaneSt) => h (camQuad id fun l => f { l with state := .up, locked := true }) 12 _ _ rfl
    rfl rfl
  have _ := (u id).1 400 rfl yes
  have _ := (u fun l => { l with lowRun := 3 }).2.1 0 rfl yes rfl
  have _ := (u id).2.2.1 (.inl rfl) rfl
  have _ := (u fun l => { l with quietSeen := true }).2.2.2.1 (.inl rfl) rfl
  have _ := ((u id).2.2.2.2.1 rfl yes).1 15 yes
  have _ := ((u id).2.2.2.2.1 rfl yes).2.1 16 yes rfl yes
  have _ := ((u fun l => { l with badRun := 63 }).2.2.2.2.1 rfl yes).2.2.1 16 yes rfl rfl
  have _ := ((u fun l => { l with missed := 3 }).2.2.2.2.1 rfl yes).2.2.2 (commaSeen 7) rfl rfl yes
  have _ := (u fun l => { l with state := .l1 }).2.2.2.2.2.1 rfl rfl 15
  have _ := (u fun l => { l with checker := true }).2.2.2.2.2.2.1 rfl
  have _ := (u fun l => { l with chkSync := true }).2.2.2.2.2.2.2.1 rfl
  have _ := (u fun l => { l with inj := some { kind := 1, left := 5, interval := 9, size := 8 } }).2.2.2.2.2.2.2.2.1 _
    rfl
  have _ := (u id).2.2.2.2.2.2.2.2.2 128 rfl rfl
  trivial

/-- `timed` with quad 3 a camera quad and port 12 configured and ready, changed by `f`. -/
def portOn (f : PortSt → PortSt) : State := (timed id).onChip fun c => (c.setQuad 3 { c.quad 3 with role := .camera }).setPort 12
  (f { PortSt.reset with configured := true, expTag := 0, state := .ready, aligned := true })

/-- A control request with tag 4 of mailbox 0. -/
def ctrlReq (retried : Bool) : CtrlReq :=
  { tag := 4, op := 1, addr := 0, len := 4, data := [], retried := retried, owner := .mailbox 0 }

/-- An 8-bit frame of 64 by 2 in 32-byte blocks, free running. -/
def sofBlock : List Byte :=
  bs [1, 0] ++ le 4 0 ++ le 4 9 ++ le 2 0xFFFF ++ le 8 5 ++ le 2 64 ++ le 2 2 ++ bs [8, 0, 0x10, 0] ++ le 2 9 ++ le 2 0

/-- That frame, open, with the block ranges `got`. -/
def openFrame (got : List (Nat × Nat)) : OpenFrame :=
  { sof := sofOf sofBlock, set := 0, data := [], next := 0, got := got, released := 0, broken := false, holed := false,
    eof := none }

/-- One block of pixels and its IMG. -/
def pixels : List Byte := List.replicate 32 5
def imgBlock : List Byte :=
  bs [2, 0] ++ le 4 1 ++ le 4 9 ++ le 4 0 ++ le 2 0 ++ bs [0, 0] ++ le 4 (crc32c pixels) ++ List.replicate 10 0

/-- The frame's EOF. -/
def eofBlock : List Byte := bs [3, 0] ++ le 4 1 ++ le 4 9 ++ le 4 4 ++ bs [0, 0] ++ List.replicate 16 0

theorem meets_PortCommands (h : Obligations.PortCommands) : True := by
  have _ := (h 0 (bs [12, 1, 0, 1] ++ le 4 0 ++ le 4 (unsigned 32 (-5)) ++ le 4 100 ++ le 4 1000)
    (portOn fun _ => PortSt.reset) _ _ rfl rfl yes).1 _ _ rfl rfl rfl yes yes (fun _ => yes) yes yes yes yes yes rfl
    (by intro k hk; revert k; decide +kernel) yes (issues_of rfl)
  have _ := (h 0 (bs [12]) (portOn fun v => { v with state := .off }) _ _ rfl rfl yes).2.1 rfl rfl
    (by intro n h1 h2; have e : n = 12 := Nat.le_antisymm (Nat.lt_succ_iff.mp h2) h1
        rw [e]; rfl) (issues_of rfl)
  have _ := (h 0 (bs [12]) (portOn id) _ _ rfl rfl yes).2.2.1 yes (issues_of rfl)
  have _ := (h 0 (bs [12, 0] ++ le 2 8 ++ le 4 16) (portOn id) _ _ rfl rfl yes).2.2.2.1 _ rfl yes rfl yes yes yes
    (issues_of rfl)
  have _ := ((h 0 (bs [12, 0] ++ le 2 4 ++ le 4 0x100 ++ bs [9, 9, 9, 9]) (portOn id) _ _ rfl rfl yes).2.2.2.2.1 _ rfl
    yes rfl yes
    yes yes).1 yes yes (issues_of rfl)
  have _ := ((h 0 (bs [12, 0] ++ le 2 4 ++ le 4 0x1000 ++ bs [9, 9, 9, 9]) (portOn id) _ _ rfl rfl yes).2.2.2.2.1 _
    rfl yes rfl yes
    yes yes).2 (.inl yes) (issues_of rfl)
  have _ := (h 0 (bs [12, 3, 0, 0] ++ le 4 7) (portOn id) _ _ rfl rfl yes).2.2.2.2.2.1 yes rfl rfl rfl yes (issues_of
    rfl)
  have
    _ := (h 0 (bs [12, 3, 0, 0] ++ le 4 7) (portOn fun v => { v with reqs := (List.range 8).map fun i => { ctrlReq false with
    tag := i } }) _ _ rfl rfl yes).2.2.2.2.2.2.1 yes rfl rfl rfl yes (issues_of rfl)
  have _ := (h 0 (bs [12]) (portOn id) _ _ rfl rfl yes).2.2.2.2.2.2.2.1 (issues_of rfl)
  have _ := (h 0 (bs [12]) (portOn id) _ _ rfl rfl yes).2.2.2.2.2.2.2.2 (issues_of rfl)
  trivial

/-- An OH_LANE of a camera, with ACTIVE_MASK 1 and PSN_NEXT 0. -/
def ohBlock : List Byte := ({ psnNext := 0, activeMask := 1, eqfRx := 0, status := 0, protect := 0 } : OhLane).bytes

/-- `portOn` with the last alignment block of lane 12 marked IDLE. -/
def portIdle : State := (portOn id).onChip fun c => c.setLane 12 { c.lane 12 with
  state := .up,
  far := some { senderTag := 0, period := 0, rxReady := 1, quiet := false, idle := true, precode := false, rate := 0, role := 1,
                parity := false, width := 0, laneIdx := 0 } }

theorem meets_CameraPackets (h : Obligations.CameraPackets) : True := by
  have _ := ((h (portOn fun v => { v with state := .sync }) 12 _ rfl rfl yes).1 rfl rfl).1 sofBlock (.inl rfl) rfl rfl
    rfl rfl
  have _ := ((h (portOn id) 12 _ rfl rfl yes).1 rfl rfl).2.1 sofBlock rfl rfl yes rfl rfl rfl rfl rfl rfl rfl
  have _ := ((h (portOn fun v => { v with frames := [openFrame []] }) 12 _ rfl rfl yes).1 rfl
    rfl).2.2.1 imgBlock pixels _ 1
    (.inl rfl) rfl rfl rfl yes rfl rfl rfl rfl rfl yes yes yes yes rfl yes yes yes
  have e := fun st w => ((h (portOn fun v => { v with state := st, frames := [openFrame [(0, 4)]] }) 12 _ rfl
    rfl (show 0 < 2 ^ 32 from by decide)).1 rfl
    rfl).2.2.2 eofBlock _ 4 w rfl rfl rfl rfl yes rfl yes yes rfl yes yes (by intro e he; cases he)
  have _ := e .ready (.inl rfl)
  have _ := e .sync (.inr (.inl rfl))
  have _ := (h portIdle 12 _ rfl rfl yes).2.1 sofBlock [] rfl yes (.inl rfl) _ (List.mem_cons_self ..)
  have _ := (h (portOn fun v => { v with frames := [openFrame []] }) 12 _ rfl rfl yes).2.2.1 9 0 0 _ rfl yes
    (by intro e he; cases he)
  have _ := (h (portOn id) 12 _ rfl rfl yes).2.2.2.1 (.inl rfl) yes
  have p := fun l => ((h ((portOn fun v => { v with protection := 1, width := 2 }).onChip fun c => (c.setLane 12 { c.lane 12 with
    locked := true }).setLane 13 { c.lane 13 with locked := true }) 12 _ rfl rfl yes).2.2.2.2.1 (.inl rfl) rfl) l _ rfl
  have _ := (p [13]).1 yes
  have _ := (p []).2.1 yes
  have _ := (p [12, 13]).2.2 yes
  have _ := (h (portOn id) 12 _ rfl rfl yes).2.2.2.2.2.1 12 ohBlock rfl (.inl rfl) rfl yes yes yes yes
  have _ := (h (portOn fun v => { v with width := 2 }) 12 _ rfl rfl yes).2.2.2.2.2.2.1 12 ohBlock rfl (.inl rfl) yes
    yes yes yes
  have d := (h (portOn fun v => { v with
    runs := [{ first := 7, count := 1, closed := true, sent := 1, missing := [7] }] }) 12 _ rfl rfl yes).2.2.2.2.2.2.2
    _ 7 rfl rfl
    yes yes
  have _ := d.1 rfl
  have _ := (d.2 rfl rfl rfl yes).2 rfl rfl
  trivial

theorem meets_CameraPortEvents (h : Obligations.CameraPortEvents) : True := by
  have _ := (h (portOn id) 12 _ rfl rfl).1 0 ⟨3, 4, 0x1000⟩ 0 [] rfl yes (fun _ => ⟨rfl, rfl⟩) rfl yes rfl rfl rfl
  have w := fun b => (h (boxed 0 (fun x => { x with
    parked := some { on := .camera 12 4, answer := none, cancelSent := false } })
    (portOn fun v => { v with reqs := [ctrlReq b] })) 12 _ rfl rfl).2.1 _ 0 rfl rfl rfl rfl
  have _ := (w false).1 0 ⟨4, 4, 0⟩ 0 [] rfl (fun _ => ⟨rfl, rfl⟩) rfl yes rfl rfl rfl
  have _ := (w false).2.1 rfl
  have _ := (w true).2.2 rfl
  have _ := (h (portOn fun v => { v with state := .discover }) 12 _ rfl rfl).2.2.1 rfl rfl rfl yes
  have f := (h (portOn fun v => { v with
    fires := [{ fireId := 5, unit := 3, instant := 9, delayed := false, pos := none, enc := 255, noLatch := false,
                answered := false, sofs := [], ended := false }] }) 12 _ rfl rfl).2.2.2.1 _ 0 (fun _ => ⟨rfl, rfl⟩)
    rfl rfl rfl rfl rfl yes rfl rfl rfl
  have _ := f.2.1 1 yes yes
  have _ := f.2.1 3 yes yes
  have
    _ := (h ((portOn fun v => { v with state := .sync }).onChip fun c => c.setLane 12 { c.lane 12 with state := .up }) 12 _ rfl
    rfl).2.2.2.2.1 65536000 33554432 0 0 70000000 0 _ _ yes (fun j hj => absurd hj (Nat.not_lt_zero j)) rfl rfl (.inl
    rfl) rfl rfl
    yes rfl
  have _ := (h (portOn id) 12 _ rfl rfl).2.2.2.2.2.1 rfl rfl rfl rfl
  have _ := (h (portOn fun v => { v with aligned := false }) 12 _ rfl rfl).2.2.2.2.2.2.1 rfl
  have _ := (h (portOn fun v => { v with corrWait := true }) 12 _ rfl rfl).2.2.2.2.2.2.2.1 rfl
  have _ := (h (portOn id) 12 _ rfl rfl).2.2.2.2.2.2.2.2 0 rfl rfl
  trivial

/-- `timed` with port 3 configured, a sealed table 1 and an open table 2 of it, and memory `m`. -/
def tabled : State := (timed id).onChip fun c => { c.setPort 3 { PortSt.reset with configured := true, width := 1 } with
  store.tables := [(1, { port := 3, kind := 2, size := 8, sealed := true }),
    (2, { port := 3, kind := 2, size := 8, sealed := false })] }

/-- A parameter set for port 3 from frame 100 on, with FLAGS `fl`. -/
def queueReq (fl : Nat) : List Byte :=
  bs [3, 0, 0, 0] ++ le 4 100 ++ bs [0, fl, 0, 0] ++ List.replicate 28 0 ++ le 4 1000 ++ List.replicate 104 0

/-- A parameter set that waits. -/
def waitingSet : ParamSet := { number := 1, sub := 0, tag := 50, flags := 0, late := false, mailbox := 0, queuedAt := 0, bytes := [] }

theorem meets_TablesAndParameters (h : Obligations.TablesAndParameters) : True := by
  have _ := ((h.1 0 (bs [3, 1, 0, 0] ++ le 4 16384) tabled).1 _ _ _ rfl rfl yes yes yes yes rfl rfl).1 yes (issues_of
    yes)
  have _ := ((h.1 0 (bs [3, 1, 0, 0] ++ le 4 (2 ^ 20 + 1)) tabled).1 _ _ _ rfl rfl yes yes yes yes rfl rfl).2 yes
    (issues_of yes)
  have _ := ((h.1 0 (le 4 2 ++ le 4 6 ++ List.replicate 24 0 ++ bs [7, 8]) tabled).2.1 2 _ yes rfl).1 rfl yes
    (issues_of yes)
  have _ := ((h.1 0 (le 4 1 ++ le 4 6 ++ List.replicate 24 0 ++ bs [7, 8]) tabled).2.1 1 _ yes rfl).2.1 rfl yes
    (issues_of yes)
  have _ := ((h.1 0 (le 4 2 ++ le 4 7 ++ List.replicate 24 0 ++ bs [7, 8]) tabled).2.1 2 _ yes rfl).2.2.1 yes
    (issues_of yes)
  have _ := ((h.1 0 (le 4 2 ++ le 4 (crc32c (List.replicate 8 0))) tabled).2.1 2 _ yes rfl).2.2.2.1 rfl yes yes
    (issues_of yes)
  have _ := ((h.1 0 (le 4 2 ++ le 4 0) tabled).2.1 2 _ yes rfl).2.2.2.2.1 rfl yes (issues_of yes)
  have _ := ((h.1 0 (le 4 1) tabled).2.1 1 _ yes rfl).2.2.2.2.2.1 rfl (issues_of yes)
  have _ := ((h.1 0 (le 4 1) (tabled.onChip fun c => c.setPort 3 { c.port 3 with
    pendSets := [{ waitingSet with bytes := List.replicate 12 0 ++ le 4 1 ++ List.replicate 128 0 }] })).2.1 1 _ yes
    rfl).2.2.2.2.2.2 rfl (issues_of yes)
  have _ := (h.1 0 (le 4 9 ++ le 4 0 ++ List.replicate 24 0 ++ bs [7, 8]) tabled).2.2 rfl
  have _ := ((h.2 0 (queueReq 0) (timed id) 3 _ yes rfl yes).1 _ _ _ _ _ rfl rfl rfl rfl rfl rfl
    (.inr (by intro x hx; cases hx))).1 rfl
    (issues_of yes)
  have _ := (((h.2 0 (queueReq 0) tabled 3 _ yes rfl yes).1 _ _ _ _ _ rfl rfl rfl rfl rfl rfl
    (.inr (by intro x hx; cases hx))).2 rfl).1
    yes (fun e => absurd e yes) (issues_of yes)
  have _ := (((h.2 0 (queueReq 1) (tabled.onChip fun c => c.setPort 3 { c.port 3 with
    pendSets := List.replicate 8 waitingSet }) 3 _ yes rfl yes).1 _ _ _ _ _ rfl rfl rfl rfl rfl rfl (.inl yes)).2
    rfl).2.1 yes (issues_of yes)
  have _ := (((h.2 0 (queueReq 0) (tabled.onChip fun c => c.setPort 3 { c.port 3 with lastSof := [(0, 100)] }) 3 _ yes
    rfl yes).1 _ _ _
    _ _ rfl rfl rfl rfl rfl rfl (.inr (by intro x hx; cases hx))).2 rfl).2.2 yes yes yes (issues_of yes)
  have _ := (h.2 0 (bs [3, 0, 0, 0] ++ le 4 50) (tabled.onChip fun c => c.setPort 3 { c.port 3 with
    pendSets := [waitingSet] }) 3 _ yes rfl yes).2.1 yes _ rfl (issues_of yes)
  have _ := (h.2 0 (bs [3, 0]) (tabled.onChip fun c => c.setPort 3 { c.port 3 with pendSets := [waitingSet] }) 3 _ yes
    rfl yes).2.2
    yes _ _ rfl rfl (issues_of yes)
  trivial

/-- `streaming` with the frame `frameIn`, placed as `pl`. -/
def processing (pl : Placement) : State :=
  (streaming fun v => { v with
    started := true, place.placement := pl, frames := [{ frameIn with place.placement := pl }] }).onChip fun c =>
      c.setPipe 4 { c.pipe 4 with inline := if pl = .inLine then some 5 else none }

theorem meets_PipeServiceAndWork (h : Obligations.PipeServiceAndWork) : True := by
  have _ := ((h.1 (timed fun t => t)).1 0 (bs [4]) _ _ rfl rfl yes).2.1 yes (issues_of yes)
  have _ := ((h.1 ((timed id).onChip fun c => c.setPipe 4 { c.pipe 4 with state := .faulted })).1 0 (bs [4]) _ _ rfl
    rfl yes).1 rfl
    (issues_of yes)
  have _ := ((h.1 (timed id)).1 0 (bs [4]) _ _ rfl rfl yes).2.2 (issues_of yes)
  have _ := (h.1 (timed id)).2.1 0 (bs [4]) (.inl yes) (issues_of yes)
  have _ := (h.1 (timed id)).2.1 0 (bs [0xFF]) (.inr yes) (issues_of yes)
  have _ := ((h.1 (timed id)).2.2 4 _ rfl rfl).1 0 rfl rfl
  have _ := ((h.1 (timed id)).2.2 4 _ rfl rfl).2.1 yes yes
  have _ := ((h.1 ((timed id).onChip fun c => c.setPipe 4 { c.pipe 4 with state := .faulted })).2.2 4 _ rfl rfl).2.2 rfl
  have _ := (h.2 (timed id) 4 _ rfl rfl).1 rfl
  have _ := (h.2 (processing .inLine) 4 _ rfl
    rfl).2.1 (by simp [show (processing .inLine).chip.inLineNext 4 = some _ from rfl])
  have _ := (h.2 (timed id) 4 _ rfl rfl).2.2.1 rfl rfl
  have _ := (h.2 (processing .inLine) 4 _ rfl rfl).2.2.2.1 _ _ _ rfl rfl rfl rfl yes yes
  have _ := (h.2 (processing .throughMemory) 4 _ rfl rfl).2.2.2.2 _ _ _ rfl rfl rfl rfl rfl yes yes
  trivial

/-- A move of stream 5 to pipe 6 and write channel 8. -/
def moveReq : List Byte := le 2 5 ++ bs [1, 6, 0, 0, 8, 0] ++ le 2 0

/-- An output setting of stream 5. -/
def outputReq : List Byte := le 2 5 ++ le 2 0x2500 ++ bs [4, 1, 1, 1, 1, 1] ++ le 2 2 ++ bs [0, 0, 1, 48] ++ le 2 100 ++ bs [0, 0]

/-- `streamReq` with Seam ID 9 for its destination, and `camera` with a route to it over a link that is not there. -/
def seamReq : List Byte := streamReq.take 9 ++ bs [1, 0, 0, 0, 0] ++ le 2 9 ++ streamReq.drop 16
def seamTo9 : State := camera.onChip fun c => { c with seam.routes := [(9, { RouteSt.none with valid := true, primary := 0 })] }

theorem some_of {o : Option (List Byte)} (h : o.isSome = true) : o = some (o.getD []) := by
  cases o with
  | none => cases h
  | some v => rfl

theorem meets_StreamLife (h : Obligations.StreamLife) : True := by
  have _ := ((h 0 streamReq camera 5 yes).1 _ _ rfl rfl rfl rfl yes yes yes (.inr yes) rfl (.inl yes) rfl (.inl rfl)
    yes).2 yes (issues_of yes)
  have _ := (((h 0 streamReq (camera.onChip fun c => { c with store.fsStacks := [0, 1, 2, 3] }) 5 yes).1 _ _ rfl rfl
    rfl rfl
    yes yes yes (.inr yes) rfl (.inl yes) rfl (.inl rfl) yes).1 _ (some_of yes)).1 yes (issues_of yes)
  have _ := (((h 0 seamReq seamTo9 5 yes).1 _ _ rfl rfl rfl rfl yes yes yes (.inr yes) rfl (.inl yes) rfl (.inl rfl)
    yes).1 _
    (some_of yes)).2 yes (issues_of yes)
  have _ := ((h 0 moveReq (streaming fun v => { v with old := some { epoch := 255, place := v.place, resv := [] } }) 5
    yes).2.1 _ _ _ yes rfl yes yes
    rfl yes rfl rfl rfl).1 yes (issues_of yes)
  have _ := ((h 0 moveReq (streaming id) 5 yes).2.1 _ _ _ yes rfl yes yes rfl yes rfl rfl rfl).2
    rfl (fun e => absurd e yes) yes
    (fun e => absurd e yes) yes (.inl rfl) yes yes yes (issues_of yes)
  have _ := ((h 0 (le 2 5) (streaming id) 5 yes).2.2.1 _ yes rfl).1 rfl rfl (issues_of rfl)
  have _ := ((h 0 (le 2 5) (streaming fun v => { v with started := true }) 5 yes).2.2.1 _ yes rfl).2 (.inl rfl)
    (issues_of rfl)
  have _ := ((h 0 (le 2 5) (streaming fun v => { v with frames := [frameIn] }) 5 yes).2.2.1 _ yes rfl).2 (.inr yes)
    (issues_of rfl)
  have a := (h 0 (le 2 6) (streaming id) 6 yes).2.2.2 yes rfl
  have _ := a.1 (issues_of rfl)
  have _ := a.2.1 (issues_of rfl)
  have _ := a.2.2 (issues_of rfl)
  trivial

theorem meets_StreamCommands (h : Obligations.StreamCommands) : True := by
  have _ := ((h 0 (le 2 512) (streaming id)).1 yes yes).1 yes (issues_of yes)
  have _ := ((h 0 (le 2 512) (streaming fun v => { v with
    resv := [{ res := 7, inst := 2, demand := 23000 * scale }] })).1 yes yes).2 yes (issues_of yes)
  have r := fun f => (h 0 (le 2 5) (streaming f)).2 5 _ yes yes rfl
  have _ := (r id).1 rfl (.inr yes) (issues_of yes)
  have _ := (r fun v => { v with started := true }).2.1 rfl (issues_of yes)
  have _ := (r fun v => { v with started := true }).2.2.1 rfl (issues_of yes)
  have _ := (r id).2.2.2.1 rfl (issues_of yes)
  have o := fun f => (h 0 outputReq (streaming f)).2 5 _ yes yes rfl
  have _ := ((o id).2.2.2.2.1 _ _ _ _ rfl rfl rfl yes yes yes yes (.inr yes) (fun e => absurd e yes) yes rfl (.inl
    rfl) _ rfl).2
    (fun e => absurd e yes) yes yes yes yes (issues_of yes)
  have _ := ((o fun v => { v with lowest := 0xFFFFFFF }).2.2.2.2.1 _ _ _ _ rfl rfl rfl yes yes yes yes (.inr
    yes) (fun e => absurd e yes)
    yes rfl (.inl rfl) _ rfl).1 (.inr yes) (issues_of yes)
  have _ := ((h 0 (le 2 5 ++ bs [1, 0] ++ le 4 1) (streaming id)).2 5 _ yes yes rfl).2.2.2.2.2.1 yes (fun _ _ => yes)
    yes (issues_of yes)
  have _ := ((h 0 (le 2 5 ++ bs [1, 0] ++ le 4 0xFFFFFFF) (streaming id)).2 5 _ yes yes rfl).2.2.2.2.2.2.1 yes yes
    (issues_of yes)
  have _ := (r fun v => { v with frames := [frameIn] }).2.2.2.2.2.2.2.1 _ rfl (issues_of yes)
  have _ := (r id).2.2.2.2.2.2.2.2 (issues_of yes)
  trivial

/-- `streaming` with an active lease 3 of function 0 at offset 2 MiB of BAR2. -/
def leased : State := (streaming id).onChip fun c =>
  (c.setLease 0 3 { LeaseSt.reset with state := .active, gen := 2, seq := 7, offset := 2 ^ 21, size := 2 ^ 21, data := bs [1, 2, 3] }).setFn 0
    { c.fn 0 with windows := [(0, { kind := 1, write := false, log2 := 22, base := 0, handle := 0, refused := 0, space := 0 })] }

theorem meets_LeasesAndStore (h : Obligations.LeasesAndStore) : True := by
  have _ := (h.1 (streaming fun v => { v with frames := [frameIn], epoch := 1 }) rfl).1 5 _ rfl _ rfl
  have a := (h.1 leased rfl).2 0 3 _ rfl rfl
  have _ := a.1 rfl
  have _ := ((h.1 (streaming id) rfl).2 0 3 _ rfl rfl).2.1 yes
  have b := a.2.2.1 (2 * 64 + 3) rfl yes
  have _ := b.1 rfl yes
  have _ := (a.2.2.1 (3 * 64 + 3) rfl yes).2.1 yes
  have _ := ((h.1 (streaming id) rfl).2 0 3 _ rfl rfl).2.2.1 3 rfl yes
  have r := fun (f : Chip → LeaseSt → LeaseSt) => ((h.1 (leased.onChip fun c => c.setLease 0 3 (f c (c.lease 0 3)))
    rfl).2 0 3 _ rfl rfl).2.2.2 (2 ^ 21 + 1) 4
  have _ := (r fun _ l => l) _ _ rfl yes rfl rfl
  have _ := (r fun _ l => { l with state := .ended }) _ _ rfl yes rfl rfl
  have _ := (r fun c l => { l with state := .ended, endAt := some c.up }) _ _ rfl yes rfl rfl
  obtain ⟨_, _, k⟩ := (r fun _ l => l) _ _ rfl yes rfl rfl
  have _ := k.1 yes
  have _ := k.2.2.2 (.inl yes)
  obtain ⟨_, _, k⟩ := (r fun _ l => { l with state := .ended }) _ _ rfl yes rfl rfl
  have _ := k.2.1 yes
  have _ := k.2.2.1 rfl yes yes yes
  have _ := ((h.2 (timed id) rfl).1 3 none yes).1 (.inl rfl)
  have _ := ((h.2 ((timed id).onChip fun c => { c with store.bankErr := [(3, 0)] }) rfl).1 3 none yes).1 (.inr ⟨0,
    rfl, yes⟩)
  have _ := ((h.2 ((timed id).onChip fun c => { c with store.bankErr := [(3, c.up)] }) rfl).1 3 none yes).2 _ rfl yes
  have _ := ((h.2 (timed id) rfl).2 1 3 none _ rfl yes yes).1 (.inl rfl)
  have _ := ((h.2 ((timed id).onChip fun c => { c with store.pcErr := [(35, 0)] }) rfl).2 1 3 none _ rfl yes yes).1
    (.inr ⟨0, rfl, yes⟩)
  have _ := ((h.2 ((timed id).onChip fun c => { c with store.pcErr := [(35, c.up)] }) rfl).2 1 3 none _ rfl yes
    yes).2.1 _ rfl yes yes
  have _ := ((h.2 ((timed id).onChip fun c => { c with store.pcs := [32, 33, 34, 36, 37, 38, 39] }) rfl).2 1 3 none _
    rfl yes
    yes).2.2.1 yes
  have _ := ((h.2 (timed id) rfl).2 1 3 none _ rfl yes yes).2.2.2
  trivial

/-- `streaming` with read channel 9 of function 0 open, changed by `f`, and write channel 7 changed by `g`. -/
def chans (f g : ChanSt → ChanSt) : State := (streaming id).onChip fun c =>
  (c.setRch 0 9 (f { ChanSt.reset with fn := some 0, stream := 5, rate := 100, descBase := 4096, tail := 1 })).setWch 0 7
    (g (c.wch 0 7))

/-- A configuration of a channel. -/
def ringCfg : RingCfg :=
  { dataBase := 2 ^ 20, dataLog2 := 20, pegBase := 8192, pegLog2 := 6, stsBase := 4096, stsLog2 := 5, startMark := 1,
    stopMark := 0, vector := 0, flags := 0, tag := 5, index := 0 }

/-- A CONFIG descriptor of a read channel with status ring size `log2`. -/
def cfgDesc (log2 : Nat) : List Byte :=
  bs [2, 0, 0, 0, 0, 0, log2, 0] ++ List.replicate 16 0 ++ le 8 4096 ++ List.replicate 4 0 ++ le 4 77 ++ List.replicate 24 0

/-- A TRANSFER descriptor of 8 bytes to offset 0 of table 1. -/
def xferDesc : List Byte :=
  bs [3, 0, 0, 0, 1, 0, 0, 0] ++ le 8 4096 ++ le 4 8 ++ le 4 0 ++ le 4 1 ++ le 4 0 ++ le 4 0 ++ le 4 77 ++ List.replicate 24 0

/-- The frame of stream 5, finished with `n` output bytes. -/
def frameOut (n : Nat) : Frame := { frameIn with phase := .finished, bytes := List.replicate n 3 }

/-- Write channel 7 running on the frames `l`. -/
def writing (l : List Frame) (f : ChanSt → ChanSt) : State :=
  (streaming fun v => { v with frames := l, seqNext := 10 }).onChip fun c =>
    c.setWch 0 7 (f { c.wch 0 7 with cfg := some ringCfg, state := .run })

/-- An event record that waits in class U. -/
def eventTlp : Tlp := { cls := 0, fn := 0, kind := .event, addr := 0, data := [], size := 48, start := 0, vecs := [] }

theorem meets_DmaCommands (h : Obligations.DmaCommands) : True := by
  have _ := (h 0 (le 2 5 ++ bs [4, 0, 0, 0]) (streaming id)).1 5 _ _ _ yes yes yes rfl rfl yes yes rfl (.inl rfl) yes
    yes rfl (issues_of yes)
  have _ := ((h 0 (bs [0, 9, 0, 0] ++ le 2 5 ++ le 2 0 ++ le 4 100) (streaming id)).2.1 _ _ _ _ rfl rfl rfl rfl yes
    yes rfl yes yes yes
    rfl (.inl rfl)).1 yes (issues_of yes)
  have _ := ((h 0 (bs [0, 9, 0, 0] ++ le 2 5 ++ le 2 0 ++ le 4 10000000) (streaming id)).2.1 _ _ _ _ rfl rfl rfl rfl
    yes yes rfl yes yes
    yes rfl (.inl rfl)).2 yes (issues_of yes)
  have _ := ((h 0 (bs [0, 9]) (chans id id)).2.2.1 _ _ rfl rfl yes yes).1 (.inl rfl) (issues_of yes)
  have _ := ((h 0 (bs [0, 9]) (chans (fun w => { w with state := .run }) id)).2.2.1 _ _ rfl rfl yes yes).2 yes yes
    (issues_of yes)
  have _ := (h 0 (bs [0, 1, 9]) (chans id id)).2.2.2.1 _ _ _ _ rfl rfl rfl yes yes yes rfl (issues_of yes)
  have _ := ((h 0 (bs [0, 0, 1, 7] ++ le 4 0) (chans id id)).2.2.2.2.1 _ _ _ _ rfl rfl rfl rfl yes rfl yes (.inl yes)
    yes yes).1 (.inl yes)
    (issues_of yes)
  have _ := ((h 0 (bs [0, 0, 1, 7] ++ le 4 9) (streaming fun v => { v with
    resv := [{ res := 4, inst := 0, demand := 100 * scale }], cls := 1 })).2.2.2.2.1 _ _ _ _ rfl rfl rfl rfl yes rfl
    yes (.inl yes) yes
    yes).2 yes yes (issues_of yes)
  have _ := (h 0 (bs [0]) (chans id id)).2.2.2.2.2 _ _ _ rfl yes rfl rfl (issues_of yes)
  trivial

theorem meets_ChannelDoorbells (h : Obligations.ChannelDoorbells) : True := by
  have _ := (h (chans id id) 128 true 9 _ _ rfl rfl rfl rfl rfl rfl).1 3 yes
  have w := fun f => (h (chans id f) 0 false 7 _ _ rfl rfl rfl rfl rfl rfl).2
  have r := fun f => (h (chans f id) 0 true 9 _ _ rfl rfl rfl rfl rfl rfl).2
  have _ := ((w id rfl).2.1 3 yes).1 yes
  have _ := ((w id rfl).2.1 30 yes).2 yes
  have _ := (w id rfl).1 _ rfl
  have _ := (((w fun c => { c with wr := 64 }) rfl).2.2.1 1 rfl yes).1 yes
  have _ := ((w id rfl).2.2.1 1 rfl yes).2.1 yes
  have _ := (((w fun c => { c with pegs := 1 }) rfl).2.2.1 1 rfl yes).2.2.1 yes
  have _ := ((w id rfl).2.2.1 1 rfl yes).2.2.2 yes
  have _ := ((w fun c => { c with state := .stopped }) rfl).2.2.2.1 rfl rfl rfl
  have _ := ((r fun c => { c with state := .stopped }) rfl).2.2.2.1 rfl rfl rfl
  have _ := (w id rfl).2.2.2.2.1 yes rfl
  have _ := (w id rfl).2.2.2.2.2.1 rfl
  have a := (h (writing [] id) 0 false 7 _ _ rfl rfl rfl rfl rfl rfl).2 rfl
  have _ := (a.2.2.2.2.2.2.1 _ rfl rfl rfl).2.1 rfl
  have b := (h (writing [{ frameOut 9 with start := some 0 }] id) 0 false 7 _ _ rfl rfl rfl rfl rfl rfl).2 rfl
  have _ := (b.2.2.2.2.2.2.1 _ rfl rfl rfl).2.2 yes
  have g := ((r fun c => { c with state := .run }) rfl).2.2.2.2.2.2.2 rfl rfl
  have _ := g.1 rfl rfl
  have _ := g.2.2.1 nofun
  have m := ((r fun c => { c with state := .run, xfer := some (Chip.transferOf 0 xferDesc) }) rfl).2.2.2.2.2.2.2 rfl rfl
  have _ := m.2.1 nofun
  have k := ((r fun c => { c with state := .run, xfer := some { Chip.transferOf 0 xferDesc with asked := 4 } })
    rfl).2.2.2.2.2.2.2 rfl rfl
  have _ := k.2.2.2 _ rfl yes
  trivial

/-- `chans` with the fetched descriptor `b` first on read channel 9, in state `st`. -/
def fetched (st : ChanState) (b : List Byte) : State := (chans (fun w => { w with
  state := st, cfg := some ringCfg, fetched := [(0, b)], head := 1, asked := 1 }) id).onChip fun c => { c with
    store.tables := [(1, { port := 3, kind := 2, size := 8, sealed := false })] }

/-- `chans` with one read of 64 bytes outstanding for the descriptors of read channel 9. -/
def reading : State := (chans (fun w => { w with asked := 1 }) id).onChip fun c => c.setHost 0 { c.host 0 with
  reads := [{ tag := 0, who := .desc true 9 0, len := 64, data := none }] }

theorem no_free_tag (s : State) (a : (s.chip.host 0).flit = false) :
    Chip.freeTag ((s.onChip fun c => c.setHost 0 { c.host 0 with lateTags := List.range 1024 }).chip.host 0) = none := by
  simp [State.onChip, Chip.freeTag, a]
  omega

theorem meets_DmaReads (h : Obligations.DmaReads) : True := by
  have _ := ((h (fetched .idle (List.replicate 64 0)) 0 _ rfl rfl).1 true 9 _ _ _ _ _ rfl rfl rfl rfl rfl).1 (.inl
    rfl) rfl yes
  have _ := ((h (fetched .idle (cfgDesc 5)) 0 _ rfl rfl).1 true 9 _ _ _ _ _ rfl rfl rfl rfl rfl).2.1 (.inl rfl) rfl
    yes yes
  have _ := ((h (fetched .idle (cfgDesc 3)) 0 _ rfl rfl).1 true 9 _ _ _ _ _ rfl rfl rfl rfl rfl).2.2.1 (.inl rfl) rfl
    yes yes
  have _ := (((h (fetched .run xferDesc) 0 _ rfl rfl).1 true 9 _ _ _ _ _ rfl rfl rfl rfl rfl).2.2.2 _ rfl rfl rfl rfl
    yes rfl yes yes
    yes yes).1 yes
  have _ := (((h ((fetched .run xferDesc).onChip fun c => c.setRch 0 9 { c.rch 0 9 with badFetch := [0] }) 0 _ rfl
    rfl).1 true 9 _
    _ _ _ _ rfl rfl rfl rfl rfl).2.2.2 _ rfl rfl rfl rfl yes rfl yes yes yes yes).2 yes
  have _ := (h ((chans id id).onChip fun c => c.setHost 0 { c.host 0 with
    reads := List.replicate 64 { tag := 0, who := .gone, len := 4, data := none } }) 0 _ rfl rfl).2.1 yes
  have _ := ((h (chans id id) 0 _ rfl rfl).2.2.2.1 265 9 true _ 0 0 yes yes yes rfl rfl rfl rfl).1 yes
  have _ := ((h ((chans (fun w => { w with
    state := .run, asked := 1, xfer := some (Chip.transferOf 0 xferDesc) }) id).onChip fun c => { c with
      store.tables := [(1, { port := 3, kind := 2, size := 8, sealed := false })] }) 0 _ rfl rfl).2.2.2.1 265 9 true
    _ 0 0 yes yes yes
        rfl rfl rfl rfl).2 _ _ yes rfl yes rfl
  have _ := (h ((chans id id).onChip fun c => c.setHost 0 { c.host 0 with lateTags := List.range 1024 }) 0 _ rfl
    rfl).2.2.1
    (no_free_tag _ rfl)
  have _ := ((h ((chans id id).onChip fun c => c.setHost 0 { c.host 0 with lateTags := [3] }) 0 _ rfl
    rfl).2.2.2.2.1 3 0 false
    []).1 yes
  have _ := ((h reading 0 _ rfl rfl).2.2.2.2.1 3 0 false []).2.1 yes yes
    (.inr (by intro r hr; revert r; decide +kernel))
  have z := fun st => ((h (reading.onChip fun c => c.setHost 0 { c.host 0 with state := .frozen, frzAt := 1 }) 0 _ rfl
    rfl).2.2.2.2.1 3 st false []).2.2
  have _ := (z 0).1 yes rfl rfl rfl
  have _ := (z 1).2.1 yes rfl yes (.inl yes)
  have c := fun st b d => ((h reading 0 _ rfl rfl).2.2.2.2.1 0 st b d).2.2.2.2 _ rfl rfl yes (.inl rfl)
  have _ := (c 1 false []).1 yes yes
  have _ := (c 4 false []).2.1 rfl
  have _ := (c 0 true []).2.2.1 rfl rfl
  have _ := (c 0 false (cfgDesc 5)).2.2.2.1 true 9 0 _ rfl rfl rfl rfl rfl yes rfl
  have _ := (((h ((chans (fun w => { w with
    state := .run, xfer := some { Chip.transferOf 0 xferDesc with asked := 4 } }) id).onChip fun c => { c.setHost 0 { c.host 0 with
      reads := [{ tag := 0, who := .data 9 4, len := 4, data := none }] } with
        store.tables := [(1, { port := 3, kind := 2, size := 8, sealed := false })] }) 0 _ rfl rfl).2.2.2.2.1 0 0 false
          (le 4 5)).2.2.2.2 _ rfl rfl yes (.inl rfl)).2.2.2.2 9 _ _ rfl rfl rfl rfl rfl rfl rfl rfl rfl yes yes
  have _ := (h reading 0 _ rfl rfl).2.2.2.2.2 _ 0 rfl rfl rfl
  trivial

theorem meets_DmaIssue (h : Obligations.DmaIssue) : True := by
  have _ := ((h (writing [frameOut 100] id) 0 _ rfl rfl).1 7 _ _ _ yes rfl rfl rfl).1 (.inl rfl) rfl (.inr rfl)
  have _ := ((h (writing [] id) 0 _ rfl rfl).1 7 _ _ _ yes rfl rfl rfl).2.1 yes rfl
  have _ := (((h (writing [{ frameOut 0 with phase := .lost }] id) 0 _ rfl rfl).1 7 _ _ _ yes rfl rfl rfl).2.2 0 _ rfl
    rfl rfl rfl rfl
    rfl rfl).1 rfl rfl rfl yes rfl
  have _ := (((h (writing [frameOut 100] fun w => { w with issuing := true }) 0 _ rfl rfl).1 7 _ _ _ yes rfl rfl
    rfl).2.2 0 _ rfl rfl
    rfl rfl rfl rfl rfl).2.1 0 100 rfl yes rfl rfl rfl yes yes yes yes yes yes yes
  have _ := (((h (writing [frameOut 100] fun w => { w with issuing := true, pegs := 64 }) 0 _ rfl rfl).1 7 _ _ _ yes
    rfl rfl
    rfl).2.2 0 _ rfl rfl rfl rfl rfl rfl rfl).2.2 rfl rfl rfl rfl rfl yes
  have a := (h (camera.onChip fun c => c.setHost 0 { c.host 0 with qU := [eventTlp] }) 0 _ rfl rfl).2.1 false false
    (.inl rfl) yes
  have _ := a.1 _ _ rfl rfl rfl rfl
  have
    _ := ((h ((streaming fun v => { v with frames := [{ frameOut 9 with phase := .pegged, lease := some (3, 0) }] }).onChip fun c =>
    c.setHost 0 { c.host 0 with qU := [{ eventTlp with kind := .peg 5 7 frameIn.seq, data := List.replicate 64 0 }] }) 0 _ rfl
    rfl).2.1 false false (.inl rfl) yes).2.1 _ _ 5 7 frameIn.seq _ _ rfl rfl rfl rfl rfl rfl rfl rfl
  have
    _ := ((h (camera.onChip fun c => c.setHost 0 { c.host 0 with qM := [{ eventTlp with cls := 3, kind := .read 5 }] }) 0 _ rfl
    rfl).2.1 false false (.inl rfl) yes).2.2.1 _ _ 5 rfl rfl rfl rfl rfl rfl rfl
  have _ := ((h camera 0 _ rfl rfl).2.1 false false (.inl rfl) yes).2.2.2 rfl rfl rfl rfl
  have _ := (h (camera.onChip fun c => c.setHost 0 { c.host 0 with state := .down }) 0 _ rfl rfl).2.2 false false
    (.inl rfl)
  trivial

/-- `timed` with host port 0's link up and state `st`, changed by `f`. -/
def hosted (st : HostState) (f : HostSt → HostSt) : State := (timed id).onChip fun c => (c.setHost 0 (f { c.host 0 with
  state := st, link := true, rate := 7, width := 16, ready := true, perst := false })).setFn 0
    { c.fn 0 with bme := true, msixOn := true }

/-- A window of kind `k`, 2 MiB at 2 MiB. -/
def win (k : Nat) (write : Bool) : WindowSt :=
  { kind := k, write := write, log2 := 21, base := 2 ^ 21, handle := 1, refused := 0, space := if k = 2 then 2 else 0 }

/-- `hosted` with that window as entry 4 of function 0. -/
def winState (k : Nat) (write : Bool) : State := (hosted .service id).onChip fun c =>
  c.setFn 0 { c.fn 0 with windows := [(4, win k write)] }

theorem meets_HostCommands (h : Obligations.HostCommands) : True := by
  have _ := (h mtView (bs [0, 16, 31, 27]) (hosted .service id)).1 _ _ _ _ rfl rfl rfl rfl yes yes yes yes yes yes
    (.inr yes)
    (issues_of yes)
  have _ := (h mtView (bs [0, 8, 37, 0]) (hosted .service id)).1 _ _ _ _ rfl rfl rfl rfl yes yes yes yes yes yes (.inl
    yes)
    (issues_of yes)
  have _ := ((h mtView (bs [0, 0, 3, 1, 21, 0, 0, 0] ++ le 8 0) (hosted .service id)).2.1 _ _ _ _ rfl rfl rfl rfl yes
    yes yes yes yes
    yes).1 yes (issues_of yes)
  have _ := (((h mtView (bs [0, 0, 4, 2, 21, 1, 0, 0] ++ le 8 (2 ^ 21)) (hosted .service id)).2.1 _ _ _ _ rfl rfl rfl
    rfl yes yes yes
    yes yes yes).2 _ yes rfl rfl).1 yes (issues_of yes)
  have _ := (((h mtView (bs [0, 0, 4, 2, 21, 1, 0, 0] ++ le 8 (2 ^ 21)) ((hosted .service id).onChip fun c => { c with
    store.fsStacks := [0, 1, 2, 3] })).2.1 _ _ _ _ rfl rfl rfl rfl yes yes yes yes yes yes).2 _ yes rfl rfl).2 yes
    (issues_of yes)
  have _ := ((h mtView (bs [0, 0, 4]) (winState 2 true)).2.2.1 _ _ _ _ rfl rfl rfl yes yes yes yes
    rfl).1 (fun e => absurd e yes)
    (issues_of yes)
  have _ := ((h mtView (bs [0, 0, 4]) ((winState 1 true).onChip fun c => c.setLease 0 3 { LeaseSt.reset with
    state := .active })).2.2.1 _ _ _ _ rfl rfl rfl yes yes yes yes rfl).2 yes yes (issues_of yes)
  have _ := ((h mtView (bs [0]) (hosted .service id)).2.2.2 _ _ rfl yes rfl).1 (.inl yes) (.inl rfl) (issues_of yes)
  have _ := ((h mtView (bs [0]) (hosted .down id)).2.2.2 _ _ rfl yes rfl).2.1 yes yes (issues_of yes)
  have _ := ((h mtView (bs [0]) (hosted .frozen id)).2.2.2 _ _ rfl yes rfl).2.2.1 (.inl yes) rfl (issues_of yes)
  obtain ⟨_, _, _, _, k, _⟩ := ((h mtView (bs [0]) (hosted .frozen fun x => { x with extraLast := some ((timed id).chip.up, 5) })).2.2.2 _ _
    rfl yes rfl).2.2.1 (.inl yes) rfl (issues_of yes)
  have _ := (k rfl).2 5 rfl
  have _ := ((h mtView (bs [0]) (hosted .early id)).2.2.2 _ _ rfl yes rfl).2.2.2.1 (.inl yes) yes (issues_of yes)
  have _ := ((h mtView (bs [0]) (hosted .early id)).2.2.2 _ _ rfl yes rfl).2.2.2.2.1 (issues_of yes)
  have _ := ((h mtView (bs [0]) (hosted .early id)).2.2.2 _ _ rfl yes rfl).2.2.2.2.2 (issues_of yes)
  trivial

/-- `timed` with MT in pointer style, its window at `w`, changed by `f`. -/
def pointed (w : Nat) (f : MtSt → MtSt) : State := (timed id).onChip fun c => { c with
  mt := f { c.mt with style := true, src := 0x31, errPec := 5, winBase := w } }

/-- `timed` with MT in command style, changed by `f`. -/
def coded (f : MtSt → MtSt) : State := (timed id).onChip fun c => { c with
  mt := f { c.mt with style := false, src := 0x11, winBase := 0x123 } }

theorem meets_HostAccess (h : Obligations.HostAccess) : True := by
  have _ := (h ((timed id).onChip fun c => c.setFn 0 { c.fn 0 with flr := true }) 0 rfl rfl).1 yes 0 4 1 15 |>.1 yes
  have a := (h (winState 2 true) 0 rfl rfl).2.1 yes
  have _ := a.2.2.2.1 3 1 _ yes rfl
  have _ := a.2.2.2.1 0 1 _ yes rfl
  have _ := a.2.2.2.2.1 4092 yes yes rfl 1 yes
  have _ := ((h (boxed 0 (fun b => { b with state := .running }) (winState 2 true)) 0 rfl rfl).2.1
    yes).2.2.2.2.2.1 0 1 yes yes rfl
  have _ := (a.2.2.2.2.2.2.1 0 4 yes yes).1 rfl (by intro x hx; cases hx)
  have _ := (((h ((hosted .service id).onChip fun c => c.setFn 0 { c.fn 0 with cleared := [(c.up, win 2 true)] }) 0
    rfl rfl).2.1
    yes).2.2.2.2.2.2.1 (2 ^ 21 + 4) 4 yes yes).2.1 _ rfl rfl yes yes
  have _ := (a.2.2.2.2.2.2.1 (2 ^ 21 + 4) 4 yes yes).2.2 _ _ rfl rfl
  have _ := ((a.2.2.2.2.2.2.2 (2 ^ 21 + 5) (bs [1, 2, 3]) yes).1 _ _ rfl).1 rfl rfl
  have b := (h (winState 2 false) 0 rfl rfl).2.1 yes
  have _ := ((b.2.2.2.2.2.2.2 (2 ^ 21 + 5) (bs [1, 2, 3]) yes).1 _ _ rfl).2 (.inr rfl)
  have _ := (b.2.2.2.2.2.2.2 0 (bs [1, 2, 3]) yes).2 rfl
  have _ := (h ready 0 rfl rfl).2.2.1
  have _ := ((h (pointed 0 id) 0 rfl rfl).2.2.2 rfl _ rfl).1 rfl
  have m := (h (coded id) 0 rfl rfl).2.2.2 rfl _ rfl
  have c := m.2.1 rfl
  have _ := c.1 0x0E true (by decide)
  have _ := c.2.1 8 true (by decide)
  have _ := c.2.2.1 0xFF true yes yes
  have w := c.2.2.2 rfl
  have _ := w.1 0x12 yes
  have _ := w.2.1 1 2 yes yes
  have _ := w.2.2 31 (bs [1, 2, 3, 4]) yes rfl rfl
  have _ := ((h (coded fun m => { m with src := 0 }) 0 rfl rfl).2.2.2 rfl _ rfl).2.2.1 rfl
  have _ := m.2.2.2.1 yes yes
  have _ := m.2.2.2.2.1 0
  trivial

theorem meets_PortEvents (h : Obligations.PortEvents) : True := by
  have _ := (h ((hosted .down id).onChip fun c => { c with power.held := true }) 0 _ rfl).1 rfl
  have p := fun st f => (h (hosted st f) 0 _ rfl).2 rfl
  have _ := ((p .frozen fun x => { x with frzSeq := 3 }).1 3).1 rfl rfl rfl nofun
  have _ := ((p .frozen fun x => { x with frzSeq := 3 }).1 4).2 (.inr (.inr yes))
  have _ := (p .early id).2.2.1
  have _ := (p .early id).2.2.2.1 rfl
  have _ := (p .service id).2.2.2.2.1 rfl
  have _ := (p .frozen id).2.2.2.2.2.1 rfl
  have _ := (p .service id).2.2.2.2.2.2.1 (.inl rfl)
  obtain ⟨_, _, k⟩ := (p .frozen id).2.2.2.2.2.2.2.1 rfl
  have _ := k.1 yes
  obtain ⟨_, _, k⟩ := (p .frozen fun x => { x with frzAt := (timed id).chip.up }).2.2.2.2.2.2.2.1 rfl
  have _ := k.2 rfl
  have l := fun st f => ((h (hosted st f) 0 _ rfl).2 rfl).2.2.2.2.2.2.2.2.1 7 16 true yes
  obtain ⟨_, _, k⟩ := (l .down fun x => { x with rate := 0, link := false }).1 rfl yes rfl
  have _ := k.2.2.1 yes
  obtain ⟨_, _, k⟩ := (((h ((hosted .down fun x => { x with link := false }).onChip fun c => { c with power.stage := .s2 }) 0 _ rfl).2
    rfl).2.2.2.2.2.2.2.2.1 7 16 true yes).1 rfl yes rfl
  have _ := k.2.2.2 yes
  have _ := (l .down fun x => { x with perst := true, link := false }).2.1 (.inl rfl)
  have _ := (l .service id).2.2.1 rfl
  have _ := (l .down fun x => { x with link := false }).2.2.2 rfl
  have _ := (p .service id).2.2.2.2.2.2.2.2.2 2 yes
  trivial

theorem meets_FunctionEvents (h : Obligations.FunctionEvents) : True := by
  have _ := (h (hosted .down fun x => { x with link := false }) 0 _ _ rfl rfl rfl rfl).1 .command none |>.1 rfl
  have _ := ((h (hosted .early fun x => { x with ready := false }) 0 _ _ rfl rfl rfl rfl).1 .command none).2.1 rfl rfl
  have _ := ((h (hosted .early id) 5 _ _ rfl rfl rfl rfl).1 .command none).2.2 rfl rfl yes
  have a := (h (hosted .early id) 0 _ _ rfl rfl rfl rfl)
  have _ := a.2.1 rfl rfl yes
  have _ := a.2.2.1
  have _ := (h ((hosted .early id).onChip fun c => c.setFn 0 { c.fn 0 with flr := true, d3 := true }) 0 _ _ rfl rfl
    rfl rfl).2.2.2.1 rfl
  have _ := a.2.2.2.2.1 rfl
  have _ := a.2.2.2.2.2.1 rfl
  have _ := (h ((hosted .early id).onChip fun c => c.setFn 0 { c.fn 0 with flr := true, d3 := true }) 0 _ _ rfl rfl rfl
    rfl).2.2.2.2.2.2.1 rfl
  have _ := a.2.2.2.2.2.2.2.1
  have _ := a.2.2.2.2.2.2.2.2.1
  have _ := (a.2.2.2.2.2.2.2.2.2 0 5 yes yes).1 rfl
  trivial

theorem u64_le (x : Nat) (h : x < 2 ^ 64) (r : List Byte) : u64 (le 8 x ++ r) 0 = x := by
  simp [u64, fieldAt, le, leNat]
  omega

/-- `timed` with Seam link 1 of width 4 on quad 2, changed by `f`. -/
def linked (f : LinkSt → LinkSt) : State := (timed id).onChip fun c => (c.setQuad 2 { c.quad 2 with role := .seam }).setLink 1
  (f { LinkSt.make 2 8 4 with state := .up, helloSent := true, rxUp := 15, credit := [9, 9, 9, 9], active := 15 })

/-- A routed flit header of class 1 to device 9, FSN 0, one block, of KIND `k`. -/
def headOf (k : Nat) : List Byte :=
  let h := bs [0x80, 3] ++ le 1 0 ++ le 2 9 ++ le 2 5 ++ bs [k, 1, 0] ++ List.replicate 8 0 ++ le 4 0 ++ le 4 7 ++ List.replicate 4 0
  h ++ le 2 (lineCrc h)

/-- Its payload. -/
def block : List Byte := List.replicate 32 4

/-- A flit of this device that waits for link 1. -/
def waitingFlit : QFlit := { inLink := none, out := some 1, flit := flitOf (headOf 0x20) block }

/-- A route over link 1. -/
def route1 : RouteSt := { valid := true, usingAlt := false, hops := 1, alt := 0xFF, primary := 1 }

theorem meets_SeamCommands (h : Obligations.SeamCommands) : True := by
  have _ := (h 0 (bs [1, 0] ++ le 2 77) (linked id)).1 (.inr yes) (issues_of yes)
  have _ := (h 0 (bs [0, 0] ++ le 2 0xFFFF) (linked id)).1 (.inl yes) (issues_of yes)
  have _ := (h 0 [] (linked id)).2.1 ⟨2, yes, rfl⟩ (issues_of yes)
  have _ := (h 0 [] (timed id)).2.2.1 (by intro q hq; interval_cases q <;> decide) (issues_of yes)
  have _ := (h 0 (le 2 0 ++ le 2 5) (linked id)).2.2.2.1 yes yes _ rfl (issues_of yes)
  have _ := ((h 0 (le 2 3) (linked id)).2.2.2.2.1 _ rfl).2 rfl (issues_of yes)
  have _ := ((h 0 (le 2 3) ((linked id).onChip fun c => { c with seam.routes := [(3, route1)] })).2.2.2.2.1 _ rfl).1
    rfl (issues_of yes)
  have _ := ((h 0 (bs [1]) (linked id)).2.2.2.2.2.1 yes).1 _ rfl (issues_of yes)
  have _ := ((h 0 (bs [2]) (linked id)).2.2.2.2.2.1 yes).2 rfl (issues_of yes)
  have _ := (h 0 (le 8 9000000000) ((linked id).onChip fun c => { c with
    time.disc := .locked, time.source := .seam })).2.2.2.2.2.2 rfl rfl yes yes yes (issues_of yes)
  trivial

theorem meets_SeamLinks (h : Obligations.SeamLinks) : True := by
  have t := fun f => h (linked f) 1 _ rfl rfl
  have _ := ((t id).1 5 9 3 2 yes).1 (.inl yes)
  have _ := ((t fun k => { k with state := .training }).1 (Config.serial.toNat + 1) 9 3 4 yes).2 rfl (by omega) rfl
    rfl rfl
  have _ := ((t id).2.1 (headOf 0x20) block 0 rfl).1 rfl
  have a := ((t id).2.1 (headOf 0x20) block (crc32c ((headOf 0x20).take 26 ++ block)) rfl).2.1 rfl yes yes yes yes yes
    yes
  obtain ⟨_, _, a⟩ := a
  have _ := a.2.2.2.2.2 yes yes yes
  have b := ((t id).2.1 (headOf 0x02) block (crc32c ((headOf 0x02).take 26 ++ block)) rfl).2.1 rfl yes yes yes yes yes
    yes
  obtain ⟨_, _, b⟩ := b
  have _ := b.2.2.2.2.1 yes
  have _ := ((t id).2.1 [] [] 0 rfl).2.2.1 rfl
  have r := fun n => ((t fun k => { k with replay := [{ fsn := 7, flit := waitingFlit.flit, replays := n }] }).2.1 [] [] 0
    rfl).2.2.2.1 _ rfl
  have _ := (r 2).1 yes
  have _ := (r 2).2.1 6 yes yes
  have _ := (r 2).2.2.1 7 yes
  have _ := (r 3).2.2.2 yes
  have _ := ((t id).2.1 [] [] 0 rfl).2.2.2.2.1
  have _ := ((h ((linked id).onChip fun c => { c with seam.queue := [waitingFlit] }) 1 _ rfl rfl).2.1 [] [] 0
    rfl).2.2.2.2.2 _ rfl rfl
    rfl rfl yes yes
  have
    _ := (h ((linked fun k => { k with credit := [0, 0, 0, 0] }).onChip fun c => { c with seam.queue := [waitingFlit] }) 1 _ rfl
    rfl).2.2 _ rfl rfl rfl (.inl yes)
  trivial

/-- A number that is not the device's serial. -/
def otherSerial : Nat := Config.serial.toNat + 1

/-- `linked` with device 7 routed over link 1, itself device 2. -/
def routed (f : SeamSt → SeamSt) : State := (linked id).onChip fun c => { c with
  seam := f { c.seam with id := some 2, routes := [(7, route1)], root := some 5 } }

/-- An assignment of epoch `e` by device 5. -/
def assignment (e : Nat) : List Byte := le 4 e ++ bs [0, 1] ++ le 2 1 ++ le 8 5 ++ le 8 6 ++ le 2 44

theorem meets_SeamFabric (h : Obligations.SeamFabric) : True := by
  have _ := (h ready rfl).1 5 1 _ waitingFlit.flit rfl |>.1 rfl
  have _ := ((h (routed fun m => { m with esnRx := [(21, { expect := 3, waiting := [waitingFlit.flit] })] })
    rfl).1 5 1 _ _ rfl).2 rfl
    yes
  have own : u64 (le 8 Config.serial.toNat ++ le 4 3) 0 = Config.serial.toNat := u64_le _ Config.serial.isLt _
  have _ := (h (linked id) rfl).2.2.1 2 _ own
  have _ := (h (linked id) rfl).2.1 2 (le 8 (if Config.serial.toNat = 1 then 2 else 1) ++ le 4 3)
    (by rw [u64_le _ (by split <;> decide)]; split <;> omega) (by intro r hr; cases hr)
  have _ := (h (linked id) rfl).2.2.2.2.2.1
  have _ := ((h (routed id) rfl).2.2.2.2.2.2.1 1 (assignment 1) _ _ rfl rfl yes rfl yes yes rfl).1 yes yes yes
  have _ := ((h (routed id) rfl).2.2.2.2.2.2.1 1 (assignment 0) _ _ rfl rfl yes rfl yes yes rfl).2 rfl
  have _ := (h (routed fun m => { m with assigned := [(otherSerial, 7)] }) rfl).2.2.2.2.2.2.2.1 otherSerial 7 _ rfl
    (Nat.succ_ne_self _) rfl
  have d := fun n => (h (routed id) rfl).2.2.2.2.2.2.2.2.1 3 4 7 n _ rfl (by intro x hx; cases hx)
  have _ := (d 0).1 rfl
  have _ := ((d 10).2 yes yes rfl).1 yes
  have _ := ((d 100000000).2 yes yes rfl).2 yes
  have _ := ((h (linked id) rfl).2.2.2.2.2.2.2.2.2 1 _ 3 2 100 250 300 400 rfl).1 yes
  have _ := ((h (((linked id).onChip fun c => { c with
    time.source := .seam, time.disc := .locked, seam.parent := some 1 })) rfl).2.2.2.2.2.2.2.2.2 1
    _ 254 2 100 250 300 400 rfl).2 rfl
    rfl rfl rfl yes rfl rfl rfl yes
  trivial

/-- A POS_SAMPLE of channel 3. -/
def sample : List Byte := bs [3, 0, 1, 0, 0, 0, 0, 0] ++ le 8 9 ++ le 8 8 ++ le 8 7

/-- What came of it before. -/
def oldSample : SampleSt := { speedState := 0, reverse := false, x := 0, t := 0, v := 0, at_ := 0, stale := false }

/-- An event record of line 0x19. -/
def record : List Byte := bs [1, 0x19, 5, 4] ++ le 4 1 ++ le 8 99 ++ le 2 1 ++ le 2 2 ++ le 8 3 ++ le 4 0

/-- A fabric snapshot of this device, number 4 at 8 ns. -/
def snap : Snapshot := { scheduledSnap 4 8 none with fabric := true }

/-- Stream 9, which lands from the fabric, with the frames `l`. -/
def landStream (l : List Frame) : StreamSt := { StreamSt.blank with
  port := 0xFE, started := true, w := 64, h := 2, place := { Place.reset with placement := .passBy }, frames := l,
  resv := [{ res := 7, inst := 2, demand := 16 * scale }] }

/-- `routed` with it, in the landing state `d`. -/
def landing (l : List Frame) (d : Option LandSt) : State := (routed id).onChip fun c =>
  { c.setStream 9 (landStream l) with seam.landings := match d with | some x => [(9, x)] | none => [] }

/-- The template of a frame of `n` bytes 1, sequence 5. -/
def template (n : Nat) : List Byte :=
  le 2 9 ++ le 2 0 ++ le 4 5 ++ List.replicate 24 0 ++ le 8 n ++ List.replicate 16 0 ++ le 4 (crc32c (List.replicate n 1)) ++ le 4 0

theorem meets_SeamTraffic (h : Obligations.SeamTraffic) : True := by
  have _ := (h (routed id) rfl).1 2 (by intro m hm; cases hm)
  have m := h (routed fun m => { m with mirrors := [{ peer := 7, unit := 1, chan := 2, sentX := none }],
                                        history := [(2, [((timed id).chip.t64, 55)])] }) rfl
  have _ := m.2.1 2 _ 2 rfl rfl rfl yes rfl rfl
  have _ := m.2.2.1 5 sample yes
  have _ := (h (routed fun m => { m with samples := [(43, oldSample)] }) rfl).2.2.2.1 5 3 _ rfl
  have _ := ((h (routed id) rfl).2.2.2.2.1 7 1 0 2).1 rfl
  have _ := (m.2.2.2.2.1 7 1 (timed id).chip.t64 2).2 55 2 yes rfl yes rfl rfl
  have w := (h ((routed fun m => { m with waits := [{ unit := 4, instant := 9, peer := 7, chan := 1, lost := none }] }).onChip fun c =>
    c.setPort 3 PortSt.reset) rfl).2.2.2.2.2.1
  have _ := (w 7 9 4 66 _ 3 _ rfl rfl rfl rfl).1 rfl
  have _ := (w 8 9 4 66 _ 3 _ rfl rfl rfl rfl).2.1 yes
  have _ := (h (routed id) rfl).2.2.2.2.2.2.1 7 9 9000000000 (by intro x hx; cases hx) yes yes
  have s := fun d (f : Snapshot → Snapshot) => (h ((routed id).onChip fun c => { c with ev.snaps := [f snap], time.disc := d }) rfl).2.2.2.2.2.2.2.1
  have _ := (s .locked id 4 _ rfl rfl rfl rfl).1 rfl rfl rfl
  have _ := (s .freeRun id 4 _ rfl rfl rfl rfl).2.1 rfl rfl yes
  have _ := (s .locked (fun x => { x with done := true }) 4 _ rfl rfl rfl rfl).2.2.1 rfl
  have _ := (s .locked id 4 _ rfl rfl rfl rfl).2.2.2.2.1 7 12 yes yes
  have _ := (s .locked (fun x => { x with done := true }) 4 _ rfl rfl rfl rfl).2.2.2.2.2 7 _ rfl rfl rfl rfl
  have _ := (h (routed id) rfl).2.2.2.2.2.2.2.2.1 record yes
  have _ := (h (routed id) rfl).2.2.2.2.2.2.2.2.2.1 7 9 [] rfl
  obtain ⟨x, hx⟩ := Option.isSome_iff_exists.mp (show ((landing [] none).chip.reserve (landStream [])
    (fFold (landStream []).fold (landStream []).out 64 2 (landStream []).e)).isSome = true from yes)
  have _ := (h (landing [] none) rfl).2.2.2.2.2.2.2.2.2.2.1 7 9 (List.replicate 64 1) (landStream []) x.1 x.2 rfl rfl
    rfl rfl rfl hx
  have _ := (h (routed id) rfl).2.2.2.2.2.2.2.2.2.2.2.1 7 9 [] rfl
  have _ := (h (landing [{ frameIn with phase := .processing }]
    (some { source := some 7, data := List.replicate 64 1, open_ := true, dropped := false, next := some 5 }))
    rfl).2.2.2.2.2.2.2.2.2.2.2.2 7 9 (template 60) _ _ _ 5 _ rfl rfl rfl rfl rfl yes rfl rfl yes yes yes yes yes
  trivial

/-- 640 by 480 at 60 Hz with 8 bits per component. -/
def vga : PanelMode := { width := 640, height := 480, refresh := 60000, bpc := 8 }

/-- PANEL.SET_MODE of it. -/
def modeReq : List Byte := le 2 640 ++ le 2 480 ++ le 4 60000 ++ bs [8, 0, 0, 0]

/-- PANEL.SET_TILE of tile 3: stream 5, 64 by 32 at the upper left. -/
def tileReq (on : Nat) : List Byte := bs [3, on] ++ le 2 5 ++ le 2 0 ++ le 2 0 ++ le 2 64 ++ le 2 32

/-- `timed` with a sink and the panel in `st`, changed by `f`, and stream 5 in line. -/
def shown (st : PanelState) (f : PanelSt → PanelSt) : State := (timed id).onChip fun c =>
  { c.setStream 5 { StreamSt.blank with w := 640, h := 480, fresh := 100, place := { Place.reset with placement := .inLine } } with
    panel := f { c.panel with hpd := true, state := st, mode := some vga } }

/-- An enabled tile of stream 5, 2 by 1, with an image. -/
def tile5 : TileSt := { TileSt.reset with
  enabled := true, stream := 5, w := 2, h := 1, shown := some { seq := 1, eofT := 9, pixels := List.replicate 8 5 } }

theorem meets_PanelCommands (h : Obligations.PanelCommands) : True := by
  have m := fun s e => (h 0 modeReq s).1 _ rfl yes yes yes yes yes yes (.inl yes) yes (.inl e)
  have _ := (m (shown .changing id) rfl (by intro e he; cases he)).1 rfl (issues_of yes)
  have _ := (m (shown .running id) rfl (by intro e he; cases he)).2.1 yes rfl rfl (issues_of yes)
  have _ := (m (shown .running fun p => { p with hpd := false }) rfl (by intro e he; cases he)).2.2 yes rfl rfl
    (issues_of yes)
  have _ := ((h 0 (tileReq 0) (shown .running id)).2.1 _ _ _ _ _ _ rfl rfl rfl rfl rfl rfl yes).1 yes (issues_of yes)
  have _ := ((h 0 (tileReq 1) (shown .running id)).2.1 3 5 0 0 64 32 yes yes yes yes yes yes yes).2.1 _ _ _ yes rfl
    yes yes yes yes yes rfl rfl yes
    yes yes yes yes yes rfl yes yes (issues_of yes)
  have _ := ((h 0 (tileReq 1) ((shown .running id).onChip fun c => { c with store.streams := [] })).2.1 3 5 0 0 64 32
    yes yes yes yes yes
    yes yes).2.2 yes ⟨_, rfl, yes, yes, yes, yes⟩ yes rfl (issues_of yes)
  have o := fun r => (h 0 r (shown .running fun p => { p with tiles := [(3, tile5)] })).2.2.1 3
  have _ := (o (bs [3, 0, 0, 0] ++ le 2 4 ++ le 2 4) yes yes).1 yes rfl (issues_of yes)
  have _ := (o (bs [3, 1, 0, 0] ++ le 2 4 ++ le 2 4) yes yes).2.1 yes yes yes rfl (issues_of yes)
  have _ := ((h 0 (bs [3, 0, 0, 0] ++ le 2 4 ++ le 2 4) (shown .running id)).2.2.1 3 yes yes).2.2 yes rfl (issues_of
    yes)
  have _ := (h 0 (bs [1]) (shown .running id)).2.2.2.1 yes (issues_of yes)
  have _ := (h 0 [] (shown .running id)).2.2.2.2 _ rfl (issues_of yes)
  trivial

theorem meets_PanelEvents (h : Obligations.PanelEvents) : True := by
  have p := fun st f => h (shown st f) rfl
  have _ := (h (timed id) rfl).1 rfl
  have _ := (p .running id).2.1 _ rfl rfl rfl
  have _ := (p .changing fun x => { x with ready := true, pending := some vga }).2.2.1 _ (.inl rfl) rfl rfl
  have _ := (p .changing id).2.2.2.1 3 [] yes
  have t := p .running fun x => { x with tiles := [(3, tile5)] }
  have _ := (t.2.2.2.2.1 _ 0 3 ((shown .running fun x => { x with tiles := [(3, tile5)] }).chip.expectedCrc vga 3 0)
    rfl rfl yes
    rfl).2 yes
  have _ := (t.2.2.2.2.1
    _ 0 3 ((shown .running fun x => { x with tiles := [(3, tile5)] }).chip.expectedCrc vga 3 0 + 1) rfl rfl yes
    rfl).1 yes
  have _ := (t.2.2.2.2.2.1 0).2 rfl
  have _ := ((p .changing id).2.2.2.2.2.1 0).1 yes
  have _ := t.2.2.2.2.2.2.1 3 _ _ yes rfl rfl rfl rfl
  have _ := (h (timed id) rfl).2.2.2.2.2.2.2.1 rfl
  have _ := (p .running id).2.2.2.2.2.2.2.2.1 _ rfl
  have _ := (p .noSink id).2.2.2.2.2.2.2.2.2.1 rfl
  have _ := (p .running id).2.2.2.2.2.2.2.2.2.2.1 yes
  have _ := (p .running id).2.2.2.2.2.2.2.2.2.2.2.1 rfl
  have _ := (p .changing id).2.2.2.2.2.2.2.2.2.2.2.2.1 yes
  have _ := ((p .changing id).2.2.2.2.2.2.2.2.2.2.2.2.2 810 4).1 (.inl rfl) yes
  have _ := ((p .running id).2.2.2.2.2.2.2.2.2.2.2.2.2 0 0).2 (.inl rfl)
  trivial

/-- `timed` with its power state changed by `f`. -/
def powered (f : PowerSt → PowerSt) : State := (timed id).onChip fun c => { c with power := f c.power }

/-- A piece of the image `i`. -/
def imageReq (i : Nat) : List Byte := bs [i, 0, 0, 0] ++ le 4 16 ++ List.replicate 24 0 ++ bs [1, 2, 3]

/-- A ticket of kind `k`. -/
def ticket (k : TicketKind) : Ticket :=
  { id := 5, opcode := 0x0B03, mailbox := 0, instant := 0, session := 0, role := 0, slot := 0, kind := k }

/-- `timed` with that ticket, the standby pair in `st` and the power state changed by `f`. -/
def ticketed (k : TicketKind) (st : PairState) (f : PowerSt → PowerSt) : State := (powered f).onChip fun c => { c with
  mbx.tickets := [ticket k], mgmt.pairB := st }

theorem meets_PowerCommands (h : Obligations.PowerCommands) : True := by
  have fx := fun r => h 0 r (powered fun p => { p with fixed := true })
  have _ := (fx (bs [1])).1 yes rfl (issues_of yes)
  have _ := (h 0 (bs [1]) (timed id)).2.1 yes rfl (issues_of yes)
  have _ := (h 0 (bs [0]) (timed id)).2.2.1 yes rfl (issues_of yes)
  have _ := (fx (bs [0])).2.2.2.1 yes rfl (issues_of yes)
  have _ := (h 0 (bs [2]) (timed id)).2.2.2.2.1 yes (issues_of yes)
  have _ := (h 0 [] (timed id)).2.2.2.2.2.1 _ rfl (issues_of yes)
  have _ := (h 0 [] (timed id)).2.2.2.2.2.2.1 (issues_of yes)
  have _ := (h 0 [] (timed id)).2.2.2.2.2.2.2.1 rfl (issues_of yes)
  have _ := (h 0 [] (ticketed (.fwCommit 1) .standby id)).2.2.2.2.2.2.2.2.1 (by intro e; cases e) (issues_of yes)
  have _ := (h 0 [] (timed id)).2.2.2.2.2.2.2.2.2.1 (issues_of yes)
  have _ := ((h 0 (imageReq 1) (timed id)).2.2.2.2.2.2.2.2.2.2.1 _ rfl yes yes).1 (issues_of yes)
  have _ := ((h 0 (bs [1, 0, 0, 0] ++ le 4 19) (timed id)).2.2.2.2.2.2.2.2.2.2.1 _ rfl yes yes).2.1
    yes (by intro t ht; cases ht)
    (issues_of yes)
  have
    _ := ((h 0 (bs [1]) ((timed id).onChip fun c => c.putImage 1 { c.image 1 with state := 2 })).2.2.2.2.2.2.2.2.2.2.1
    _ rfl yes
    yes).2.2.1 yes yes yes (issues_of yes)
  have _ := ((h 0 (bs [1]) (timed id)).2.2.2.2.2.2.2.2.2.2.1 _ rfl yes yes).2.2.2 yes (issues_of yes)
  have _ := ((h 0 (imageReq 0) (timed id)).2.2.2.2.2.2.2.2.2.2.2 _ rfl yes yes).1 (issues_of yes)
  have _ := ((h 0 (bs [0, 0, 0, 0] ++ le 4 19) (timed id)).2.2.2.2.2.2.2.2.2.2.2 _ rfl yes yes).2.1 (issues_of yes)
  have _ := ((h 0 (bs [0]) (timed id)).2.2.2.2.2.2.2.2.2.2.2 _ rfl yes yes).2.2 (issues_of yes)
  trivial

theorem meets_FirmwareEndings (h : Obligations.FirmwareEndings) : True := by
  have _ := (h 5 _ (ticketed (.fwCommit 1) .standby id) rfl rfl).1 1 true true rfl
  have a := (h 5 _ (ticketed (.fwActivate 1) .booting id) rfl rfl).2.1 1 true rfl rfl
  have _ := a.1 rfl rfl
  have _ := ((h 5 _ (ticketed (.fwActivate 1) .booting id) rfl rfl).2.1 1 false rfl rfl).2 (.inl rfl)
  have _ := ((h 5 _ (ticketed (.fwActivate 1) .faulted id) rfl rfl).2.1 1 true rfl rfl).2 (.inr yes)
  have _ := (h 5 _ (ticketed (.fwActivate 1) .booting fun p => { p with recovery := true }) rfl rfl).2.2 1 true rfl rfl
  trivial

/-- A stored PANEL.SET_POLICY with request `r`. -/
def policyItem (r : List Byte) : CfgItem := { opcode := 0x0A04, key := 0, req := r }

theorem meets_StartUp (h : Obligations.StartUp) : True := by
  have s := fun f => h (powered f)
  have _ := (s id).2.2.1 true 2 true true false true true [] (.inl rfl)
  have
    _ := (s fun p => { p with held := true, pwrEn := true, trip := false }).2.2.2.1 true 2 true true false true true [] _ _ rfl rfl
    rfl rfl rfl
  have _ := ((s id).2.2.2.2.1 rfl).1 (.inl yes)
  have _ := ((s fun p => { p with stage := .s1 }).2.2.2.2.1 rfl).2.1 rfl rfl rfl rfl
  have _ := ((s id).2.2.2.2.1 rfl).2.2.1 yes
  have _ := ((s fun p => { p with stage := .s2 }).2.2.2.2.1 rfl).2.2.2.1 rfl rfl rfl
  have i := fun r => ((h ((powered fun p => { p with stage := .s2 }).onChip fun c => { c with
    board.saved := [policyItem r] })).2.2.2.2.1 rfl).2.2.2.2.1 _ rfl rfl rfl rfl
  have _ := (i (bs [1])).1 rfl yes
  have _ := (i (bs [1, 0, 0, 0])).2 yes
  have _ := ((s id).2.2.2.2.1 rfl).2.2.2.2.2.1 yes
  have _ := ((s fun p => { p with stage := .s3 }).2.2.2.2.1 rfl).2.2.2.2.2.2.1 rfl rfl
  have _ := ((s id).2.2.2.2.1 rfl).2.2.2.2.2.2.2.1 (.inl rfl)
  have _ := ((s fun p => { p with standby := true }).2.2.2.2.1 rfl).2.2.2.2.2.2.2.2 rfl yes
  have _ := ((s id).2.2.2.2.2.2 1 .wakePin (.inl ⟨rfl, rfl⟩)).1 (.inl rfl)
  have _ := ((s fun p => { p with standby := true }).2.2.2.2.2.2 2 .mtAddressWake (.inr ⟨rfl, rfl⟩)).2 rfl rfl
  trivial

theorem meets_PowerEvents (h : Obligations.PowerEvents) : True := by
  have _ := (h (timed id) rfl).1 [900]
  have _ := (h (powered fun p => { p with fixed := true }) rfl).2.1 1000 (.inr (.inl rfl))
  have v := fun w m n => (h (powered fun p => { p with setpoint := 760, wide := w }) rfl).2.2.1 m n rfl rfl rfl
  have _ := (v 0 1019 25).1 rfl yes yes
  have _ := (v 0 1020 10).1 rfl yes yes
  have _ := (v 0 1050 0).2.1 yes yes
  have _ := (v 2 1080 0).2.2.1 yes yes
  have _ := (v 3 1080 750).2.2.2.1 yes yes rfl yes
  have _ := ((h (powered fun p => { p with setpoint := 750, wide := 3 }) rfl).2.2.1 1080 0 rfl rfl rfl).2.2.2.2 yes
    yes yes
  have r := fun n m => (h (powered fun p => { p with setpoint := 760, voutFails := n }) rfl).2.2.2.1 m rfl rfl
  have _ := (r 0 745).1 rfl
  have _ := (r 0 744).2.1 rfl rfl
  have _ := (r 1 776).2.2 rfl yes
  have q := (h (timed id) rfl).2.2.2.2
  have _ := q.1 777
  have _ := q.2.2.1 .voutCommand .nack (.inl rfl) (by simp) rfl
  have _ := q.2.2.2.1 .statusWord .sclHeld 1 (.inl ⟨rfl, rfl⟩) (by simp) rfl
  have _ := q.2.2.2.2.1 7 1 rfl
  have _ := (q.2.2.2.2.2.1 7 none).1 rfl
  have
    _ := ((h ((timed id).onChip fun c => { c with mt.modules := [(7, { present := true, ready := true, flags := 0 })] })
    rfl).2.2.2.2.2.2.2.2.2.1 7 (some 3)).2.1 rfl
  have _ := (q.2.2.2.2.2.1 7 none).2.2 rfl
  have _ := q.2.2.2.2.2.2.2.2.1 rfl
  have _ := (h (powered fun p => { p with coreHold := true }) rfl).2.2.2.2.2.2.2.2.2.2.2.2.2.1 rfl
  have _ := q.2.2.2.2.2.2.2.2.2.2.1 rfl
  have g := fun l => (h (powered fun p => { p with pacer := [{ kind := .pipeHalf, inst := 3 }], ramps := l })
    rfl).2.2.2.2.2.2.2.2.2.2.2.2.2.2.2.1 _ _ _ rfl rfl
  have _ := (g [(18, 6 * secU)]).1 yes
  have _ := (g []).2 yes
  have _ := (q.2.2.2.2.2.2.2.2.2.2.2.2 2).2 yes
  have _ := ((h (powered fun p => { p with stage := .s1 }) rfl).2.2.2.2.2.2.2.2.2.2.2.2.2.2.2.2 2).1 yes
  trivial

/-- Every logic sensor at `l` and every stack at `k`, in tenths of a degree, in step `n`. -/
def heated (l k : Int) (n : Nat) (f : PowerSt → PowerSt) : State :=
  powered fun p => f { p with temps := List.replicate 32 l ++ List.replicate 4 k, step := n }

theorem meets_ThermalEvents (h : Obligations.ThermalEvents) : True := by
  have _ := (h (timed id) rfl).1 []
  have _ := (h (timed id) rfl).2.1 (.inl rfl)
  have _ := (h (heated 500 500 3 id) rfl).2.2.1 _ rfl yes yes (by intro _ e he; cases he)
  have _ := (h (heated 500 500 2 id) rfl).2.2.1 _ rfl yes yes (fun e => absurd e yes)
  have _ := (h (heated 500 500 1 id) rfl).2.2.2.1 (fun e => absurd e.1 yes)
  have _ := (h (heated 1045 960 2 fun p => { p with preview := 1 }) rfl).2.2.2.2.1 rfl yes
  have _ := (h (timed id) rfl).2.2.2.2.2.1 yes
  have t := fun l w => (h ((heated 1065 960 3 fun p => { p with throttle := l }).onChip fun c => c.setStream 5 { StreamSt.blank with
    cls := 2, started := true, priority := 4 }) rfl).2.2.2.2.2.2.1 rfl w
  have _ := (t [] yes).1 4 yes yes (by intro q hq hlt; revert q; decide +kernel)
  have _ := (t [(4, 3)] yes).2 yes
  have _ := (h (heated 500 500 1 id) rfl).2.2.2.2.2.2.2.1 yes yes
  have _ := (h (heated 1120 500 1 id) rfl).2.2.2.2.2.2.2.2.1 (.inl yes)
  have _ := (h (heated 500 1000 1 id) rfl).2.2.2.2.2.2.2.2.1 (.inr yes)
  have _ := (h (timed id) rfl).2.2.2.2.2.2.2.2.2.1 [] rfl
  have _ := (h (powered fun p => { p with tripWait := true }) rfl).2.2.2.2.2.2.2.2.2.2 [] rfl
  trivial

theorem meets_MtPointer (h : Obligations.MtPointer) : True := by
  have _ := (h 9 (pointed 0 id) rfl rfl).1 3 16 [] yes
  have a := (h _ (pointed 0 id) rfl rfl).2 rfl
  have _ := (a.2.2.1 6).2.2.2.2.2 6 yes (by decide)
  have w := (h _ (pointed 0x80 id) rfl rfl).2 rfl
  have _ := (w.2.2.2.1 3 (bs [1, 2, 3, 4]) yes rfl).1 rfl _ rfl
  have _ := (w.2.2.2.1 31 (bs [1, 2, 3]) yes rfl).2 yes yes
  have _ := a.2.2.2.2.1 0 0x80 _ yes (.inl rfl)
  have _ := a.2.2.2.2.1 0 16 _ yes (.inr ⟨rfl, rfl⟩)
  have _ := w.2.2.2.2.2.1 31 yes rfl
  trivial

theorem meets_MtCodes (h : Obligations.MtCodes) : True := by
  have c := (h (coded id) rfl).1 _ true rfl rfl
  have _ := c.1 0 _ (.inl ⟨rfl, rfl⟩)
  have _ := c.1 8 _ (.inr ⟨rfl, rfl⟩)
  have _ := c.2.1 0x0E _ (by decide) rfl
  have w := c.2.2.1 4 0x10 _ (by decide) rfl yes
  have _ := w.1 (some _) (.inl rfl)
  have _ := w.1 none (.inr ⟨rfl, rfl⟩)
  have p := (h (coded fun m => { m with pecReq := true }) rfl).1 _ true rfl rfl
  have _ := (p.2.2.1 4 0x10 _ (by decide) rfl yes).2 none (.inl ⟨rfl, rfl⟩)
  have _ := (w.2 (some 0) (.inr ⟨0, yes, rfl, yes⟩))
  have _ := c.2.2.2.1 6 0x10 none (by decide)
  have _ := c.2.2.2.2.1 0x10 0xFF yes yes rfl
  have _ := (c.2.2.2.2.2.1 0xFF 2 [] none yes yes yes).1 (.inr yes)
  have _ := (c.2.2.2.2.2.1 0x84 4 (bs [1, 2, 3, 4]) none yes yes yes).2.1 rfl rfl yes rfl rfl rfl rfl _ rfl
  have _ := (p.2.2.2.2.2.1 0x84 4 (bs [1, 2, 3, 4]) none yes yes yes).2.2 yes yes rfl (.inl ⟨rfl, rfl⟩)
  have _ := c.2.2.2.2.2.2.1 0xFF yes yes
  have _ := c.2.2.2.2.2.2.2 0x10 (.inr yes)
  have _ := (h (coded id) rfl).2.1 9 4 rfl
  have _ := (h (coded fun m => { m with src := 0 }) rfl).2.2.1 rfl
  have a := (h (coded id) rfl).2.2.2.1 0 yes rfl (by intro j hj; exact absurd hj (Nat.not_lt_zero j))
  have _ := a.2.1 0xC0 yes yes
  have _ := a.2.2 0x10 yes yes
  have _ := ((h (coded id) rfl).2.2.2.2.1 0).1 rfl
  have _ := ((h (coded id) rfl).2.2.2.2.1 1).2 rfl
  trivial

/-! The checks of WellFormed refuse an object that the device does not have. -/

theorem test_wf_mailbox : (Instr.systemIdentify 64 []).wf = false := by decide
theorem test_wf_remote_mailbox : (Instr.systemIdentify 0x8400 []).wf = false := by decide
theorem test_wf_view : (Instr.mbxGo 0x8000 1).wf = false := by decide
theorem test_wf_function : (Instr.flrInitiate 192).wf = false := by decide
theorem test_wf_write_channel : (Instr.dbCtrlArm 0 false 256).wf = false := by decide
theorem test_wf_read_channel : (Instr.dbCtrlArm 0 true 64).wf = false := by decide
theorem test_wf_vfs : (Instr.vfEnableChange 0 true 64).wf = false := by decide
theorem test_wf_mps : (Instr.mpsChange 0 3).wf = false := by decide
theorem test_wf_link_rate : (Instr.linkRetrain 0 8 16).wf = false := by decide
theorem test_wf_link_width : (Instr.linkRetrain 0 7 2).wf = false := by decide

/-- A row with an ill-formed operand faults under its own name. -/
theorem test_wf_faults : exec (.mpsChange 0 3) ready = .fault .noSuchObject := by rfl

/-! Worked examples of the spec. -/

/-- R10: CRC-32C of "123456789". -/
theorem test_crc32c : crc32c (bs [0x31, 0x32, 0x33, 0x34, 0x35, 0x36, 0x37, 0x38, 0x39]) = 0xE3069283 := by decide +kernel

/-- The example of R6: 1,204 s, 999,999,999 ns, fraction 0xC000. -/
theorem test_t64 : (ofTb96 (1204 * 2 ^ 48 + 999999999 * 65536 + 0xC000)).map (· / 65536) = some 1204999999999 := by
  decide +kernel

/-- The example of R83: 110, then 111, then 010. -/
theorem test_hall_example :
    (match execHallStateChange 2 7 (chan .hall fun e => { e with hallRef := 6, hallNow := 6, qerrLimit := 10 }) with
      | .next t => match execHallStateChange 2 2 t with
        | .next u => ((u.chip.enc 2).raw, (u.chip.enc 2).qerrCount) | _ => (0, 0)
      | _ => (0, 0)) = (11, 1) := by decide +kernel

/-- The example of R142: a 4-lane parity bond at 112.0 Gbit/s carries 313.77 Gbit/s, a darning bond 299.25 (in kB/s). -/
theorem test_usable_example :
    (usable ((timed id).chip.setPort 0 { PortSt.reset with width := 4, protection := 1 }
        |>.setQuad 0 { (timed id).chip.quad 0 with rate := 0 }) 0 false,
      usable ((timed id).chip.setPort 0 { PortSt.reset with width := 4, protection := 2 }
        |>.setQuad 0 { (timed id).chip.quad 0 with rate := 0 }) 0 false) = (39221789, 37406250) := by decide +kernel

/-- The example of R233: the residuals 0, -1, +2 and -3 are written 0001 00 01 1100 1101. -/
theorem test_rice_example :
    riceGroup 8 [0, 1, 4, 5] = bitsMsb 16 0x11CD := by decide +kernel

/-- The example of R277: four planes of an 8,192 by 6,144 image. -/
theorem test_fold_example : fFold (3, 0x0F00) { OutSet.reset with format := 0x2300 } 8192 6144 1 = 25165824 := by decide +kernel

end Sys2Proof.Tests
end

/-! SUPPORT. How commands end that are refused or that wait for an outside party (R344, R345), and the parts of the chip that
neither the taking nor the ending of a command writes. -/

namespace Sys2Proof.Machine

/-! What the notes of a command leave alone. -/

theorem Wrote.power {c p : Chip} (h : Wrote c p) : p.power = c.power := by
  obtain ⟨_, _, _, _, _, _, _, _, _, _, _, _, _, _, rfl⟩ := h; rfl

theorem Wrote.board {c p : Chip} (h : Wrote c p) : p.board = c.board := by
  obtain ⟨_, _, _, _, _, _, _, _, _, _, _, _, _, _, rfl⟩ := h; rfl

theorem Wrote.pairState {c p : Chip} (h : Wrote c p) : p.pairState = c.pairState := by
  obtain ⟨_, _, _, _, _, _, _, _, _, _, _, _, _, _, rfl⟩ := h; rfl

theorem Wrote.active {c p : Chip} (h : Wrote c p) : p.mgmt.active = c.mgmt.active := by
  obtain ⟨_, _, _, _, _, _, _, _, _, _, _, _, _, _, rfl⟩ := h; rfl

theorem Wrote.refl (c : Chip) : Wrote c c := ⟨_, _, _, _, _, _, _, _, _, _, _, _, _, _, rfl⟩

theorem Wrote.image {c p : Chip} (h : Wrote c p) (i : Nat) : p.image i = c.image i := by
  unfold Chip.image; rw [h.board]

/-- The same update of the power state on both sides of what the taking of a command writes. -/
theorem Wrote.setPower {c p : Chip} (h : Wrote c p) (v : PowerSt) : Wrote { c with power := v } { p with power := v } := by
  obtain ⟨_, _, _, _, _, _, _, _, _, _, _, _, _, _, rfl⟩ := h
  exact ⟨_, _, _, _, _, _, _, _, _, _, _, _, _, _, rfl⟩

/-- The same image put on both sides of what the taking of a command writes. -/
theorem Wrote.putImage {c p : Chip} (h : Wrote c p) (i : Nat) (v : ImageSt) : Wrote (c.putImage i v) (p.putImage i v) := by
  obtain ⟨_, _, _, _, _, _, _, _, _, _, _, _, _, _, rfl⟩ := h
  unfold Chip.putImage
  split <;> exact ⟨_, _, _, _, _, _, _, _, _, _, _, _, _, _, rfl⟩

/-- The same pair state on both sides of what the taking of a command writes. -/
theorem Wrote.setPair {c p : Chip} (h : Wrote c p) (i : Nat) (v : PairState) : Wrote (c.setPair i v) (p.setPair i v) := by
  obtain ⟨_, _, _, _, _, _, _, _, _, _, _, _, _, _, rfl⟩ := h
  unfold Chip.setPair
  split <;> exact ⟨_, _, _, _, _, _, _, _, _, _, _, _, _, _, rfl⟩

/-- The same image number of a pair on both sides of what the taking of a command writes. -/
theorem Wrote.setImage {c p : Chip} (h : Wrote c p) (k i : Nat) : Wrote (c.setImage k i) (p.setImage k i) := by
  obtain ⟨_, _, _, _, _, _, _, _, _, _, _, _, _, _, rfl⟩ := h
  unfold Chip.setImage
  split <;> exact ⟨_, _, _, _, _, _, _, _, _, _, _, _, _, _, rfl⟩

/-- The same ticket opened on both sides of what the taking of a command writes. -/
theorem Wrote.openTicket {c p : Chip} (h : Wrote c p) (x : Ctx) (t : Nat) (k : TicketKind) :
    Wrote (c.openTicket x t k) (p.openTicket x t k) := by
  obtain ⟨_, _, _, _, _, _, _, _, _, _, _, _, _, _, rfl⟩ := h
  exact ⟨_, _, _, _, _, _, _, _, _, _, _, _, _, _, rfl⟩

theorem Closing.power {mb : Nat} {c t : Chip} (h : Closing mb c t) : t.power = c.power := by
  obtain ⟨_, _, _, _, _, _, _, _, _, _, _, _, _, e⟩ := h.wrote; rw [e]

theorem Closing.waiting {mb : Nat} {c t : Chip} (h : Closing mb c t) : t.ev.waiting = c.ev.waiting := by
  obtain ⟨_, _, _, _, _, _, _, _, _, _, _, _, _, e⟩ := h.wrote; rw [e]

theorem OnlyNotes.tickets {mb : Nat} {c t : Chip} (h : OnlyNotes mb c t) : t.mbx.tickets = c.mbx.tickets := by
  rw [h.1]

theorem OnlyNotes.image {mb : Nat} {c t : Chip} (h : OnlyNotes mb c t) (i : Nat) : t.image i = c.image i := by
  rw [h.1]; rfl

theorem OnlyNotes.running {mb : Nat} {c t : Chip} (h : OnlyNotes mb c t) : t.board.running = c.board.running := by
  rw [h.1]

theorem OnlyNotes.active {mb : Nat} {c t : Chip} (h : OnlyNotes mb c t) : t.mgmt.active = c.mgmt.active := by
  rw [h.1]

theorem OnlyNotes.pairState {mb : Nat} {c t : Chip} (h : OnlyNotes mb c t) : t.pairState = c.pairState := by
  rw [h.1]; rfl

theorem OnlyNotes.imageOf {mb : Nat} {c t : Chip} (h : OnlyNotes mb c t) : t.imageOf = c.imageOf := by
  rw [h.1]; rfl

/-! Refusals. -/

/-- A refusal notes at most an audit entry before its mailbox shows the end (R345, R359). -/
theorem finish_refuse_eq (m : Cmd) (x : Ctx) (req rsp : List Byte) (st : Nat) (d : Dev) :
    ∃ q fl, Noted x.mb d.chip q ∧
      finish m x req (.refuse st rsp) d = { d with chip := q.endCommand x.mb st fl rsp } := by
  have audited : ∀ k o a b r e s g, Noted x.mb d.chip (d.chip.audit k o a b r e s g) := fun k o a b r e s g =>
    ⟨⟨_, _, _, _, _, _, _, _, _, _, _, _, _, _, rfl⟩, .refl _ _, fun _ _ => rfl, rfl⟩
  refine ⟨_, _, ?_, rfl⟩
  split
  · exact ⟨.refl _, .refl _ _, fun _ _ => rfl, rfl⟩
  · split
    · exact audited ..
    · exact audited ..

/-- A command row that can be carried out runs the command from its doorbell on. -/
theorem exec_command {m : Cmd} {i : Nat → List Byte → Instr} {mb : Nat} {req : List Byte} {s : State}
    (hi : exec (i mb req) s = s.onDevIf (validMb mb) (tilpo m mb req)) (h : Issues m mb req s.chip) :
    exec (i mb req) s = .next (s.onDev (tilpo m mb req)) := by
  rw [hi, onDevIf_tilpo h]

/-- A command whose checks fail ends with that status, and nothing but its notes changes. -/
theorem ends_refuse {m : Cmd} {i : Nat → List Byte → Instr} {mb st : Nat} {req rsp : List Byte} {s : State}
    (hi : exec (i mb req) s = s.onDevIf (validMb mb) (tilpo m mb req))
    (hscope : ∀ p, Noted mb s.chip p → m.scope p mb req = m.scope s.chip mb req)
    (hbody : Issues m mb req s.chip → ∀ p, Taken mb s.chip p →
      m.body (runCtx m.opcode mb s.chip) req { chip := p, mem := s.mem } = .refuse st rsp) :
    Ends m i mb req s st rsp s.chip s.mem := by
  intro h
  obtain ⟨p, hp, he⟩ := tilpo_taken (d := { chip := s.chip, mem := s.mem }) h hscope
  obtain ⟨q, fl, hq, hf⟩ := finish_refuse_eq m (runCtx m.opcode mb s.chip) req rsp st { chip := p, mem := s.mem }
  have ht : tilpo m mb req { chip := s.chip, mem := s.mem } =
      { chip := q.endCommand mb st fl rsp, mem := s.mem } := by rw [he, hbody h p hp, hf]; rfl
  have hn := hp.toNoted.trans hq
  refine ⟨_, exec_command hi h, ?_, ?_, ?_, rfl⟩
  · rw [State.onDev_chip, ht]
    refine Chip.endCommand_ended ?_ hn.rsp
    rw [boxFrozen_congr (c := s.chip) mb (by rw [hn.wrote.hosts])]
    exact boxFrozen_of_reaches h.reach
  · rw [State.onDev_chip, ht]
    exact onlyNotes_of hn (Chip.endCommand_closing ..)
  · rw [State.onDev_mem, ht]

/-! Parking. -/

theorem Chip.endCommand_parked (c : Chip) (mb status flags : Nat) (rsp : List Byte) :
    ((c.endCommand mb status flags rsp).box mb).parked = none := by
  rw [Chip.endCommand_box]; rfl

theorem commitCmd_parked (m : Cmd) (x : Ctx) (req : List Byte) (status flags : Nat) (f : Dev → Dev × List Byte) (d : Dev) :
    ((commitCmd m x req status flags f d).chip.box x.mb).parked = none := by
  unfold commitCmd; dsimp only
  split <;> exact Chip.endCommand_parked ..

/-- What follows the checks of a command ends it, or leaves its mailbox in the state it was in. -/
theorem finish_parked (m : Cmd) (x : Ctx) (req : List Byte) (res : Res) (d : Dev) (hpark : ∀ k f, res = .park k f → f = id) :
    ((finish m x req res d).chip.box x.mb).parked = none ∨
      ((finish m x req res d).chip.box x.mb).state = (d.chip.box x.mb).state := by
  cases res with
  | refuse st rsp => exact .inl (Chip.endCommand_parked ..)
  | refuseC st rsp f =>
    unfold finish; dsimp only
    split <;> exact .inl (Chip.endCommand_parked ..)
  | ends st fl rsp f =>
    unfold finish; dsimp only
    split <;> exact .inl (Chip.endCommand_parked ..)
  | commit f =>
    unfold finish; dsimp only
    split
    · exact .inl (Chip.endCommand_parked ..)
    · exact .inl (commitCmd_parked ..)
  | later k i f =>
    unfold finish; dsimp only
    split
    · exact .inl (Chip.endCommand_parked ..)
    · split
      · exact .inl (Chip.endCommand_parked ..)
      · exact .inl (commitCmd_parked ..)
  | park k f =>
    obtain rfl := hpark k f rfl
    unfold finish; dsimp only
    split
    · exact .inl (Chip.endCommand_parked ..)
    · right
      rw [Dev.onChip_chip, Chip.box_setBox]; rfl

theorem Chip.useSession_state (c : Chip) (sess : Option Session) (mb : Nat) :
    ((c.useSession sess mb).box mb).state = (c.box mb).state := by
  unfold Chip.useSession
  split
  · rw [Chip.box_setBox]
  · rfl

/-- A command that is taken here ends, or leaves its mailbox in the state it was in. -/
theorem runLocal_parked (m : Cmd) (mb : Nat) (d : Dev) (hpark : ∀ x r e k f, m.body x r e = .park k f → f = id) :
    ((runLocal m mb d).chip.box mb).parked = none ∨
      ((runLocal m mb d).chip.box mb).state = (d.chip.box mb).state := by
  have done : ∀ res, (∀ k f, res = .park k f → f = id) →
      let t := finish m (d.chip.ctxOf mb) (d.chip.requestOf mb) res
        { d with chip := d.chip.useSession (d.chip.ctxOf mb).sess mb }
      (t.chip.box mb).parked = none ∨ (t.chip.box mb).state = (d.chip.box mb).state := by
    intro res h
    rw [← Chip.useSession_state d.chip (d.chip.ctxOf mb).sess mb]
    exact finish_parked m (d.chip.ctxOf mb) _ res _ h
  have refused : ∀ st rsp k f, Res.refuse st rsp = .park k f → f = id := by intro _ _ _ _ h; cases h
  unfold runLocal; dsimp only
  iterate 4
    split
    · exact done _ (refused _ _)
  split
  · split
    · exact done _ (refused _ _)
    · exact done _ (refused _ _)
  · split
    · exact done _ (refused _ _)
    · exact done _ (hpark _ _ _)

/-- A command that can be carried out is taken while its mailbox is RUNNING (R343, R344). -/
theorem tilpo_running {m : Cmd} {mb : Nat} {req : List Byte} {d : Dev} (h : Issues m mb req d.chip) :
    ∃ c, (c.box mb).state = .running ∧ tilpo m mb req d = runLocal m mb { d with chip := c } := by
  unfold tilpo
  simp only [h.up, h.reach, Bool.not_true, Bool.or_self, Bool.false_eq_true, if_false]
  rw [if_pos (by simpa using h.free)]
  generalize hb : ({ d.chip.box mb with
    opcode := m.opcode, length := req.length, req := Mem.writeBytes [] 0 (req.take 4096) } : Mailbox) = b
  obtain ⟨t, x, hr⟩ := Chip.ringBell_only (d.chip.setBox mb b) mb h.awake
  rw [Chip.box_setBox] at hr
  have hbox : ((d.chip.setBox mb b).ringBell mb).box mb = d.chip.queued b := by rw [hr]; exact Tab.getD_put_self ..
  have hid : ((d.chip.setBox mb b).ringBell mb).seam.id = d.chip.seam.id := by rw [hr]; rfl
  rw [if_pos (by rw [hbox, h.turn]; rfl)]
  generalize (d.chip.setBox mb b).ringBell mb = c1 at hbox hid ⊢
  have hrun : ((c1.setMbxState mb .running).count 0x49 1).box mb = { d.chip.queued b with state := .running } := by
    rw [count_box, Chip.setMbxState_box, hbox]
  have hseam : ((c1.setMbxState mb .running).count 0x49 1).seam.id = d.chip.seam.id := by
    obtain ⟨_, _, _, _, _, _, _, _, _, _, _, _, _, _, e⟩ :=
      (Chip.setMbxState_wrote c1 mb .running).trans (count_wrote _ 0x49 1)
    rw [e]; exact hid
  refine ⟨(c1.setMbxState mb .running).count 0x49 1, by rw [hrun], ?_⟩
  unfold takeWith; dsimp only
  refine if_pos ?_
  rw [hrun, hseam, ← hb]
  rcases h.here with e | e
  · simp [Chip.queued, e]
  · simp [Chip.queued, e]

/-- A command that waits for its outside party: its mailbox is RUNNING with what it waits for, and the chip has only noted
its taking. -/
theorem waits_park {m : Cmd} {i : Nat → List Byte → Instr} {mb : Nat} {req : List Byte} {s : State} {k : ParkKind}
    (hi : exec (i mb req) s = s.onDevIf (validMb mb) (tilpo m mb req))
    (hscope : ∀ p, Noted mb s.chip p → m.scope p mb req = m.scope s.chip mb req) (h : Issues m mb req s.chip)
    (hpark : ∀ x r e k f, m.body x r e = .park k f → f = id)
    (hbody : ∀ p, Taken mb s.chip p →
      m.body (runCtx m.opcode mb s.chip) req { chip := p, mem := s.mem } = .park k id) :
    ∃ t, exec (i mb req) s = .next t ∧ Waits mb k t.chip ∧ Wrote s.chip t.chip := by
  obtain ⟨p, hp, he⟩ := tilpo_taken (d := { chip := s.chip, mem := s.mem }) h hscope
  have ht : tilpo m mb req { chip := s.chip, mem := s.mem } = { chip := p.setBox mb { p.box mb with
      parked := some { on := k, answer := none, cancelSent := false } }, mem := s.mem } := by
    rw [he, hbody p hp]
    simp only [finish, runCtx_mb, hp.dry h, Bool.false_eq_true, if_false]
    rfl
  have hpk : ((tilpo m mb req { chip := s.chip, mem := s.mem }).chip.box mb).parked =
      some { on := k, answer := none, cancelSent := false } := by rw [ht, Chip.box_setBox]
  refine ⟨_, exec_command hi h, ⟨?_, hpk⟩, ?_⟩
  · obtain ⟨c, hc, hr⟩ := tilpo_running (d := { chip := s.chip, mem := s.mem }) h
    have hend := runLocal_parked m mb { chip := c, mem := s.mem } hpark
    rw [State.onDev_chip, hr]
    rw [hr] at hpk
    rcases hend with e | e
    · rw [e] at hpk; cases hpk
    · rw [e]; exact hc
  · rw [State.onDev_chip, ht]
    exact hp.wrote.trans ⟨_, _, _, _, _, _, _, _, _, _, _, _, _, _, rfl⟩

end Sys2Proof.Machine

/-! SUPPORT. The power and firmware commands (R35, R37, R377, R378, R380, R468). -/

namespace Sys2Proof.Machine

/-! Entry into FIXED (R35). -/

/-- The record of VF_FIXED with its cause, as the setpoint and the last READ_VOUT of `c` stand. -/
def fixedRec (c : Chip) (cause : Nat) : EventRec :=
  { line := 0x25, kind := 1, inst := 0, detail := cause % 65536,
    value := (c.power.setpoint * 65536 + c.power.vout) % 2 ^ 64, time := c.t64, source := 0x3FF }

/-- The power state in FIXED, entered with `cause`. -/
def PowerSt.intoFixed (p : PowerSt) (cause : Nat) : PowerSt :=
  { p with fixed := true, vfCause := cause, settling := false, wide := 0, pmbusFails := 0, voutFails := 0,
           vcoreSafe := p.straps.vsafe }

theorem enterFixed_of_fixed {c : Chip} {cause : Nat} (h : c.power.fixed = true) : c.enterFixed cause = c := by
  simp [Chip.enterFixed, h]

theorem enterFixed_of_follow {c : Chip} {cause : Nat} (h : c.power.fixed = false) :
    ∃ x, c.enterFixed cause = { c with
      power := c.power.intoFixed cause, ev.waiting := c.ev.waiting ++ [fixedRec c cause], ev.counters := x } := by
  obtain ⟨x, hx⟩ := Chip.emit_eq { c with power := c.power.intoFixed cause } 0x25 1 0 cause
    (c.power.setpoint * 65536 + c.power.vout)
  refine ⟨x, ?_⟩
  unfold Chip.enterFixed
  rw [if_neg (by simp [h])]
  exact hx

section
variable {mb : Nat} {req : List Byte} {s : State}

/-! POWER.SET_VF_MODE (R35, R377). -/

/-- FIXED by command where the mode is FIXED changes nothing. -/
theorem setVfMode_fixed_in_fixed (hu : u8 req 0 = 1) (hf : s.chip.power.fixed = true) :
    Ends cmdVfMode .powerSetVfMode mb req s stOK [] s.chip s.mem := by
  refine ends_doC rfl (scope_default rfl) (fun _ c => c.enterFixed 0) ?_ ?_ rfl rfl
  · intro _ p _
    simp [cmdVfMode, hu]
  · intro p q _ hq
    rw [enterFixed_of_fixed (by rw [hq.wrote.power]; exact hf)]
    exact ⟨hq.wrote, rfl, rfl⟩

/-- FIXED by command from FOLLOW enters FIXED with cause 0 and reports it. -/
theorem setVfMode_fixed_in_follow (hu : u8 req 0 = 1) (hf : s.chip.power.fixed = false)
    (h : Issues cmdVfMode mb req s.chip) :
    ∃ t, exec (.powerSetVfMode mb req) s = .next t ∧ Ended mb stOK (s.chip.box mb).rsp [] t.chip ∧ t.mem = s.mem ∧
      t.chip.power = s.chip.power.intoFixed 0 ∧ fixedRec s.chip 0 ∈ t.chip.ev.waiting := by
  have follow : ∀ q, Noted mb s.chip q → q.power.fixed = false := fun q hq => by rw [hq.wrote.power]; exact hf
  obtain ⟨p, q, t, _, hq, hc, he, ht⟩ := tilpo_commit (m := cmdVfMode) (mb := mb) (req := req)
    (d := { chip := s.chip, mem := s.mem })
    (f := fun _ d => (d.onChip fun c => c.enterFixed 0, [])) h (scope_default rfl) (by intro p _; simp [cmdVfMode, hu, Res.doC])
    (by
      intro p q _ hq
      obtain ⟨x, hx⟩ := enterFixed_of_follow (cause := 0) (follow q hq)
      simp only [Dev.onChip_chip, hx]
      exact ⟨rfl, boxFrozen_congr mb rfl⟩)
  obtain ⟨x, hx⟩ := enterFixed_of_follow (cause := 0) (follow q hq)
  simp only [Dev.onChip_chip, hx] at hc
  refine ⟨_, exec_command rfl h, ?_, ?_, ?_, ?_⟩
  · rw [State.onDev_chip, ht]; exact he
  · rw [State.onDev_mem, ht]; rfl
  · rw [State.onDev_chip, ht, hc.power, hq.wrote.power]
  · have hrec : fixedRec s.chip 0 = fixedRec q 0 := by
      unfold fixedRec; rw [hq.wrote.power, hq.wrote.t64]
    rw [State.onDev_chip, ht, hc.waiting, hrec]
    exact List.mem_append_right _ (List.mem_singleton_self _)

/-- FOLLOW by command where the mode is FOLLOW changes nothing. -/
theorem setVfMode_follow_in_follow (hu : u8 req 0 = 0) (hf : s.chip.power.fixed = false) :
    Ends cmdVfMode .powerSetVfMode mb req s stOK [] s.chip s.mem := by
  refine ends_doC rfl (scope_default rfl) (fun _ c => c) ?_ ?_ rfl rfl
  · intro _ p hp
    simp [cmdVfMode, hu, hp.wrote.power, hf]; rfl
  · intro p q _ hq
    exact ⟨hq.wrote, rfl, rfl⟩

/-- POWER.SET_VF_MODE parks with no change of its own. -/
theorem cmdVfMode_park (x : Ctx) (r : List Byte) (d : Dev) (k : ParkKind) (f : Dev → Dev)
    (h : cmdVfMode.body x r d = .park k f) : f = id := by
  unfold cmdVfMode at h; dsimp only at h
  split at h
  · cases h
  · split at h
    · cases h
    · split at h
      · cases h; rfl
      · cases h

/-- FOLLOW by command from FIXED waits on a reading of the regulator. -/
theorem setVfMode_follow_in_fixed (hu : u8 req 0 = 0) (hf : s.chip.power.fixed = true)
    (h : Issues cmdVfMode mb req s.chip) :
    ∃ t, exec (.powerSetVfMode mb req) s = .next t ∧ Waits mb .pmbus t.chip ∧ t.chip.power = s.chip.power := by
  obtain ⟨t, he, hw, hn⟩ := waits_park (i := .powerSetVfMode) (k := .pmbus) rfl (scope_default rfl) h cmdVfMode_park (by
    intro p hp
    simp [cmdVfMode, hu, hp.wrote.power, hf])
  exact ⟨t, he, hw, hn.power⟩

theorem setVfMode_badArg (hu : 1 < u8 req 0) : Ends cmdVfMode .powerSetVfMode mb req s stBADARG [] s.chip s.mem := by
  refine ends_refuse rfl (scope_default rfl) ?_
  intro _ p _
  simp [cmdVfMode, hu, Res.no]

/-! The reads, and POWER.ENTER_STANDBY (R37, R377, R378, R468). -/

theorem readVfState_ends (p : PowerSt) (hp : p = s.chip.power) :
    Ends cmdVfState .powerReadVfState mb req s stOK
      (le 1 (b2n p.fixed) ++ le 1 p.vfCause ++ le 2 0 ++ le 2 p.setpoint ++ le 2 p.vout ++ le 2 p.margin ++ le 2 0 ++
        le 4 p.raises ++ le 4 p.lowers) s.chip s.mem := by
  refine ends_say rfl (scope_default rfl) ?_
  intro _ q hq
  subst hp
  simp only [cmdVfState, hq.wrote.power]

theorem readThermal_ends :
    Ends cmdThermal .powerReadThermal mb req s stOK
      (le 2 (unsigned 16 s.chip.tjLogic) ++
        ((List.range 4).flatMap fun i => le 2 (unsigned 16 (s.chip.power.temps.getD (32 + i) 0))) ++
        le 1 s.chip.power.step ++ le 1 0 ++ le 4 (peakLeft s.chip)) s.chip s.mem := by
  refine ends_say rfl (scope_default rfl) ?_
  intro _ p hp
  simp only [cmdThermal, peakLeft, Chip.tjLogic, hp.wrote.power]

theorem enterStandby_ends (ht : s.chip.mbx.tickets = []) :
    Ends cmdStandby .powerEnterStandby mb req s stOK [] { s.chip with power.standby := true } s.mem := by
  refine ends_doC rfl (scope_default rfl) (fun _ c => { c with power.standby := true }) ?_ ?_ rfl rfl
  · intro _ p hp
    simp [cmdStandby, hp.wrote.tickets, ht]
  · intro p q _ hq
    refine ⟨?_, rfl, rfl⟩
    rw [hq.wrote.power]
    exact hq.wrote.setPower _

theorem enterStandby_badState (ht : s.chip.mbx.tickets ≠ []) :
    Ends cmdStandby .powerEnterStandby mb req s stBADSTATE [] s.chip s.mem := by
  refine ends_refuse rfl (scope_default rfl) ?_
  intro _ p hp
  simp [cmdStandby, hp.wrote.tickets, ht, Res.no]

theorem fwReadInfo_ends :
    Ends cmdFwInfo .fwReadInfo mb req s stOK
      (([s.chip.board.imageA, s.chip.board.imageB].flatMap fun v =>
          le 4 v.version ++ le 1 v.shown.1 ++ le 3 0 ++ le 4 v.shown.2) ++
        le 1 s.chip.mgmt.active ++ le 1 s.chip.board.running) s.chip s.mem := by
  refine ends_say rfl (scope_default rfl) ?_
  intro _ p hp
  simp [cmdFwInfo, hp.wrote.board, hp.wrote.active]

/-! The firmware commands (R378, R380). -/

/-- Outside recovery an image runs where its number is the running one's. -/
theorem runs_eq {m : Cmd} {p : Chip} (h : Issues m mb req s.chip) (hp : Taken mb s.chip p) (i : Nat) :
    p.runs i = (s.chip.board.running == i) := by
  simp [Chip.runs, hp.wrote.power, hp.wrote.board, h.normal]

theorem image_putImage {c : Chip} {i : Nat} (v : ImageSt) : (c.putImage i v).image i = v := by
  unfold Chip.putImage Chip.image
  split <;> rfl

theorem image_putImage_other {c : Chip} {i : Nat} (v : ImageSt) (h : i ≤ 1) :
    (c.putImage i v).image (1 - i) = c.image (1 - i) := by
  obtain rfl | rfl : i = 0 ∨ i = 1 := by omega
  · rfl
  · rfl

theorem pairState_setPair (c : Chip) (k : Nat) (v : PairState) : (c.setPair k v).pairState k = v := by
  unfold Chip.setPair Chip.pairState
  split <;> rfl

theorem pairState_setImage (c : Chip) (k i : Nat) : (c.setImage k i).pairState = c.pairState := by
  unfold Chip.setImage
  split <;> rfl

theorem imageOf_setImage (c : Chip) (k i : Nat) : (c.setImage k i).imageOf k = i := by
  unfold Chip.setImage Chip.imageOf
  split <;> rfl

theorem putImage_same (c : Chip) (i : Nat) (v : ImageSt) :
    (c.putImage i v).mbx = c.mbx ∧ (c.putImage i v).hosts = c.hosts ∧ (c.putImage i v).up = c.up := by
  unfold Chip.putImage
  split <;> exact ⟨rfl, rfl, rfl⟩

/-- What FW.ACTIVATE does at its commit point (R378, R451): outside recovery the standby pair loads the image, unless it is
faulted. -/
def Chip.activates (c : Chip) (i : Nat) : Chip :=
  let b := 1 - c.mgmt.active
  if c.power.recovery || c.pairState b = .faulted then c else (c.setPair b .booting).setImage b i

theorem activates_same (c : Chip) (i : Nat) :
    (c.activates i).mbx = c.mbx ∧ (c.activates i).hosts = c.hosts ∧ (c.activates i).up = c.up ∧
      (c.activates i).mgmt.active = c.mgmt.active ∧ (c.activates i).board = c.board := by
  unfold Chip.activates Chip.setPair Chip.setImage; dsimp only
  split
  · exact ⟨rfl, rfl, rfl, rfl, rfl⟩
  · split <;> exact ⟨rfl, rfl, rfl, rfl, rfl⟩

/-- A standby pair that is not faulted boots the image. -/
theorem activates_boots {c : Chip} (hn : c.power.recovery = false) (hf : c.pairState (1 - c.mgmt.active) ≠ .faulted) (i : Nat) :
    (c.activates i).pairState (1 - c.mgmt.active) = .booting ∧ (c.activates i).imageOf (1 - c.mgmt.active) = i := by
  have he : c.activates i = (c.setPair (1 - c.mgmt.active) .booting).setImage (1 - c.mgmt.active) i :=
    if_neg (by simp [hn, hf])
  rw [he, pairState_setImage]
  exact ⟨pairState_setPair .., imageOf_setImage ..⟩

theorem Wrote.activates {c p : Chip} (h : Wrote c p) (i : Nat) : Wrote (c.activates i) (p.activates i) := by
  unfold Chip.activates; dsimp only
  rw [h.active, h.power, h.pairState]
  split
  · exact h
  · exact (h.setPair _ _).setImage _ _

section
variable {i : Nat} (hi : i = u8 req 0) (h1 : i ≤ 1)
include hi h1

theorem fwWriteImage_ends (hr : i ≠ s.chip.board.running) :
    Ends cmdFwWrite .fwWriteImage mb req s stOK []
      (s.chip.putImage i { s.chip.image i with
        staged := some (max ((s.chip.image i).staged.getD 0) (u32 req 4 + (req.length - 32))) })
      (s.mem.writeBytes (imageBase i + u32 req 4) (req.drop 32)) := by
  subst hi
  obtain ⟨hm, hh, hu⟩ := putImage_same s.chip (u8 req 0) { s.chip.image (u8 req 0) with
    staged := some (max ((s.chip.image (u8 req 0)).staged.getD 0) (u32 req 4 + (req.length - 32))) }
  refine ends_commit rfl (scope_default rfl) (fun _ d =>
    ({ d with
        chip := d.chip.putImage (u8 req 0) { d.chip.image (u8 req 0) with
          staged := some (max ((d.chip.image (u8 req 0)).staged.getD 0) (u32 req 4 + (req.length - 32))) },
        mem := d.mem.writeBytes (imageBase (u8 req 0) + u32 req 4) (req.drop 32) }, [])) ?_ ?_ (by rw [hm]) hu
  · intro h p hp
    simp [cmdFwWrite, runs_eq h hp, Ne.symm hr, Nat.not_lt.mpr h1]
  · intro p q _ hq
    refine ⟨?_, ?_, ?_, rfl, rfl⟩
    · dsimp only
      rw [hq.wrote.image]
      exact hq.wrote.putImage _ _
    · rw [(putImage_same ..).1]
    · rw [(putImage_same ..).2.1]

theorem fwWriteImage_badState (hr : i = s.chip.board.running) :
    Ends cmdFwWrite .fwWriteImage mb req s stBADSTATE [] s.chip s.mem := by
  subst hi
  refine ends_refuse rfl (scope_default rfl) ?_
  intro h p hp
  simp [cmdFwWrite, runs_eq h hp, ← hr, Nat.not_lt.mpr h1, Res.no]

/-- What FW.COMMIT_IMAGE leaves at its commit point: its ticket and the size that it names. -/
def Chip.commits (c : Chip) (x : Ctx) (i n : Nat) : Chip :=
  (c.openTicket x 0 (.fwCommit i)).putImage i { c.image i with commitSize := n }

theorem fwCommitImage_ends (hr : i ≠ s.chip.board.running) (ht : s.chip.mbx.tickets.length < 64)
    (hc : ∀ t ∈ s.chip.mbx.tickets, ∀ k, t.kind ≠ .fwCommit k) :
    Ends cmdFwCommit .fwCommitImage mb req s stPENDING (le 4 s.chip.mbx.nextTicket ++ le 4 0 ++ [])
      (s.chip.commits (runCtx cmdFwCommit.opcode mb s.chip) i (u32 req 4)) s.mem := by
  subst hi
  refine ends_later rfl (scope_default rfl) ht (fun _ _ => .fwCommit (u8 req 0)) (fun _ => 0)
    (fun _ _ d => (d.onChip fun c => c.putImage (u8 req 0) { c.image (u8 req 0) with commitSize := u32 req 4 }, []))
    ?_ ?_ ?_ ?_
  · intro h p hp
    unfold cmdFwCommit; dsimp only
    rw [if_neg (Nat.not_lt.mpr h1), if_neg]
    rw [Bool.or_eq_true, not_or, runs_eq h hp, hp.wrote.tickets]
    refine ⟨by simp [Ne.symm hr], ?_⟩
    rw [List.any_eq_true]
    rintro ⟨t, htm, hk⟩
    split at hk
    · rename_i k e; exact hc t htm k e
    · cases hk
  · rintro p q r _ hq rfl
    refine ⟨?_, ?_, ?_, rfl, rfl⟩
    · show Wrote (Chip.putImage _ _ _) (Chip.putImage _ _ { q.image _ with commitSize := u32 req 4 })
      rw [hq.wrote.image]
      exact (hq.wrote.openTicket _ _ _).putImage _ _
    · exact (congrArg MbxSt.boxes (putImage_same _ _ _).1).trans rfl
    · exact (congrArg HostsSt.ports (putImage_same _ _ _).2.1).trans rfl
  · exact (congrArg MbxSt.boxes (putImage_same _ _ _).1).trans rfl
  · exact (putImage_same _ _ _).2.2

theorem fwCommitImage_pending (hr : i ≠ s.chip.board.running) (ht : s.chip.mbx.tickets.length < 64)
    (hc : ∀ t ∈ s.chip.mbx.tickets, ∀ k, t.kind ≠ .fwCommit k) (h : Issues cmdFwCommit mb req s.chip) :
    ∃ t, exec (.fwCommitImage mb req) s = .next t ∧
      Ended mb stPENDING (s.chip.box mb).rsp (le 4 s.chip.mbx.nextTicket ++ le 4 0) t.chip ∧ t.mem = s.mem ∧
      t.chip.image i = { s.chip.image i with commitSize := u32 req 4 } ∧
      t.chip.image (1 - i) = s.chip.image (1 - i) ∧
      t.chip.mbx.tickets.map (·.kind) = s.chip.mbx.tickets.map (·.kind) ++ [.fwCommit i] := by
  obtain ⟨t, hx, he, hn, hm, _⟩ := fwCommitImage_ends hi h1 hr ht hc h
  rw [List.append_nil] at he
  refine ⟨t, hx, he, hm, ?_, ?_, ?_⟩
  · rw [hn.image]; exact image_putImage _
  · rw [hn.image]; exact image_putImage_other _ h1
  · rw [hn.tickets]
    unfold Chip.commits
    rw [(putImage_same _ _ _).1]
    exact List.map_append

theorem fwCommitImage_badState (hr : i = s.chip.board.running) :
    Ends cmdFwCommit .fwCommitImage mb req s stBADSTATE [] s.chip s.mem := by
  subst hi
  refine ends_refuse rfl (scope_default rfl) ?_
  intro h p hp
  simp [cmdFwCommit, runs_eq h hp, ← hr, Nat.not_lt.mpr h1, Res.no]

theorem fwActivate_ends (hr : i ≠ s.chip.board.running) (hv : (s.chip.image i).shown.1 = 2)
    (ht : s.chip.mbx.tickets.length < 64) :
    Ends cmdFwActivate .fwActivate mb req s stPENDING (le 4 s.chip.mbx.nextTicket ++ le 4 0 ++ [])
      ((s.chip.openTicket (runCtx cmdFwActivate.opcode mb s.chip) 0 (.fwActivate i)).activates i) s.mem := by
  subst hi
  refine ends_later rfl (scope_default rfl) ht (fun _ _ => .fwActivate (u8 req 0)) (fun _ => 0)
    (fun _ _ d => (d.onChip fun c => c.activates (u8 req 0), [])) ?_ ?_ ?_ ?_
  · intro h p hp
    unfold cmdFwActivate; dsimp only
    rw [if_neg (Nat.not_lt.mpr h1), if_neg]
    · rfl
    · simp [runs_eq h hp, hp.wrote.image, hv, Ne.symm hr]
  · rintro p q r _ hq rfl
    refine ⟨(hq.wrote.openTicket _ _ _).activates _, ?_, ?_, rfl, rfl⟩
    · exact (congrArg MbxSt.boxes (activates_same _ _).1).trans rfl
    · exact (congrArg HostsSt.ports (activates_same _ _).2.1).trans rfl
  · exact (congrArg MbxSt.boxes (activates_same _ _).1).trans rfl
  · exact (activates_same _ _).2.2.1

theorem fwActivate_pending (hr : i ≠ s.chip.board.running) (hv : (s.chip.image i).shown.1 = 2)
    (ht : s.chip.mbx.tickets.length < 64) (hf : s.chip.pairState (1 - s.chip.mgmt.active) ≠ .faulted)
    (h : Issues cmdFwActivate mb req s.chip) :
    ∃ t, exec (.fwActivate mb req) s = .next t ∧
      Ended mb stPENDING (s.chip.box mb).rsp (le 4 s.chip.mbx.nextTicket ++ le 4 0) t.chip ∧ t.mem = s.mem ∧
      t.chip.pairState (1 - s.chip.mgmt.active) = .booting ∧ t.chip.imageOf (1 - s.chip.mgmt.active) = i ∧
      t.chip.mgmt.active = s.chip.mgmt.active ∧ t.chip.board.running = s.chip.board.running ∧
      t.chip.mbx.tickets.map (·.kind) = s.chip.mbx.tickets.map (·.kind) ++ [.fwActivate i] := by
  obtain ⟨t, hx, he, hn, hm, _⟩ := fwActivate_ends hi h1 hr hv ht h
  let opened := s.chip.openTicket (runCtx cmdFwActivate.opcode mb s.chip) 0 (.fwActivate i)
  obtain ⟨sm, _, _, sa, sb⟩ := activates_same opened i
  obtain ⟨hpair, himage⟩ := activates_boots (c := opened) h.normal hf i
  rw [List.append_nil] at he
  refine ⟨t, hx, he, hm, ?_, ?_, ?_, ?_, ?_⟩
  · rw [hn.pairState]; exact hpair
  · rw [hn.imageOf]; exact himage
  · rw [hn.active]; exact sa
  · rw [hn.running, sb]; rfl
  · rw [hn.tickets, sm]; exact List.map_append

theorem fwActivate_badState (hr : (s.chip.image i).shown.1 ≠ 2 ∨ i = s.chip.board.running) :
    Ends cmdFwActivate .fwActivate mb req s stBADSTATE [] s.chip s.mem := by
  subst hi
  refine ends_refuse rfl (scope_default rfl) ?_
  intro h p hp
  unfold cmdFwActivate; dsimp only
  rw [if_neg (Nat.not_lt.mpr h1), if_pos]
  · rfl
  · rw [runs_eq h hp, hp.wrote.image]
    rcases hr with e | e
    · simp [e]
    · simp [← e]

end
end

/-- Settles O54: each clause is the lemma above that names its command and its case. -/
theorem powerCommands : Obligations.PowerCommands := by
  intro mb req s
  refine ⟨setVfMode_fixed_in_fixed, ?_, setVfMode_follow_in_follow, setVfMode_follow_in_fixed, setVfMode_badArg,
    readVfState_ends, readThermal_ends, enterStandby_ends, enterStandby_badState, fwReadInfo_ends, ?_, ?_⟩
  · exact setVfMode_fixed_in_follow
  · intro i hi h1 hr
    exact ⟨fwWriteImage_ends hi h1 hr, fwCommitImage_pending hi h1 hr, fwActivate_pending hi h1 hr,
      fun hv => fwActivate_badState hi h1 (.inl hv)⟩
  · intro i hi h1 hr
    exact ⟨fwWriteImage_badState hi h1 hr, fwCommitImage_badState hi h1 hr, fwActivate_badState hi h1 (.inr hr)⟩

end Sys2Proof.Machine

/-! SUPPORT. The close of a meter window (R29 to R31): what each meter then shows. -/

namespace Sys2Proof.Machine

/-! What reports write. -/

/-- The chip `d` is the chip `c` but for event records, counters and trace records. -/
def EvNotes (c d : Chip) : Prop :=
  ∃ w x t, d = { c with ev.waiting := w, ev.counters := x, ev.trace := c.ev.trace.noted t }

theorem EvNotes.refl (c : Chip) : EvNotes c c :=
  ⟨_, _, (c.ev.trace.queue, c.ev.trace.tseq, c.ev.trace.dropped, c.ev.trace.dropNew), rfl⟩

theorem EvNotes.trans {c d e : Chip} (h1 : EvNotes c d) (h2 : EvNotes d e) : EvNotes c e := by
  obtain ⟨_, _, _, rfl⟩ := h1
  obtain ⟨_, _, _, rfl⟩ := h2
  exact ⟨_, _, _, rfl⟩

theorem EvNotes.power {c d : Chip} (h : EvNotes c d) : d.power = c.power := by
  obtain ⟨_, _, _, rfl⟩ := h; rfl

theorem count_power (c : Chip) (k n : Nat) : (c.count k n).power = c.power := by
  obtain ⟨x, h⟩ := Chip.count_only c k n
  rw [h]

theorem emit_evNotes (c : Chip) (line kind inst detail value : Nat) : EvNotes c (c.emit line kind inst detail value) := by
  obtain ⟨_, _, h⟩ := Chip.emit_only c line kind inst detail value
  rw [h]; exact ⟨_, _, (c.ev.trace.queue, c.ev.trace.tseq, c.ev.trace.dropped, c.ev.trace.dropNew), rfl⟩

theorem trace_evNotes (c : Chip) (g kind : Nat) (data : List Byte) (time : Nat) : EvNotes c (c.trace g kind data time) := by
  obtain ⟨_, _, h⟩ := Chip.trace_only c g kind data time
  rw [h]; exact ⟨_, _, _, rfl⟩

/-! One meter. -/

/-- The flags that a meter shows of the window that closes (R30, R31). -/
def Chip.meterFlags (c : Chip) (paces : List Nat) (r i : Nat) : Nat :=
  b2n ((c.meter r i).waited && decide (c.carriedNow r i < c.admitted r i / scale)) +
    2 * b2n (decide (c.capacity r i / scale < c.admitted r i / scale)) + 4 * b2n (c.outOfService r i) +
    8 * b2n (((monitorsOf r i).map fun k => paces.getD k 1000).any fun x => decide (x < 1000))

/-- A meter once its window has closed (R29 to R31). -/
def Chip.closedMeter (c : Chip) (paces : List Nat) (r i : Nat) : MeterSt :=
  let ratios := (monitorsOf r i).map fun k => paces.getD k 1000
  { now := 0, waited := false, flags := c.meterFlags paces r i, capacity := c.capacity r i / scale,
    admitted := c.admitted r i / scale, carried := c.carriedNow r i,
    history := (c.carriedNow r i :: (c.meter r i).history).take 1000,
    pace := if r = 1 then 850 * (ratios.drop 1).foldl min (ratios.headD 1000) else c.capacity r i / scale }

/-- The close of a meter's window sets that meter, and reports. -/
theorem closeMeter_evNotes (c : Chip) (paces : List Nat) (r i : Nat) :
    EvNotes (c.setMeter r i (c.closedMeter paces r i)) (c.closeMeter paces r i) := by
  unfold Chip.closeMeter; dsimp only
  refine EvNotes.trans ?_ (trace_evNotes _ _ _ _ _)
  have reports : ∀ (p : Prop) [Decidable p] (d : Chip) (l k n a v : Nat), EvNotes d (if p then d.emit l k n a v else d) := by
    intro p _ d l k n a v
    split
    · exact emit_evNotes ..
    · exact .refl _
  have skips : ∀ (p : Prop) [Decidable p] (d : Chip) (l k n a v : Nat), EvNotes d (if p then d else d.emit l k n a v) := by
    intro p _ d l k n a v
    split
    · exact .refl _
    · exact emit_evNotes ..
  exact (reports _ _ _ _ _ _ _).trans (skips _ _ _ _ _ _ _)

/-- Bits 0 to 3 of the flags (R30, R31): SHORT, BELOW_ADMITTED, OUT_OF_SERVICE, BELOW_GUARANTEE. -/
theorem bit_flags (a b c d : Bool) :
    bit (b2n a + 2 * b2n b + 4 * b2n c + 8 * b2n d) 0 = a ∧ bit (b2n a + 2 * b2n b + 4 * b2n c + 8 * b2n d) 1 = b ∧
      bit (b2n a + 2 * b2n b + 4 * b2n c + 8 * b2n d) 2 = c ∧ bit (b2n a + 2 * b2n b + 4 * b2n c + 8 * b2n d) 3 = d := by
  revert a b c d; decide

/-- What each flag says (R30, R31). -/
theorem bit_meterFlags (c : Chip) (paces : List Nat) (r i : Nat) :
    (bit (c.meterFlags paces r i) 0 = true ↔
      (c.meter r i).waited = true ∧ c.carriedNow r i < c.admitted r i / scale) ∧
    (bit (c.meterFlags paces r i) 1 = true ↔ c.capacity r i / scale < c.admitted r i / scale) ∧
    (bit (c.meterFlags paces r i) 2 = true ↔ c.outOfService r i = true) ∧
    (bit (c.meterFlags paces r i) 3 = true ↔ ∃ k ∈ monitorsOf r i, paces.getD k 1000 < 1000) := by
  unfold Chip.meterFlags
  obtain ⟨h0, h1, h2, h3⟩ := bit_flags
    ((c.meter r i).waited && decide (c.carriedNow r i < c.admitted r i / scale))
    (decide (c.capacity r i / scale < c.admitted r i / scale)) (c.outOfService r i)
    (((monitorsOf r i).map fun k => paces.getD k 1000).any fun x => decide (x < 1000))
  rw [h0, h1, h2, h3]
  refine ⟨?_, decide_eq_true_iff, Iff.rfl, ?_⟩
  · rw [Bool.and_eq_true, decide_eq_true_iff]
  · rw [List.any_map, List.any_eq_true]
    simp only [Function.comp_apply, decide_eq_true_eq]

/-- A pipe's meter carries what it counted, and its pace is that of the slower of its two monitors (R29, R31). -/
theorem closedMeter_pipe (c : Chip) (paces : List Nat) (i : Nat) :
    (c.closedMeter paces 1 i).carried = (c.meter 1 i).now ∧
      (c.closedMeter paces 1 i).pace = 850 * min (paces.getD (2 * i) 1000) (paces.getD (2 * i + 1) 1000) :=
  ⟨rfl, rfl⟩

/-! Every meter of a window. -/

/-- The chip `d` is the chip `c` but for meters, the instant of the window's close, and reports. -/
def MeterNotes (c d : Chip) : Prop := ∃ m e, EvNotes { c with power.meters := m, power.windowEnd := e } d

theorem MeterNotes.closeMeter (c : Chip) (paces : List Nat) (r i : Nat) : MeterNotes c (c.closeMeter paces r i) :=
  ⟨_, _, closeMeter_evNotes c paces r i⟩

theorem meter_closeMeter (c : Chip) (paces : List Nat) (r i : Nat) :
    (c.closeMeter paces r i).meter r i = c.closedMeter paces r i := by
  unfold Chip.meter
  rw [(closeMeter_evNotes c paces r i).power]
  exact Chip.meter_setMeter ..

theorem meter_closeMeter_other (c : Chip) (paces : List Nat) {r i q j : Nat} (h : q * 65536 + j ≠ r * 65536 + i) :
    (c.closeMeter paces r i).meter q j = c.meter q j := by
  unfold Chip.meter
  rw [(closeMeter_evNotes c paces r i).power]
  exact Tab.getD_put_other _ _ _ h

theorem windowEnd_closeMeter (c : Chip) (paces : List Nat) (r i : Nat) :
    (c.closeMeter paces r i).power.windowEnd = c.power.windowEnd := by
  rw [(closeMeter_evNotes c paces r i).power]; rfl

/-- What a meter closes to depends on no other meter and on no report. -/
theorem MeterNotes.closedMeter {c d : Chip} (h : MeterNotes c d) (paces : List Nat) {r i : Nat}
    (hm : d.meter r i = c.meter r i) : d.closedMeter paces r i = c.closedMeter paces r i := by
  obtain ⟨m, e, w, x, t, rfl⟩ := h
  unfold Chip.closedMeter Chip.meterFlags Chip.carriedNow
  rw [hm]
  rfl

/-- The number under which a meter is listed. -/
def meterKey (p : Nat × Nat) : Nat := p.1 * 65536 + p.2

/-- The meters of a list close one after another. -/
def Chip.closeMeters (c : Chip) (paces : List Nat) (l : List (Nat × Nat)) : Chip :=
  c.foldC l fun c p => c.closeMeter paces p.1 p.2

theorem meter_closeMeters_other (paces : List Nat) (l : List (Nat × Nat)) (p : Nat × Nat) (hp : meterKey p ∉ l.map meterKey)
    (c : Chip) : (c.closeMeters paces l).meter p.1 p.2 = c.meter p.1 p.2 := by
  induction l generalizing c with
  | nil => rfl
  | cons q l ih =>
    rw [List.map_cons, List.mem_cons, not_or] at hp
    exact (ih hp.2 _).trans (meter_closeMeter_other c paces hp.1)

theorem windowEnd_closeMeters (paces : List Nat) (l : List (Nat × Nat)) (c : Chip) :
    (c.closeMeters paces l).power.windowEnd = c.power.windowEnd :=
  Chip.foldC_keeps (fun d => d.power.windowEnd = c.power.windowEnd) l _
    (fun d p h => (windowEnd_closeMeter d paces p.1 p.2).trans h) c rfl

/-- Each meter of a list without repetition closes on what the chip was before the first. -/
theorem meter_closeMeters (paces : List Nat) (l : List (Nat × Nat)) (hl : (l.map meterKey).Nodup) (p : Nat × Nat) (hp : p ∈ l)
    (c : Chip) : (c.closeMeters paces l).meter p.1 p.2 = c.closedMeter paces p.1 p.2 := by
  induction l generalizing c with
  | nil => cases hp
  | cons q l ih =>
    rw [List.map_cons, List.nodup_cons] at hl
    obtain ⟨hq, hl⟩ := hl
    rcases List.mem_cons.mp hp with rfl | hp
    · exact (meter_closeMeters_other paces l p hq _).trans (meter_closeMeter ..)
    · have hne : meterKey p ≠ meterKey q := fun e => hq (e ▸ List.mem_map_of_mem hp)
      exact (ih hl hp _).trans ((MeterNotes.closeMeter c paces q.1 q.2).closedMeter paces (meter_closeMeter_other c paces hne))

theorem allInstances_nodup : (allInstances.map meterKey).Nodup := by decide +kernel

theorem pipe_mem_allInstances {i : Nat} (h : i < 16) : (1, i) ∈ allInstances := by
  unfold allInstances
  rw [List.mem_flatMap]
  exact ⟨1, by simp, List.mem_map_of_mem (List.mem_range.mpr h)⟩

/-- What a window's close does after its meters: turns over the ports that leave the power state alone, and what the read
channels have spent. -/
theorem closeWindow_eq (c : Chip) (paces : List Nat) :
    ∃ (turn : Chip → Nat → Chip) (d : Chip) (rch : Tab ChanSt), (∀ e p, (turn e p).power = e.power) ∧
      d = ((({ c with power.windowEnd := c.t64 } : Chip).closeMeters paces allInstances).drawn.count 0x048 1).foldC
        [0, 1] turn ∧
      c.closeWindow paces = { d with hosts.rch := rch } := by
  refine ⟨_, _, _, ?_, rfl, rfl⟩
  intro e p
  dsimp only
  split
  · exact (emit_evNotes ..).power
  · rfl

/-- Turns that leave the power state alone leave it so together. -/
theorem foldC_power (c : Chip) (l : List Nat) {turn : Chip → Nat → Chip} (h : ∀ d p, (turn d p).power = d.power) :
    (c.foldC l turn).power = c.power :=
  Chip.foldC_keeps (fun d => d.power = c.power) l turn (fun d p hd => (h d p).trans hd) c rfl

theorem drawn_count_power (c : Chip) (k n : Nat) : (c.drawn.count k n).power = c.power := count_power c.drawn k n

theorem closeWindow_power (c : Chip) (paces : List Nat) :
    (c.closeWindow paces).power =
      (({ c with power.windowEnd := c.t64 } : Chip).closeMeters paces allInstances).power := by
  obtain ⟨turn, d, rch, hturn, hd, h⟩ := closeWindow_eq c paces
  calc (c.closeWindow paces).power
    _ = d.power := by rw [h]
    _ = _ := (congrArg Chip.power hd).trans ((foldC_power _ _ hturn).trans (drawn_count_power _ _ _))

theorem meter_closeWindow (c : Chip) (paces : List Nat) {p : Nat × Nat} (hp : p ∈ allInstances) :
    (c.closeWindow paces).meter p.1 p.2 = c.closedMeter paces p.1 p.2 := by
  have hm : MeterNotes c { c with power.windowEnd := c.t64 } := ⟨_, _, .refl _⟩
  unfold Chip.meter
  rw [closeWindow_power]
  exact (meter_closeMeters paces allInstances allInstances_nodup p hp _).trans (hm.closedMeter paces rfl)

theorem windowEnd_closeWindow (c : Chip) (paces : List Nat) : (c.closeWindow paces).power.windowEnd = c.t64 := by
  rw [closeWindow_power, windowEnd_closeMeters]

end Sys2Proof.Machine

/-! SUPPORT. Voltage following (R33 to R35) and the controllers' transactions (R493 to R496). -/

namespace Sys2Proof.Machine

/-! Rows of the running device. -/

/-- An event that leaves the chip as it is leaves the state as it is. -/
theorem State.run_same {s : State} {f : Chip → Chip} (h : f s.chip = s.chip) : s.run f = .next s := by
  unfold State.run State.onChip
  rw [h]
  split <;> rfl

/-- An event of the running device whose change is known. -/
theorem State.run_eq {s : State} {f : Chip → Chip} {c : Chip} (hh : s.chip.power.held = false) (h : f s.chip = c) :
    s.run f = .next { s with chip := c } := by
  rw [State.run_live f hh, ← h]; rfl

/-! The evaluation of the margin (R34). -/

section
variable {c : Chip} {m : Nat}

theorem evaluate_idle (h : c.power.stage ≠ .s4 ∨ c.power.fixed = true ∨ c.power.settling = true) : c.evaluate m = c := by
  refine if_pos ?_
  simp only [Bool.or_eq_true, bne_iff_ne]
  rcases h with h | h | h
  · exact .inl (.inl h)
  · exact .inl (.inr h)
  · exact .inr h

variable (h4 : c.power.stage = .s4) (hf : c.power.fixed = false) (hs : c.power.settling = false)
include h4 hf hs

/-- Below 1.050 the setpoint rises, by 25 mV below 1.020 and else by 10 mV. -/
theorem evaluate_raise {v : Nat} (hv : v = if m < 1020 then 25 else 10) (hm : m < 1050) (hmax : c.power.setpoint + v ≤ 850) :
    (c.evaluate m).power = { c.power with
      margin := m, wide := 0, setpoint := c.power.setpoint + v, settling := true, raisedFrom := c.power.setpoint,
      raises := (c.power.raises + 1) % 2 ^ 32 } := by
  have hmin : min 850 (c.power.setpoint + v) = c.power.setpoint + v := Nat.min_eq_right hmax
  have hpos : c.power.setpoint + v ≠ c.power.setpoint := by subst hv; split <;> omega
  unfold Chip.evaluate; dsimp only
  rw [if_neg (by simp [h4, hf, hs])]
  by_cases hlow : m < 1020
  · rw [if_pos hlow] at hv ⊢
    rw [← hv, hmin, if_neg hpos, count_power]
  · rw [if_neg hlow] at hv ⊢
    rw [if_pos hm, ← hv, hmin, if_neg hpos, count_power]

/-- From 1.050 on and below 1.080 the setpoint stands. -/
theorem evaluate_stand (h1 : 1050 ≤ m) (h2 : m < 1080) :
    c.evaluate m = { c with power.margin := m, power.wide := 0 } := by
  unfold Chip.evaluate; dsimp only
  rw [if_neg (by simp [h4, hf, hs]), if_neg (by omega), if_neg (by omega), if_pos h2]

/-- The first three wide evaluations in a row are counted. -/
theorem evaluate_wide (h1 : 1080 ≤ m) (hw : c.power.wide < 3) :
    c.evaluate m = { c with power.margin := m, power.wide := c.power.wide + 1 } := by
  unfold Chip.evaluate; dsimp only
  rw [if_neg (by simp [h4, hf, hs]), if_neg (by omega), if_neg (by omega), if_neg (by omega), if_pos (by omega)]

/-- The fourth lowers the setpoint by 5 mV where that keeps it at its floor. -/
theorem evaluate_lower (h1 : 1080 ≤ m) (hw : 3 ≤ c.power.wide) (hv : c.floorMv + 5 ≤ c.power.setpoint) :
    (c.evaluate m).power = { c.power with
      margin := m, wide := 0, setpoint := c.power.setpoint - 5, lowers := (c.power.lowers + 1) % 2 ^ 32 } := by
  have hnew : max (min c.power.setpoint c.floorMv) (c.power.setpoint - 5) = c.power.setpoint - 5 := by omega
  unfold Chip.evaluate; dsimp only
  rw [if_neg (by simp [h4, hf, hs]), if_neg (by omega), if_neg (by omega), if_neg (by omega), if_neg (by omega), hnew,
    if_neg (by omega), count_power]

/-- At its floor or below it the setpoint stands. -/
theorem evaluate_floor (h1 : 1080 ≤ m) (hw : 3 ≤ c.power.wide) (hv : c.power.setpoint ≤ c.floorMv) :
    c.evaluate m = { c with power.margin := m, power.wide := 0 } := by
  have hnew : max (min c.power.setpoint c.floorMv) (c.power.setpoint - 5) = c.power.setpoint := by omega
  unfold Chip.evaluate; dsimp only
  rw [if_neg (by simp [h4, hf, hs]), if_neg (by omega), if_neg (by omega), if_neg (by omega), if_neg (by omega), hnew,
    if_pos rfl]

end

/-! READ_VOUT in FOLLOW (R34, R35). -/

section
variable {c : Chip} {v : Nat}

/-- A reading that does not fit ends no settling. -/
theorem settling_of_misfit (hv : c.voutFits v = false) : (c.power.settling && !c.voutRaised v) = c.power.settling := by
  unfold Chip.voutRaised
  rw [hv, Bool.false_and, Bool.not_false, Bool.and_true]

variable (h4 : c.power.stage = .s4) (hf : c.power.fixed = false)
include h4 hf

theorem checkVout_fits (hv : c.voutFits v = true) :
    c.checkVout v = { c with
      power.vout := v % 65536, power.voutFails := 0,
      power.settling := c.power.settling && decide (2 * v ≤ c.power.setpoint + c.power.raisedFrom) } := by
  have hset : (!c.voutRaised v) = decide (2 * v ≤ c.power.setpoint + c.power.raisedFrom) := by
    unfold Chip.voutRaised
    rw [hv, Bool.true_and, ← decide_not]
    exact decide_eq_decide.mpr Nat.not_lt
  unfold Chip.checkVout; dsimp only
  rw [if_neg (by simp [h4, hf]), hv, if_pos rfl, hset]

theorem checkVout_first (hv : c.voutFits v = false) (hn : c.power.voutFails = 0) :
    c.checkVout v = { c with power.vout := v % 65536, power.voutFails := 1 } := by
  unfold Chip.checkVout; dsimp only
  rw [if_neg (by simp [h4, hf]), hv, if_neg Bool.false_ne_true, if_neg (by omega), settling_of_misfit hv, hn]

/-- The second reading in a row out of 15 mV enters FIXED. -/
theorem checkVout_second (hv : c.voutFits v = false) (hn : 1 ≤ c.power.voutFails) :
    c.checkVout v = ({ c with power.vout := v % 65536 } : Chip).enterFixed 3 := by
  unfold Chip.checkVout; dsimp only
  rw [if_neg (by simp [h4, hf]), hv, if_neg Bool.false_ne_true, if_pos (by omega), settling_of_misfit hv]

end

/-! The steps that follow a transaction (R475). -/

theorem enterSteps_eq (c : Chip) :
    ∃ k cs pv w x, c.enterSteps = { c with
      power.step := k, power.coolSince := cs, power.preview := pv, ev.waiting := c.ev.waiting ++ w, ev.counters := x } := by
  refine Chip.foldC_keeps (fun d => ∃ k cs pv w x, d = { c with
    power.step := k, power.coolSince := cs, power.preview := pv, ev.waiting := c.ev.waiting ++ w, ev.counters := x })
    _ _ ?_ c ⟨_, _, _, [], _, by rw [List.append_nil]⟩
  rintro d k ⟨_, _, _, w, _, rfl⟩
  obtain ⟨x, h⟩ := Chip.emit_eq _ 0x26 1 _ (256 + k) _
  exact ⟨_, _, _, _, x, h.trans (by rw [List.append_assoc])⟩

theorem enterSteps_mt (c : Chip) : c.enterSteps.mt = c.mt := by
  obtain ⟨_, _, _, _, _, h⟩ := enterSteps_eq c; rw [h]

theorem enterSteps_power (c : Chip) :
    ∃ k cs pv, c.enterSteps.power = { c.power with step := k, coolSince := cs, preview := pv } := by
  obtain ⟨k, cs, pv, _, _, h⟩ := enterSteps_eq c
  exact ⟨k, cs, pv, by rw [h]⟩

theorem enterSteps_waiting {c : Chip} {r : EventRec} (h : r ∈ c.ev.waiting) : r ∈ c.enterSteps.ev.waiting := by
  obtain ⟨_, _, _, _, _, e⟩ := enterSteps_eq c
  rw [e]; exact List.mem_append_left _ h

/-! Bus faults (R494, R495). -/

/-- The record of a bus fault of a controller. -/
def busRec (c : Chip) (mc cause addr : Nat) : EventRec :=
  { line := 0x29, kind := 1, inst := mc % 65536, detail := cause % 65536, value := addr % 2 ^ 64, time := c.t64,
    source := 0x3FF }

theorem busFault_eq (c : Chip) (mc cause addr : Nat) :
    ∃ x, c.busFault mc cause addr = { c with
      ev.waiting := c.ev.waiting ++ [busRec c mc cause addr], ev.counters := x } :=
  Chip.emit_eq c 0x29 1 mc cause addr

/-- A bus fault in a transaction is reported and the bus clear runs at least once. -/
theorem busCleared_eq (c : Chip) (mc cause addr : Nat) :
    ∃ x n st, 0 < n ∧ c.busCleared mc cause addr =
      ({ c with ev.waiting := c.ev.waiting ++ [busRec c mc cause addr], ev.counters := x, draw := c.draw + 1 } : Chip).setMc mc
        { c.mc mc with clears := (c.mc mc).clears + n, stuck := st } := by
  obtain ⟨x, h⟩ := busFault_eq c mc cause addr
  refine ⟨x, min 2 (c.fresh 35 [mc] % 3 + 1), c.fresh 35 [mc] % 3 == 2, by omega, ?_⟩
  unfold Chip.busCleared; dsimp only
  rw [h]; rfl

/-! The regulator's transactions (R35, R493). -/

/-- The chip as the START of a transaction with the regulator finds it on a free bus. -/
def Chip.regulatorTurn (c : Chip) : Chip :=
  c.setMc 3 { c.mc 3 with abandoned := false, clears := (c.mc 3).clears + b2n (c.mc 3).stuck, stuck := false }

theorem regulatorTurn_mc (c : Chip) :
    c.regulatorTurn.mc 3 =
      { c.mc 3 with abandoned := false, clears := (c.mc 3).clears + b2n (c.mc 3).stuck, stuck := false } :=
  Chip.mc_setMc ..

/-- The transactions of the regulator. -/
def regulatorReqs : List McReq := [.voutCommand, .readVout, .statusWord]

theorem transact_voutCommand (c : Chip) (v : Nat) :
    c.transact 3 .voutCommand .free (.ok v) = { c.regulatorTurn with power.pmbusFails := 0 } := rfl

theorem transact_readVout (c : Chip) (v : Nat) :
    c.transact 3 .readVout .free (.ok v) = ({ c.regulatorTurn with
      power.pmbusFails := 0, power.vout := v % 65536,
      power.settling := c.power.settling && !c.regulatorTurn.voutRaised v } : Chip).answerPmbus 0 (le 2 v) := rfl

theorem transact_failed (c : Chip) {r : McReq} (hr : r ∈ regulatorReqs) {e : McEnd}
    (he : e = .nack ∨ e = .pecError ∨ e = .arbitrationLost) : c.transact 3 r .free e = c.regulatorTurn.pmbusFailed := by
  simp only [regulatorReqs, List.mem_cons, List.not_mem_nil, or_false] at hr
  rcases hr with rfl | rfl | rfl <;> rcases he with rfl | rfl | rfl <;> rfl

theorem transact_sclHeld (c : Chip) {r : McReq} (hr : r ∈ regulatorReqs) :
    c.transact 3 r .free .sclHeld =
      ((c.regulatorTurn.busCleared 3 1 Config.regulatorAddress.toNat).enterFixed 2).answerPmbus 1 [] := by
  simp only [regulatorReqs, List.mem_cons, List.not_mem_nil, or_false] at hr
  rcases hr with rfl | rfl | rfl <;> rfl

theorem transact_tooLong (c : Chip) {r : McReq} (hr : r ∈ regulatorReqs) :
    c.transact 3 r .free .tooLong = (c.regulatorTurn.busCleared 3 2 Config.regulatorAddress.toNat).answerPmbus 1 [] := by
  simp only [regulatorReqs, List.mem_cons, List.not_mem_nil, or_false] at hr
  rcases hr with rfl | rfl | rfl <;> rfl

/-- The third failed transaction in a row enters FIXED (R35). -/
theorem pmbusFailed_third {c : Chip} (hf : c.power.fixed = false) (hn : 2 ≤ c.power.pmbusFails) :
    c.pmbusFailed.power = c.power.intoFixed 1 := by
  unfold Chip.pmbusFailed; dsimp only
  obtain ⟨x, h⟩ := enterFixed_of_follow (c := { c with power.pmbusFails := 0 }) (cause := 1) hf
  rw [if_pos (by omega), h]
  rfl

/-- Before that, failed transactions are counted (R35). -/
theorem pmbusFailed_counted {c : Chip} (hn : c.power.pmbusFails < 2) :
    c.pmbusFailed.power = { c.power with pmbusFails := c.power.pmbusFails + 1 } := by
  unfold Chip.pmbusFailed; dsimp only
  rw [if_neg (by omega)]
  rfl

/-- A bus fault of the regulator's controller is reported, and its bus is cleared (R494, R495). -/
theorem busCleared_regulator (c : Chip) (cause : Nat) :
    let d := c.regulatorTurn.busCleared 3 cause Config.regulatorAddress.toNat
    (c.mc 3).clears < (d.mc 3).clears ∧ busRec c 3 cause Config.regulatorAddress.toNat ∈ d.ev.waiting ∧
      d.power = c.power := by
  obtain ⟨x, n, st, hn, h⟩ := busCleared_eq c.regulatorTurn 3 cause Config.regulatorAddress.toNat
  dsimp only
  rw [h, Chip.mc_setMc, regulatorTurn_mc]
  refine ⟨?_, List.mem_append_right _ (List.mem_singleton_self _), rfl⟩
  show (c.mc 3).clears < (c.mc 3).clears + b2n (c.mc 3).stuck + n
  omega

/-- The regulator's address is a 7-bit number. -/
theorem busRec_regulator (c : Chip) (k : Nat) (hk : k < 65536) :
    busRec c 3 k Config.regulatorAddress.toNat =
      { line := 0x29, kind := 1, inst := 3, detail := k, value := Config.regulatorAddress.toNat, time := c.t64,
        source := 0x3FF } := by
  have h1 : Config.regulatorAddress.toNat % 2 ^ 64 = Config.regulatorAddress.toNat :=
    Nat.mod_eq_of_lt (Config.regulatorAddress.isLt.trans (by decide))
  unfold busRec
  rw [h1, Nat.mod_eq_of_lt hk]

/-! Transactions with modules (R493 to R495). -/

theorem mcOf_ne_three (site : Nat) : Chip.mcOf site ≠ 3 := by
  unfold Chip.mcOf
  split
  · decide
  · split <;> decide

/-- A bus found STUCK ends the transaction before its START (R495). -/
theorem transact_module_stuck (c : Chip) (site : Fin 16) {mc : Nat} (h : mc = Chip.mcOf site.val) (e : McEnd) :
    ∃ sel, c.transact mc (.module site) .stuck e =
      (c.setMc mc { c.mc mc with sel := sel, abandoned := false, clears := (c.mc mc).clears + 2, stuck := true }).busFault mc 3
        site.val := by
  refine ⟨site.val - (if mc = 0 then 0 else if mc = 1 then 6 else 11), ?_⟩
  have h3 : mc ≠ 3 := h ▸ mcOf_ne_three site.val
  simp [Chip.transact, ← h, h3]

/-- A transaction on a freed bus that ends well brings its module to the ready state (R493, R495). -/
theorem transact_module_freed (c : Chip) (site : Fin 16) {mc : Nat} (h : mc = Chip.mcOf site.val) (k : Fin 2) (v : Nat) :
    ∃ sel, c.transact mc (.module site) (.freed k) (.ok v) =
      (c.setMc mc { c.mc mc with
        sel := sel, abandoned := false, clears := (c.mc mc).clears + 1 + k.val, stuck := false }).setModule site.val
        { present := true, ready := true, flags := v } := by
  refine ⟨site.val - (if mc = 0 then 0 else if mc = 1 then 6 else 11), ?_⟩
  simp [Chip.transact, ← h]

end Sys2Proof.Machine

/-! SUPPORT. The events of meters, voltage following, the controllers, the pacer and core holds (R29 to R35, R461, R466, R472,
R493 to R495). -/

namespace Sys2Proof.Machine

/-! The start pacer (R466). -/

theorem started_power (c : Chip) (e : StartEvent) : ∃ x, c.started_ e = { c with power.pipes := x } := by
  unfold Chip.started_
  split <;> exact ⟨_, rfl⟩

theorem started_pipeHalf (c : Chip) {e : StartEvent} (h : e.kind = .pipeHalf) :
    (c.started_ e).power.pipes.getD 0 e.inst = 1 := by
  unfold Chip.started_
  rw [h]; exact Tab.getD_put_self ..

theorem started_pipeFull (c : Chip) {e : StartEvent} (h : e.kind = .pipeFull) :
    (c.started_ e).power.pipes.getD 0 e.inst = 2 := by
  unfold Chip.started_
  rw [h]; exact Tab.getD_put_self ..

/-- The ramps still in progress. -/
def Chip.rampsOn (c : Chip) : List (Nat × Nat) := c.power.ramps.filter fun r => decide (c.up < r.2)

/-- The chip once the event `e` at the head of the queue has its grant. -/
def Chip.granted (c : Chip) (e : StartEvent) (rest : List StartEvent) : Chip :=
  (({ c with
      power.pacer := rest,
      power.ramps := c.rampsOn ++ [((startSlope e.kind).1, c.up + (startSlope e.kind).2 * 65536)] } : Chip).started_ e).count
    0x4F 1

/-- One turn of the pacer: the event at the head waits on where its slope finds no room, and else is granted. -/
theorem pacerRun_cons {c : Chip} {e : StartEvent} {rest : List StartEvent} (h : c.power.pacer = e :: rest) (n : Nat) :
    c.pacerRun (n + 1) =
      if 20 < (c.rampsOn.map (·.1)).sum + (startSlope e.kind).1 then { c with power.ramps := c.rampsOn }
      else (c.granted e rest).pacerRun n := by
  rw [List.sum_eq_foldl]
  conv_lhs => unfold Chip.pacerRun
  rw [h]
  rfl

theorem granted_power (c : Chip) (e : StartEvent) (rest : List StartEvent) :
    (c.granted e rest).power.pacer = rest ∧
      (c.granted e rest).power.ramps =
        c.rampsOn ++ [((startSlope e.kind).1, c.up + (startSlope e.kind).2 * 65536)] := by
  obtain ⟨x, h⟩ := started_power { c with
    power.pacer := rest,
    power.ramps := c.rampsOn ++ [((startSlope e.kind).1, c.up + (startSlope e.kind).2 * 65536)] } e
  unfold Chip.granted
  rw [count_power, h]
  exact ⟨rfl, rfl⟩

theorem granted_pipes (c : Chip) (e : StartEvent) (rest : List StartEvent) :
    (e.kind = .pipeHalf → (c.granted e rest).power.pipes.getD 0 e.inst = 1) ∧
      (e.kind = .pipeFull → (c.granted e rest).power.pipes.getD 0 e.inst = 2) := by
  unfold Chip.granted
  rw [count_power]
  exact ⟨started_pipeHalf _, started_pipeFull _⟩

/-- The pacer adds nothing to its queue. -/
theorem pacerRun_length (n : Nat) (c : Chip) : (c.pacerRun n).power.pacer.length ≤ c.power.pacer.length := by
  induction n generalizing c with
  | zero => exact Nat.le_refl _
  | succ n ih =>
    cases h : c.power.pacer with
    | nil =>
      unfold Chip.pacerRun
      rw [h]; dsimp only
      rw [h]
    | cons e rest =>
      rw [pacerRun_cons h]
      split
      · exact Nat.le_of_eq (congrArg List.length h)
      · refine (ih _).trans ?_
        rw [(granted_power c e rest).1, List.length_cons]
        exact Nat.le_succ _

/-! Rows that find nothing to do. -/

theorem modulePoll_absent {s : State} {site : Fin 16} (f : Option Nat) (hp : (s.chip.module site.val).present = false) :
    exec (.modulePoll site f) s = .next s := by
  refine State.run_same ?_
  unfold Chip.modulePolled; dsimp only
  rw [hp]; rfl

theorem siteInsertionPoll_silent (s : State) (site : Fin 16) : exec (.siteInsertionPoll site false) s = .next s := by
  refine State.run_same (if_pos ?_)
  simp

theorem stackReady_early {s : State} {k : Fin 4} (h : s.chip.stageNo < 2) : exec (.stackReady k) s = .next s :=
  State.run_same (if_pos h)

theorem startPacerGrant_empty {s : State} (h : s.chip.power.pacer = []) : exec .startPacerGrant s = .next s :=
  State.run_same (congrArg s.chip.pacerRun (congrArg List.length h))

theorem brownoutReset_running {s : State} (h : s.chip.power.coreHold = false) : exec .brownoutReset s = .next s :=
  State.run_same (if_neg (by simp [h]))

section
variable {s : State} (hh : s.chip.power.held = false)
include hh

/-! Meters (R29 to R31). -/

theorem meterWindowClose_next (l : List Nat) :
    ∃ t, exec (.meterWindowClose l) s = .next t ∧ t.chip.power.windowEnd = s.chip.t64 ∧
      (∀ p ∈ allInstances, t.chip.meter p.1 p.2 = s.chip.closedMeter l p.1 p.2) := by
  refine ⟨_, State.run_live _ hh, ?_, ?_⟩
  · rw [State.onChip_chip, windowEnd_closeWindow]
  · intro p hp
    rw [State.onChip_chip, meter_closeWindow _ _ hp]

/-! Voltage following (R34, R35). -/

theorem vfEvaluate_raise {m v : Nat} (h4 : s.chip.power.stage = .s4) (hf : s.chip.power.fixed = false)
    (hs : s.chip.power.settling = false) (hv : v = if m < 1020 then 25 else 10) (hm : m < 1050)
    (hmax : s.chip.power.setpoint + v ≤ 850) :
    ∃ t, exec (.vfEvaluate m) s = .next t ∧ t.chip.power = { s.chip.power with
      margin := m, wide := 0, setpoint := s.chip.power.setpoint + v, settling := true,
      raisedFrom := s.chip.power.setpoint, raises := (s.chip.power.raises + 1) % 2 ^ 32 } :=
  ⟨_, State.run_live _ hh, evaluate_raise h4 hf hs hv hm hmax⟩

theorem vfEvaluate_lower {m : Nat} (h4 : s.chip.power.stage = .s4) (hf : s.chip.power.fixed = false)
    (hs : s.chip.power.settling = false) (h1 : 1080 ≤ m) (hw : 3 ≤ s.chip.power.wide)
    (hv : s.chip.floorMv + 5 ≤ s.chip.power.setpoint) :
    ∃ t, exec (.vfEvaluate m) s = .next t ∧ t.chip.power = { s.chip.power with
      margin := m, wide := 0, setpoint := s.chip.power.setpoint - 5,
      lowers := (s.chip.power.lowers + 1) % 2 ^ 32 } :=
  ⟨_, State.run_live _ hh, evaluate_lower h4 hf hs h1 hw hv⟩

theorem readVoutCheck_second {v : Nat} (h4 : s.chip.power.stage = .s4) (hf : s.chip.power.fixed = false)
    (hv : s.chip.voutFits v = false) (hn : 1 ≤ s.chip.power.voutFails) :
    ∃ t, exec (.readVoutCheck v) s = .next t ∧ t.chip.power.fixed = true ∧ t.chip.power.vfCause = 3 ∧
      t.chip.power.setpoint = s.chip.power.setpoint ∧ t.chip.power.vcoreSafe = s.chip.power.straps.vsafe ∧
      { line := 0x25, kind := 1, inst := 0, detail := 3, value := (s.chip.power.setpoint * 65536 + v % 65536) % 2 ^ 64,
        time := s.chip.t64, source := 0x3FF } ∈ t.chip.ev.waiting := by
  obtain ⟨x, h⟩ := enterFixed_of_follow (c := { s.chip with power.vout := v % 65536 }) (cause := 3) hf
  refine ⟨_, State.run_eq hh ((checkVout_second h4 hf hv hn).trans h), rfl, rfl, rfl, rfl, ?_⟩
  exact List.mem_append_right _ (List.mem_singleton_self _)

/-! Transactions of the controllers (R35, R493 to R495). -/

/-- A transaction, and the steps that its answer may bring about: of the voltage loop and the controllers they change
nothing. -/
theorem mcTransaction_next {mc : Fin 4} {r : McReq} {k : McClear} {e : McEnd} {d : Chip}
    (hd : s.chip.transact mc.val r k e = d) :
    ∃ t, exec (.mcTransaction mc r k e) s = .next t ∧
      (∃ n cs pv, t.chip.power = { d.power with step := n, coolSince := cs, preview := pv }) ∧
      (∀ i, t.chip.mc i = d.mc i) ∧ (∀ i, t.chip.module i = d.module i) ∧
      ∀ x ∈ d.ev.waiting, x ∈ t.chip.ev.waiting := by
  subst hd
  refine ⟨_, State.run_live _ hh, enterSteps_power _, fun i => ?_, fun i => ?_, fun x hx => enterSteps_waiting hx⟩
  · exact congrArg (fun m => m.mcs.getD McSt.reset i) (enterSteps_mt _)
  · exact congrArg (fun m => m.modules.getD ModuleSt.reset i) (enterSteps_mt _)

theorem mcTransaction_readVout (v : Nat) :
    ∃ t, exec (.mcTransaction 3 .readVout .free (.ok v)) s = .next t ∧ t.chip.power.vout = v % 65536 ∧
      t.chip.power.pmbusFails = 0 ∧ (t.chip.mc 3).stuck = false := by
  obtain ⟨t, hx, ⟨_, _, _, hp⟩, hmc, _⟩ := mcTransaction_next hh (mc := 3) (transact_readVout s.chip v)
  refine ⟨t, hx, by rw [hp]; rfl, by rw [hp]; rfl, ?_⟩
  rw [hmc]
  exact congrArg McSt.stuck (regulatorTurn_mc s.chip)

theorem mcTransaction_voutCommand :
    ∃ t, exec (.mcTransaction 3 .voutCommand .free (.ok 0)) s = .next t ∧ t.chip.power.pmbusFails = 0 := by
  obtain ⟨t, hx, ⟨_, _, _, hp⟩, _⟩ := mcTransaction_next hh (mc := 3) (transact_voutCommand s.chip 0)
  exact ⟨t, hx, by rw [hp]⟩

theorem mcTransaction_failed {r : McReq} {e : McEnd} (he : e = .nack ∨ e = .pecError ∨ e = .arbitrationLost)
    (hr : r ∈ regulatorReqs) (hf : s.chip.power.fixed = false) :
    ∃ t, exec (.mcTransaction 3 r .free e) s = .next t ∧
      (2 ≤ s.chip.power.pmbusFails → t.chip.power.fixed = true ∧ t.chip.power.vfCause = 1) ∧
      (s.chip.power.pmbusFails < 2 → t.chip.power.fixed = false ∧
        t.chip.power.pmbusFails = s.chip.power.pmbusFails + 1) := by
  obtain ⟨t, hx, ⟨_, _, _, hp⟩, _⟩ := mcTransaction_next hh (mc := 3) (transact_failed s.chip hr he)
  refine ⟨t, hx, fun hn => ?_, fun hn => ?_⟩
  · rw [hp, pmbusFailed_third (c := s.chip.regulatorTurn) hf hn]
    exact ⟨rfl, rfl⟩
  · rw [hp, pmbusFailed_counted (c := s.chip.regulatorTurn) hn]
    exact ⟨hf, rfl⟩

theorem mcTransaction_timeout {r : McReq} {e : McEnd} {k : Nat}
    (he : e = .sclHeld ∧ k = 1 ∨ e = .tooLong ∧ k = 2) (hr : r ∈ regulatorReqs) (hf : s.chip.power.fixed = false) :
    ∃ t, exec (.mcTransaction 3 r .free e) s = .next t ∧ t.chip.power.fixed = (k == 1) ∧
      (k = 1 → t.chip.power.vfCause = 2) ∧ (s.chip.mc 3).clears < (t.chip.mc 3).clears ∧
      { line := 0x29, kind := 1, inst := 3, detail := k, value := Config.regulatorAddress.toNat, time := s.chip.t64,
        source := 0x3FF } ∈ t.chip.ev.waiting := by
  obtain ⟨hclears, hrec, hpower⟩ := busCleared_regulator s.chip k
  rw [busRec_regulator _ _ (by rcases he with ⟨_, rfl⟩ | ⟨_, rfl⟩ <;> decide)] at hrec
  rcases he with ⟨rfl, rfl⟩ | ⟨rfl, rfl⟩
  · obtain ⟨x, h⟩ := enterFixed_of_follow (cause := 2) ((congrArg PowerSt.fixed hpower).trans hf)
    obtain ⟨t, hx, ⟨_, _, _, hp⟩, hmc, _, hw⟩ :=
      mcTransaction_next hh (mc := 3) ((transact_sclHeld s.chip hr).trans (congrArg (·.answerPmbus 1 []) h))
    refine ⟨t, hx, by rw [hp]; rfl, fun _ => by rw [hp]; rfl, ?_, hw _ (List.mem_append_left _ hrec)⟩
    rw [hmc]; exact hclears
  · obtain ⟨t, hx, ⟨_, _, _, hp⟩, hmc, _, hw⟩ := mcTransaction_next hh (mc := 3) (transact_tooLong s.chip hr)
    refine ⟨t, hx, ?_, fun h => absurd h (by decide), ?_, hw _ hrec⟩
    · rw [hp]; exact (congrArg PowerSt.fixed hpower).trans hf
    · rw [hmc]; exact hclears

section
variable {site : Fin 16} {m : Fin 4} (hm : m.val = Chip.mcOf site.val)
include hm

theorem mcTransaction_stuck (e : McEnd) :
    ∃ t, exec (.mcTransaction m (.module site) .stuck e) s = .next t ∧ (t.chip.mc m.val).stuck = true ∧
      (t.chip.mc m.val).clears = (s.chip.mc m.val).clears + 2 ∧ t.chip.module site.val = s.chip.module site.val ∧
      { line := 0x29, kind := 1, inst := m.val, detail := 3, value := site.val, time := s.chip.t64, source := 0x3FF }
        ∈ t.chip.ev.waiting := by
  obtain ⟨sel, h⟩ := transact_module_stuck s.chip site hm e
  obtain ⟨x, hb⟩ := busFault_eq (s.chip.setMc m.val { s.chip.mc m.val with
    sel := sel, abandoned := false, clears := (s.chip.mc m.val).clears + 2, stuck := true }) m.val 3 site.val
  obtain ⟨t, hx, _, hmc, hmod, hw⟩ := mcTransaction_next hh (h.trans hb)
  have hself : t.chip.mc m.val = { s.chip.mc m.val with
      sel := sel, abandoned := false, clears := (s.chip.mc m.val).clears + 2, stuck := true } :=
    (hmc m.val).trans (Chip.mc_setMc ..)
  have hrec : busRec s.chip m.val 3 site.val =
      { line := 0x29, kind := 1, inst := m.val, detail := 3, value := site.val, time := s.chip.t64, source := 0x3FF } := by
    unfold busRec
    rw [Nat.mod_eq_of_lt (m.isLt.trans (by decide)), Nat.mod_eq_of_lt (site.isLt.trans (by decide))]
  refine ⟨t, hx, by rw [hself], by rw [hself], hmod _, ?_⟩
  rw [← hrec]
  exact hw _ (List.mem_append_right _ (List.mem_singleton_self _))

theorem mcTransaction_freed (k : Fin 2) (v : Nat) :
    ∃ t, exec (.mcTransaction m (.module site) (.freed k) (.ok v)) s = .next t ∧
      t.chip.module site.val = { present := true, ready := true, flags := v } ∧ (t.chip.mc m.val).stuck = false ∧
      (t.chip.mc m.val).clears = (s.chip.mc m.val).clears + 1 + k.val := by
  obtain ⟨sel, h⟩ := transact_module_freed s.chip site hm k v
  obtain ⟨t, hx, _, hmc, hmod, _⟩ := mcTransaction_next hh h
  have hself : t.chip.mc m.val = { s.chip.mc m.val with
      sel := sel, abandoned := false, clears := (s.chip.mc m.val).clears + 1 + k.val, stuck := false } :=
    (hmc m.val).trans (Chip.mc_setMc ..)
  refine ⟨t, hx, ?_, by rw [hself], by rw [hself]⟩
  rw [hmod, Chip.module_setModule]

end

/-! Polls of module sites (R493, R498). -/

/-- A module that no longer answers is gone. -/
theorem modulePoll_gone {site : Fin 16} (hp : (s.chip.module site.val).present = true) :
    ∃ t, exec (.modulePoll site none) s = .next t ∧ t.chip.module site.val = ModuleSt.reset := by
  refine ⟨_, State.run_live _ hh, ?_⟩
  obtain ⟨x, h⟩ := Chip.emit_eq (s.chip.setModule site.val ModuleSt.reset) 0x28 1 site.val 2 0
  rw [State.onChip_chip]
  unfold Chip.modulePolled; dsimp only
  rw [if_neg (by simp [hp]), h]
  exact Chip.module_setModule ..

/-- A module that answers is ready, and a fault that it shows anew is reported. -/
theorem modulePoll_flags {site : Fin 16} (v : Nat) (hp : (s.chip.module site.val).present = true) :
    ∃ t, exec (.modulePoll site (some v)) s = .next t ∧
      t.chip.module site.val = { s.chip.module site.val with ready := true, flags := v } ∧
      (v ≠ 0 → v ≠ (s.chip.module site.val).flags →
        { line := 0x28, kind := 1, inst := site.val, detail := 1, value := v % 2 ^ 64, time := s.chip.t64,
          source := 0x3FF } ∈ t.chip.ev.waiting) := by
  refine ⟨_, State.run_live _ hh, ?_⟩
  obtain ⟨x, h⟩ := Chip.emit_eq
    (s.chip.setModule site.val { s.chip.module site.val with ready := true, flags := v }) 0x28 1 site.val 1 v
  have hsite : site.val % 65536 = site.val := Nat.mod_eq_of_lt (site.isLt.trans (by decide))
  rw [hsite] at h
  rw [State.onChip_chip]
  unfold Chip.modulePolled; dsimp only
  rw [if_neg (by simp [hp])]
  split
  · rw [h]
    exact ⟨Chip.module_setModule .., fun _ _ => List.mem_append_right _ (List.mem_singleton_self _)⟩
  · rename_i hold
    refine ⟨Chip.module_setModule .., fun h0 h1 => absurd ?_ hold⟩
    simp [h0, h1]

theorem siteInsertionPoll_answered {site : Fin 16} (hp : (s.chip.module site.val).present = false) :
    ∃ t, exec (.siteInsertionPoll site true) s = .next t ∧
      t.chip.module site.val = { present := true, ready := true, flags := 0 } := by
  refine ⟨_, State.run_live _ hh, ?_⟩
  obtain ⟨x, h⟩ := Chip.emit_eq
    (s.chip.setModule site.val { present := true, ready := true, flags := 0 }) 0x28 1 site.val 3 0
  rw [State.onChip_chip]
  unfold Chip.sitePolled
  rw [if_neg (by simp [hp]), h]
  exact Chip.module_setModule ..

/-! The pacer and the stacks (R461, R466). -/

section
variable {e : StartEvent} {rest : List StartEvent} (hq : s.chip.power.pacer = e :: rest)
include hq

/-- The head of the queue alone decides what a grant does. -/
theorem startPacerGrant_run :
    exec .startPacerGrant s = .next { s with chip := s.chip.pacerRun (rest.length + 1) } :=
  State.run_eq hh (congrArg s.chip.pacerRun (congrArg List.length hq))

theorem startPacerGrant_full (hl : 20 < (s.chip.rampsOn.map (·.1)).sum + (startSlope e.kind).1) :
    exec .startPacerGrant s = .next { s with chip := { s.chip with power.ramps := s.chip.rampsOn } } := by
  rw [startPacerGrant_run hh hq, pacerRun_cons hq, if_pos hl]

theorem startPacerGrant_room (hl : (s.chip.rampsOn.map (·.1)).sum + (startSlope e.kind).1 ≤ 20) :
    ∃ t, exec .startPacerGrant s = .next t ∧ t.chip.power.pacer.length ≤ rest.length ∧
      (rest = [] → t.chip.power.pacer = [] ∧
        t.chip.power.ramps =
          s.chip.rampsOn ++ [((startSlope e.kind).1, s.chip.up + (startSlope e.kind).2 * 65536)] ∧
        (e.kind = .pipeHalf → t.chip.power.pipes.getD 0 e.inst = 1) ∧
        (e.kind = .pipeFull → t.chip.power.pipes.getD 0 e.inst = 2)) := by
  obtain ⟨hpacer, hramps⟩ := granted_power s.chip e rest
  refine ⟨_, startPacerGrant_run hh hq, ?_⟩
  rw [pacerRun_cons hq, if_neg (Nat.not_lt.mpr hl)]
  refine ⟨?_, ?_⟩
  · exact (pacerRun_length _ _).trans (Nat.le_of_eq (congrArg List.length hpacer))
  · rintro rfl
    exact ⟨hpacer, hramps, granted_pipes s.chip e []⟩

end

theorem stackReady_counts {k : Fin 4} (h : 2 ≤ s.chip.stageNo) :
    ∃ t, exec (.stackReady k) s = .next t ∧
      t.chip.power.fsStacks.getD 0 k.val = min 2 (s.chip.power.fsStacks.getD 0 k.val + 1) :=
  ⟨_, State.run_eq hh (if_neg (Nat.not_lt.mpr h)), Tab.getD_put_self ..⟩

/-! Core holds (R472). -/

theorem brownoutReset_held (h : s.chip.power.coreHold = true) :
    exec .brownoutReset s = .next { s with chip := { s.chip with
      power.nextCause := 5, power.held := true, safety.safe := true, safety.beat := false, safety.resume := false,
      safety.pinA := false, safety.pinB := true } } :=
  State.run_eq hh (if_pos h)

end

/-- Settles O57: each clause is the lemma above that names its row and its case, or what the operation it names does to the
chip. -/
theorem powerEvents : Obligations.PowerEvents := by
  intro s hh
  refine ⟨fun l => ?_, fun m h => State.run_same (evaluate_idle h), fun m v h4 hf hs => ⟨?_, ?_, ?_, ?_, ?_⟩,
    fun v h4 hf => ⟨?_, ?_, ?_⟩, mcTransaction_readVout hh, mcTransaction_voutCommand hh,
    fun r e he hr hf => mcTransaction_failed hh he hr hf, fun r e k he hr hf => mcTransaction_timeout hh he hr hf,
    fun site m hm => ⟨mcTransaction_stuck hh hm, mcTransaction_freed hh hm⟩, fun site f => ⟨modulePoll_absent f, ?_, ?_⟩,
    State.run_eq hh rfl, State.run_eq hh rfl, brownoutReset_running, brownoutReset_held hh, startPacerGrant_empty,
    fun e rest l hq hl => ?_, fun k => ⟨stackReady_early, stackReady_counts hh⟩⟩
  · obtain ⟨t, hx, hw, hm⟩ := meterWindowClose_next hh l
    refine ⟨t, hx, hw, fun p hp => ?_, fun i hi => ?_⟩
    · obtain ⟨short, below, out, slow⟩ := bit_meterFlags s.chip l p.1 p.2
      rw [hm p hp]
      exact ⟨rfl, rfl, rfl, rfl, short, below, out, slow, rfl⟩
    · rw [hm (1, i) (pipe_mem_allInstances hi)]
      exact closedMeter_pipe s.chip l i
  · exact fun hv hm hmax => vfEvaluate_raise hh h4 hf hs hv hm hmax
  · exact fun h1 h2 => State.run_eq hh (evaluate_stand h4 hf hs h1 h2)
  · exact fun h1 hw => State.run_eq hh (evaluate_wide h4 hf hs h1 hw)
  · rintro h1 hw rfl hv
    exact vfEvaluate_lower hh h4 hf hs h1 hw hv
  · exact fun h1 hw hv => State.run_eq hh (evaluate_floor h4 hf hs h1 hw hv)
  · exact fun hv => State.run_eq hh (checkVout_fits h4 hf hv)
  · exact fun hv hn => State.run_eq hh (checkVout_first h4 hf hv hn)
  · exact fun hv hn => readVoutCheck_second hh h4 hf hv hn
  · intro hp
    cases f with
    | none =>
      obtain ⟨t, hx, hm⟩ := modulePoll_gone hh hp
      exact ⟨t, hx, hm, fun v hv => by cases hv⟩
    | some v =>
      obtain ⟨t, hx, hm, hr⟩ := modulePoll_flags hh v hp
      exact ⟨t, hx, hm, fun w hw => by cases hw; exact hr⟩
  · exact fun hp => ⟨siteInsertionPoll_silent s site, siteInsertionPoll_answered hh hp⟩
  · subst hl
    exact ⟨startPacerGrant_full hh hq, startPacerGrant_room hh hq⟩

end Sys2Proof.Machine

/-! SUPPORT. What counts and decoder errors write of the encoder channels (R75, R76, R80, R84, R89, R92). -/

namespace Sys2Proof.Machine

/-! The shared operations that leave the position interface as it is. -/

namespace Chip

theorem enc_eq_of_pos {c d : Chip} (h : d.pos = c.pos) : d.enc = c.enc := by unfold enc; rw [h]

@[simp] theorem count_pos (c : Chip) (k n : Nat) : (c.count k n).pos = c.pos := by
  obtain ⟨_, h⟩ := count_only c k n; rw [h]

@[simp] theorem emit_pos (c : Chip) (line kind inst detail value : Nat) : (c.emit line kind inst detail value).pos = c.pos := by
  obtain ⟨_, _, h⟩ := emit_only c line kind inst detail value; rw [h]

@[simp] theorem addFault_pos (c : Chip) (kind inst : Nat) : (c.addFault kind inst).pos = c.pos := by
  obtain ⟨_, _, _, h⟩ := addFault_only c kind inst; rw [h]

@[simp] theorem winPush_pos (c : Chip) (w time : Nat) (stop : Bool) : (c.winPush w time stop).pos = c.pos := by
  obtain ⟨_, h⟩ := winPush_only c w time stop; rw [h]

@[simp] theorem encFaultRec_pos (c : Chip) (ch cause fail pairs : Nat) (warn : Bool) :
    (c.encFaultRec ch cause fail pairs warn).pos = c.pos := emit_pos ..

@[simp] theorem pushHistory_pos (c : Chip) (ch : Nat) : (c.pushHistory ch).pos = c.pos := rfl

@[simp] theorem enterSafe_pos (c : Chip) (i cause : Nat) : (c.enterSafe i cause).pos = c.pos := by
  unfold enterSafe; dsimp only; split
  · rfl
  · exact emit_pos ..

@[simp] theorem detect_pos (c : Chip) (i cause obj : Nat) : (c.detect i cause obj).pos = c.pos := by
  unfold detect; dsimp only; split
  · rfl
  · exact enterSafe_pos ..

@[simp] theorem windowCrossings_pos (c : Chip) (ch : Nat) (old new : Int) (t : Nat) :
    (c.windowCrossings ch old new t).pos = c.pos := by
  unfold windowCrossings
  refine foldC_keeps (fun d => d.pos = c.pos) _ _ (fun d w hd => ?_) c rfl
  rw [← hd]; dsimp only
  split
  · rfl
  · split <;> split <;> simp

end Chip

/-! One channel. -/

/-- Channel `ch` of the chip `d` holds `e`; every other channel stands as in the chip `c`. -/
def SetsEnc (ch : Nat) (e : EncChan) (c d : Chip) : Prop := d.enc ch = e ∧ ∀ k, k ≠ ch → d.enc k = c.enc k

section

variable {ch : Nat} {e : EncChan} {c d : Chip}

theorem SetsEnc.of_pos {d' : Chip} (h : SetsEnc ch e c d) (hp : d'.pos = d.pos) : SetsEnc ch e c d' := by
  unfold SetsEnc; rw [Chip.enc_eq_of_pos hp]; exact h

theorem SetsEnc.setEnc (h : SetsEnc ch e c d) (v : EncChan) : SetsEnc ch v c (d.setEnc ch v) :=
  ⟨Chip.enc_setEnc d ch v, fun k hk => (Chip.enc_setEnc_other d v hk).trans (h.2 k hk)⟩

theorem setEnc_sets (c : Chip) (ch : Nat) (v : EncChan) : SetsEnc ch v c (c.setEnc ch v) :=
  SetsEnc.setEnc ⟨rfl, fun _ _ => rfl⟩ v

/-- FAULT writes its flag and the speed of the channel alone (R75). -/
theorem SetsEnc.encFault (h : SetsEnc ch e c d) (cause fail pairs : Nat) (warn : Bool) :
    ∃ v, SetsEnc ch { e with fault := true, speed := v } c (d.encFault ch cause fail pairs warn) := by
  obtain ⟨rfl, ho⟩ := h
  unfold Chip.encFault; dsimp only
  by_cases hf : (d.enc ch).fault = true
  · rw [if_pos hf, ← hf]
    exact ⟨(d.enc ch).speed, SetsEnc.of_pos (d := d) ⟨rfl, ho⟩ (by split <;> simp)⟩
  · rw [if_neg hf]
    exact ⟨.invalid, SetsEnc.of_pos (SetsEnc.setEnc ⟨rfl, ho⟩ _) (by split <;> simp)⟩

/-- A decoder error counts, sets its sticky bit, and is FAULT past QERR_LIMIT (R76). -/
theorem SetsEnc.decodeError (h : SetsEnc ch e c d) (flag prev new : Nat) :
    ∃ f v, SetsEnc ch
        { e with qerrCount := sat 16 (e.qerrCount + 1), sticky := setBit e.sticky flag, fault := f, speed := v }
        c (d.decodeError ch flag prev new) ∧
      (f = true ↔ e.fault = true ∨ e.qerrLimit ≠ 255 ∧ e.qerrLimit < sat 16 (e.qerrCount + 1)) := by
  obtain ⟨rfl, ho⟩ := h
  have noted := fun v => ((SetsEnc.setEnc ⟨rfl, ho⟩ v).of_pos (Chip.count_pos _ (Chip.encCtr ch + 2) 1)).of_pos
    (Chip.emit_pos _ 9 1 ch (prev * 16 + new) (unsigned 64 (d.enc ch).raw))
  unfold Chip.decodeError; dsimp only
  split
  case isTrue past =>
    obtain ⟨hl, hn, -⟩ := past
    obtain ⟨v, hv⟩ := (noted _).encFault 2 0 0 false
    exact ⟨true, v, hv, iff_of_true rfl (.inr ⟨hn, hl⟩)⟩
  case isFalse within =>
    refine ⟨_, _, noted _, .inl, fun hf => hf.elim id fun ⟨hn, hl⟩ => ?_⟩
    by_contra hff
    exact within ⟨hl, hn, hff⟩

/-! Counts. -/

theorem speedStep_only (e : EncChan) (t : Nat) : ∃ r p g m k, Chip.speedStep e t =
    { e with ring := r, prevReverse := p, edge := g, measured := m, kLog2 := k } := by
  unfold Chip.speedStep; dsimp only
  generalize (if e.reverse != e.prevReverse then [] else e.ring) = old
  split <;> exact ⟨_, _, _, _, _, rfl⟩

/-- The compare position and DIR that the hysteresis of R92 gives a channel. -/
def compared (e : EncChan) : Int × Bool :=
  if 0 < posDiff e.raw e.xc then (e.raw, false)
  else if posDiff e.raw e.xc < -1 then (wrap48 (e.raw + 1), true)
  else (e.xc, e.reverse)

/-- The hysteresis of R92 moves the compare position and DIR, and steps the measurement of the speed. -/
theorem hysteresis_only (e : EncChan) (t : Nat) : ∃ r p g m k, Chip.hysteresis e t =
    { e with xc := (compared e).1, reverse := (compared e).2, ring := r, prevReverse := p, edge := g, measured := m,
             kLog2 := k } := by
  unfold Chip.hysteresis compared; dsimp only
  split
  · exact speedStep_only _ t
  · split
    · exact speedStep_only _ t
    · exact ⟨_, _, _, _, _, rfl⟩

/-- The dividers write of the channels their source's sticky bits alone (R99). -/
theorem SetsEnc.dividerInput (h : SetsEnc ch e c d) (n : Int) :
    ∃ st, SetsEnc ch { e with sticky := st } c (d.dividerInput ch n) := by
  unfold Chip.dividerInput
  refine Chip.foldC_keeps (fun t => ∃ st, SetsEnc ch { e with sticky := st } c t) _ _ ?_ d ⟨_, h⟩
  rintro t p ⟨st, ht⟩
  extract_lets v total back kept divided lost held marked
  have stepped : SetsEnc ch { e with sticky := st } c divided := ⟨ht.1, ht.2⟩
  split
  · exact ⟨st, ht⟩
  · split
    · exact ⟨st, stepped⟩
    · have noted : marked = divided.setEnc ch { e with sticky := setBit st 4 } := by simp only [marked, held, stepped.1]
      rw [noted]
      exact ⟨_, (stepped.setEnc _).of_pos ((Chip.emit_pos ..).trans (Chip.count_pos ..))⟩

/-- A channel that is not in FAULT takes its counts, and the compare position follows. -/
theorem SetsEnc.countBy (h : SetsEnc ch e c d) {n : Int} (t : Nat) (hf : e.fault = false) (hn : n ≠ 0) :
    ∃ a b, SetsEnc ch { Chip.hysteresis { e with raw := wrap48 (e.raw + n), sticky := a } t with sticky := b }
      c (d.countBy ch n t) := by
  obtain ⟨rfl, ho⟩ := h
  unfold Chip.countBy
  extract_lets held sum raw moved counted wrapped crossed
  have taken : SetsEnc ch moved c (d.setEnc ch moved) := SetsEnc.setEnc ⟨rfl, ho⟩ moved
  have crossed_pos : crossed.pos = (d.setEnc ch moved).pos := by
    simp only [crossed, wrapped, counted, Chip.windowCrossings_pos, Chip.pushHistory_pos]
    split <;> simp
  rw [if_neg (by simp [held, hf, hn])]
  exact ⟨_, (taken.of_pos crossed_pos).dividerInput n⟩

end

end Sys2Proof.Machine

/-! SUPPORT. The incremental and Hall decoders at a change of their inputs (R79 to R84). -/

namespace Sys2Proof.Machine

/-! A channel that has seen its inputs, and then counts or takes an error. -/

/-- Channel `ch` has seen its inputs in state `u` and does nothing more. -/
def Chip.saw (c : Chip) (ch u : Nat) : Chip := c.setEnc ch (sawInputs (c.enc ch) u)

section

variable {c : Chip} {ch : Nat}

theorem counted_saw {n : Int} (u t : Nat) (hf : (c.enc ch).fault = false) (hn : n ≠ 0) :
    Counted ch n c ((c.saw ch u).countBy ch n t) ∧
      (((c.saw ch u).countBy ch n t).enc ch).ab = u / 2 % 4 ∧
      (((c.saw ch u).countBy ch n t).enc ch).hallRef = (sawInputs (c.enc ch) u).hallRef := by
  obtain ⟨_, _, set⟩ := (setEnc_sets c ch (sawInputs (c.enc ch) u)).countBy t hf hn
  obtain ⟨_, _, _, _, _, moved⟩ := hysteresis_only _ t
  rw [moved] at set
  obtain ⟨held, others⟩ := set
  unfold Counted Chip.saw
  rw [held]
  exact ⟨⟨rfl, rfl, others⟩, rfl, rfl⟩

theorem errored_saw (u flag prev new : Nat) :
    Errored ch flag c ((c.saw ch u).decodeError ch flag prev new) ∧
      (((c.saw ch u).decodeError ch flag prev new).enc ch).ab = u / 2 % 4 ∧
      (((c.saw ch u).decodeError ch flag prev new).enc ch).hallRef = (sawInputs (c.enc ch) u).hallRef := by
  obtain ⟨_, _, ⟨held, others⟩, faults⟩ := (setEnc_sets c ch (sawInputs (c.enc ch) u)).decodeError flag prev new
  unfold Errored Chip.saw
  rw [held]
  exact ⟨⟨rfl, rfl, rfl, rfl, faults, others⟩, rfl, rfl⟩

theorem oriented_ne_zero (e : EncChan) {n : Int} (hn : n ≠ 0) : Chip.oriented e n ≠ 0 := by
  unfold Chip.oriented; split
  · exact Int.neg_ne_zero.mpr hn
  · exact hn

end

section

variable {s : State} {f : Chip → Chip} {ch u : Nat} (hh : s.chip.power.held = false)
include hh

theorem run_counts {t : Nat} {n : Int} (hf : (s.chip.enc ch).fault = false) (hn : n ≠ 0)
    (h : f s.chip = (s.chip.saw ch u).countBy ch (Chip.oriented (s.chip.enc ch) n) t) :
    ∃ t, s.run f = .next t ∧ Counted ch (Chip.oriented (s.chip.enc ch) n) s.chip t.chip ∧
      (t.chip.enc ch).ab = u / 2 % 4 ∧ (t.chip.enc ch).hallRef = (sawInputs (s.chip.enc ch) u).hallRef :=
  ⟨_, State.run_eq hh h, counted_saw u t hf (oriented_ne_zero _ hn)⟩

theorem run_errs {flag prev new : Nat} (h : f s.chip = (s.chip.saw ch u).decodeError ch flag prev new) :
    ∃ t, s.run f = .next t ∧ Errored ch flag s.chip t.chip ∧
      (t.chip.enc ch).ab = u / 2 % 4 ∧ (t.chip.enc ch).hallRef = (sawInputs (s.chip.enc ch) u).hallRef :=
  ⟨_, State.run_eq hh h, errored_saw u flag prev new⟩

end

/-! Quadrature (R79, R80). -/

/-- The steps in the forward sequence of AB from one state to another (R79). -/
def abTurn (old new : Nat) : Nat := (abPlace new + 4 - abPlace old) % 4

/-- A quadrature mode counts the transition from one state of AB to another (R79). -/
def countsAb (m : EncMode) (old new : Nat) : Bool :=
  m == .quadX4 || (m == .quadX2 && (bit new 1 != bit old 1)) ||
    (m == .quadX1 && ((old == 0 && new == 2) || (old == 2 && new == 0)))

/-- The state of the channel's inputs once A and B are in state `ab` and its third input stands. -/
def abInputs (e : EncChan) (ab : Nat) : Nat := ab * 2 + e.hallNow % 2

/-- The transitions of AB in which one line moves: the forward ones, then the reverse ones (R79). -/
def abSteps : List (Nat × Nat) := [(0, 2), (2, 3), (3, 1), (1, 0), (2, 0), (3, 2), (1, 3), (0, 1)]

theorem abTurn_forward : ∀ p ∈ [(0, 2), (2, 3), (3, 1), (1, 0)], abTurn p.1 p.2 = 1 := by decide

theorem abTurn_reverse : ∀ p ∈ [(2, 0), (3, 2), (1, 3), (0, 1)], abTurn p.1 p.2 = 3 := by decide

theorem abTurn_steps : ∀ p ∈ abSteps, abTurn p.1 p.2 = 1 ∨ abTurn p.1 p.2 = 3 := by decide

theorem abTurn_illegal : ∀ p ∈ [(0, 3), (3, 0), (1, 2), (2, 1)], abTurn p.1 p.2 = 2 := by decide

theorem abTurn_self (ab : Nat) : abTurn ab ab = 0 := by
  unfold abTurn; rw [Nat.add_sub_cancel_left]

theorem ab_abInputs (e : EncChan) (a b : Bool) : abInputs e (b2n a * 2 + b2n b) / 2 % 4 = b2n a * 2 + b2n b := by
  have ha : b2n a ≤ 1 := by cases a <;> decide
  have hb : b2n b ≤ 1 := by cases b <;> decide
  unfold abInputs; omega

section

variable {c : Chip} {ch new : Nat} {e : EncChan} {a b : Bool}

/-- The decoder in a quadrature mode, by the turn of AB. -/
theorem quad_turn (he : c.enc ch = e) (hnew : b2n a * 2 + b2n b = new) (hm : quadMode e.mode = true)
    (ht : abTurn e.ab new ≠ 0) :
    c.quad_ ch a b =
      if abTurn e.ab new = 2 then (c.saw ch (abInputs e new)).decodeError ch 1 e.ab new
      else if countsAb e.mode e.ab new then
        (c.saw ch (abInputs e new)).countBy ch (Chip.oriented e (if abTurn e.ab new = 1 then 1 else -1)) (c.edgeTime ch)
      else c.saw ch (abInputs e new) := by
  subst he hnew
  have hall : (c.enc ch).mode ≠ .hall := by rintro h; rw [h] at hm; cases hm
  have moved : b2n a * 2 + b2n b ≠ (c.enc ch).ab := by rintro h; rw [h, abTurn_self] at ht; exact ht rfl
  unfold Chip.quad_; dsimp only
  rw [if_neg (by simp [hall, moved]), if_neg (by simp [hm])]
  rfl

theorem quad_errs (he : c.enc ch = e) (hnew : b2n a * 2 + b2n b = new) (hm : quadMode e.mode = true)
    (ht : abTurn e.ab new = 2) : c.quad_ ch a b = (c.saw ch (abInputs e new)).decodeError ch 1 e.ab new := by
  rw [quad_turn he hnew hm (by omega), if_pos ht]

theorem quad_counts (he : c.enc ch = e) (hnew : b2n a * 2 + b2n b = new) (hm : quadMode e.mode = true)
    (hc : countsAb e.mode e.ab new = true) {n : Int} (ht : abTurn e.ab new = 1 ∧ n = 1 ∨ abTurn e.ab new = 3 ∧ n = -1) :
    c.quad_ ch a b = (c.saw ch (abInputs e new)).countBy ch (Chip.oriented e n) (c.edgeTime ch) := by
  rw [quad_turn he hnew hm (by omega), if_neg (by omega), if_pos hc]
  obtain ⟨ht, rfl⟩ | ⟨ht, rfl⟩ := ht <;> rw [ht] <;> rfl

theorem quad_uncounted (he : c.enc ch = e) (hnew : b2n a * 2 + b2n b = new) (hm : quadMode e.mode = true)
    (hc : countsAb e.mode e.ab new = false) (ht : abTurn e.ab new = 1 ∨ abTurn e.ab new = 3) :
    c.quad_ ch a b = c.saw ch (abInputs e new) := by
  rw [quad_turn he hnew hm (by omega), if_neg (by omega), if_neg (by simp [hc])]

/-- A mode that decodes nothing of A and B follows them. -/
theorem quad_follows (he : c.enc ch = e) (hnew : b2n a * 2 + b2n b = new) (hm : quadMode e.mode = false)
    (hall : e.mode ≠ .hall) (moved : new ≠ e.ab) : c.quad_ ch a b = c.saw ch (abInputs e new) := by
  subst he hnew
  unfold Chip.quad_; dsimp only
  rw [if_neg (by simp [hall, moved]), if_pos (by simp [hm])]
  rfl

theorem bit_one_ab (a b : Bool) : bit (b2n a * 2 + b2n b) 1 = a := by cases a <;> cases b <;> rfl

theorem countsAb_x2 (old : Nat) (a b : Bool) : countsAb .quadX2 old (b2n a * 2 + b2n b) = (a != bit old 1) := by
  unfold countsAb; rw [bit_one_ab]; exact Bool.or_false _

theorem countsAb_x1 : ∀ p ∈ abSteps, countsAb .quadX1 p.1 p.2 = (p.2 % 2 == 0 && !bit p.1 0) := by decide

/-- X4 counts every transition, X2 those of A, X1 those of A while B is low. -/
theorem countsAb_of_counting (hnew : b2n a * 2 + b2n b = new) (ht : (e.ab, new) ∈ abSteps)
    (h : e.mode = .quadX4 ∨ e.mode = .quadX2 ∧ (b2n a = 1 ↔ bit e.ab 1 = false) ∨
      e.mode = .quadX1 ∧ b2n b = 0 ∧ bit e.ab 0 = false) :
    quadMode e.mode = true ∧ countsAb e.mode e.ab new = true := by
  subst hnew
  obtain hm | ⟨hm, ha⟩ | ⟨hm, hb, hab⟩ := h <;> rw [hm] <;> refine ⟨rfl, ?_⟩
  case inl => rfl
  case inr.inl =>
    rw [countsAb_x2]
    cases a <;> simp_all [b2n]
  case inr.inr =>
    rw [countsAb_x1 _ ht, hab, hb]
    simp

/-- X2 only follows B, X1 all but the transitions of A while B is low. -/
theorem countsAb_of_following (hnew : b2n a * 2 + b2n b = new) (ht : (e.ab, new) ∈ abSteps)
    (h : e.mode = .quadX2 ∧ b2n a = e.ab / 2 ∨ e.mode = .quadX1 ∧ (b = true ∨ bit e.ab 0 = true)) :
    quadMode e.mode = true ∧ countsAb e.mode e.ab new = false := by
  subst hnew
  obtain ⟨hm, ha⟩ | ⟨hm, hb⟩ := h <;> rw [hm] <;> refine ⟨rfl, ?_⟩
  case inl =>
    have same : bit e.ab 1 = a := by unfold bit; rw [Nat.pow_one, ← ha]; cases a <;> rfl
    rw [countsAb_x2, same, bne_self_eq_false]
  case inr =>
    rw [countsAb_x1 _ ht]
    obtain rfl | hb := hb
    · have odd : (b2n a * 2 + b2n true) % 2 = 1 := by cases a <;> rfl
      rw [odd]; rfl
    · rw [hb]; simp

end

/-! PULSE_DIR and UP_DOWN (R81, R82). -/

section

variable {c : Chip} {ch : Nat} {e : EncChan}

/-- The state of the channel's inputs after a rising edge of A with B at `b`. -/
def pulseInputs (e : EncChan) (b : Bool) : Nat := 4 + 2 * b2n b + e.hallNow % 2

theorem oriented_unit (e : EncChan) (b : Bool) :
    Chip.oriented e (if b then 1 else -1) = if b = e.invert then -1 else 1 := by
  unfold Chip.oriented; cases b <;> cases e.invert <;> rfl

theorem unit_ne_zero (b : Bool) : (if b then 1 else -1 : Int) ≠ 0 := by cases b <;> decide

theorem pulse_counts (he : c.enc ch = e) (hm : e.mode = .pulseDir) (b : Bool) :
    c.pulse ch b false =
      (c.saw ch (pulseInputs e b)).countBy ch (Chip.oriented e (if b then 1 else -1)) (c.edgeTime ch) := by
  subst he
  unfold Chip.pulse; dsimp only
  rw [if_neg (by simp [hm]), Bool.bne_false]
  rfl

theorem pulse_errs (he : c.enc ch = e) (hm : e.mode = .pulseDir) (b : Bool) :
    c.pulse ch b true = (c.saw ch (pulseInputs e !b)).decodeError ch 1 (b2n b) (2 + b2n (!b)) := by
  subst he
  unfold Chip.pulse; dsimp only
  rw [if_neg (by simp [hm]), Bool.bne_true]
  rfl

theorem upDown_edge (he : c.enc ch = e) (hm : e.mode = .upDown) (a b : Bool) :
    c.upDown ch a b = (c.saw ch (e.hallNow ||| (4 * b2n a + 2 * b2n b))).countBy ch
      (Chip.oriented e ((b2n a : Int) - b2n b)) (c.edgeTime ch) := by
  subst he
  unfold Chip.upDown; dsimp only
  rw [if_neg (by simp [hm])]
  rfl

theorem upDown_counts (he : c.enc ch = e) (hm : e.mode = .upDown) (a : Bool) :
    c.upDown ch a (!a) = (c.saw ch (e.hallNow ||| (4 * b2n a + 2 * b2n (!a)))).countBy ch
      (Chip.oriented e (if a then 1 else -1)) (c.edgeTime ch) := by
  rw [upDown_edge he hm]; cases a <;> rfl

/-- Edges of A and B in one sample count nothing (R82). -/
theorem upDown_both (he : c.enc ch = e) (hm : e.mode = .upDown) : c.upDown ch true true = c.saw ch (e.hallNow ||| 6) := by
  have zero : Chip.oriented e ((b2n true : Int) - b2n true) = 0 := by unfold Chip.oriented; split <;> rfl
  rw [upDown_edge he hm, zero]
  unfold Chip.countBy; dsimp only
  rw [if_pos (by simp)]
  rfl

end

/-! The Hall decoder (R83, R84). -/

section

variable {c : Chip} {ch u : Nat} {e : EncChan}

/-- The steps in the forward sequence of UVW from one valid state to another (R83). -/
def hallTurn (old new : Nat) : Option Nat := (hallPlace new).bind fun p => (hallPlace old).map fun q => (p + 6 - q) % 6

theorem hallTurn_forward : ∀ p ∈ [(4, 6), (6, 2), (2, 3), (3, 1), (1, 5), (5, 4)], hallTurn p.1 p.2 = some 1 := by decide

theorem hallTurn_reverse : ∀ p ∈ [(6, 4), (2, 6), (3, 2), (1, 3), (5, 1), (4, 5)], hallTurn p.1 p.2 = some 5 := by decide

theorem hallTurn_self (h : hallPlace u ≠ none) : hallTurn u u = some 0 := by
  obtain ⟨p, hp⟩ := Option.ne_none_iff_exists'.mp h
  simp [hallTurn, hp]

theorem hallRef_sawInputs {k old : Nat} (ht : hallTurn old u = some k) : (sawInputs e u).hallRef = u := by
  unfold sawInputs; dsimp only
  rw [if_pos]
  cases hp : hallPlace u with
  | none => simp [hallTurn, hp] at ht
  | some p => rfl

/-- The decoder in HALL at a change of its inputs to a valid state, by the turn from the reference. -/
theorem hall_turn (he : c.enc ch = e) (hm : e.mode = .hall) (moved : u ≠ e.hallNow) {k : Nat}
    (ht : hallTurn e.hallRef u = some k) :
    c.hall ch u =
      if k = 0 then c.saw ch u
      else if k = 1 then (c.saw ch u).countBy ch (Chip.oriented e 1) (c.edgeTime ch)
      else if k = 5 then (c.saw ch u).countBy ch (Chip.oriented e (-1)) (c.edgeTime ch)
      else (c.saw ch u).decodeError ch 1 e.hallNow u := by
  subst he
  obtain ⟨p, hp, ht⟩ := Option.bind_eq_some_iff.mp ht
  obtain ⟨q, hq, rfl⟩ := Option.map_eq_some_iff.mp ht
  unfold Chip.hall; dsimp only
  rw [if_neg (by simpa using moved), if_neg (by simp [hm, quadMode]), if_neg (by simp [hm]), hp, hq]
  rfl

/-- 000 and 111 are no states of the sequence (R84). -/
theorem hall_illegal (he : c.enc ch = e) (hm : e.mode = .hall) (moved : u ≠ e.hallNow) (hu : hallPlace u = none) :
    c.hall ch u = (c.saw ch u).decodeError ch 2 e.hallNow u := by
  subst he
  unfold Chip.hall; dsimp only
  rw [if_neg (by simpa using moved), if_neg (by simp [hm, quadMode]), if_neg (by simp [hm]), hu]
  rfl

/-- In a quadrature mode the third input alone is taken from the Hall decoder's inputs. -/
theorem hall_quad (he : c.enc ch = e) (hm : quadMode e.mode = true) (moved : u ≠ e.hallNow) :
    c.hall ch u = c.saw ch (e.ab * 2 + u % 2) := by
  subst he
  unfold Chip.hall; dsimp only
  rw [if_neg (by simpa using moved), if_pos hm]
  rfl

theorem hall_follows (he : c.enc ch = e) (hq : quadMode e.mode = false) (hm : e.mode ≠ .hall) (moved : u ≠ e.hallNow) :
    c.hall ch u = c.saw ch u := by
  subst he
  unfold Chip.hall; dsimp only
  rw [if_neg (by simpa using moved), if_neg (by simp [hq]), if_pos (by simp [hm])]
  rfl

end

/-! The rows. -/

section

variable {s : State} {ch : Fin 8} {e : EncChan} {n : Int} (hh : s.chip.power.held = false) (he : s.chip.enc ch.val = e)
include hh he

theorem quadDecode_counts {a b : Bool} {new : Nat} (hnew : b2n a * 2 + b2n b = new) (hf : e.fault = false)
    (hm : quadMode e.mode = true ∧ countsAb e.mode e.ab new = true)
    (ht : abTurn e.ab new = 1 ∧ n = 1 ∨ abTurn e.ab new = 3 ∧ n = -1) :
    ∃ t, exec (.quadDecode ch a b) s = .next t ∧ (t.chip.enc ch.val).ab = new ∧
      Counted ch.val (Chip.oriented e n) s.chip t.chip := by
  subst he hnew
  obtain ⟨t, hx, counted, ab, -⟩ := run_counts (f := fun c => c.quad_ ch.val a b) hh hf (by omega)
    (quad_counts rfl rfl hm.1 hm.2 ht)
  exact ⟨t, hx, ab.trans (ab_abInputs _ a b), counted⟩

theorem quadDecode_errs {a b : Bool} {new : Nat} (hnew : b2n a * 2 + b2n b = new) (hm : quadMode e.mode = true)
    (ht : abTurn e.ab new = 2) :
    ∃ t, exec (.quadDecode ch a b) s = .next t ∧ (t.chip.enc ch.val).ab = new ∧ Errored ch.val 1 s.chip t.chip := by
  subst he hnew
  obtain ⟨t, hx, errored, ab, -⟩ := run_errs (f := fun c => c.quad_ ch.val a b) hh (quad_errs rfl rfl hm ht)
  exact ⟨t, hx, ab.trans (ab_abInputs _ a b), errored⟩

theorem pulseDirEdge_counts (hf : e.fault = false) (hm : e.mode = .pulseDir) (b : Bool) :
    ∃ t, exec (.pulseDirEdge ch b false) s = .next t ∧ Counted ch.val (if b = e.invert then -1 else 1) s.chip t.chip := by
  subst he
  obtain ⟨t, hx, counted, -⟩ :=
    run_counts (f := fun c => c.pulse ch.val b false) hh hf (unit_ne_zero b) (pulse_counts rfl hm b)
  exact ⟨t, hx, oriented_unit _ b ▸ counted⟩

theorem pulseDirEdge_errs (hm : e.mode = .pulseDir) (b : Bool) :
    ∃ t, exec (.pulseDirEdge ch b true) s = .next t ∧ Errored ch.val 1 s.chip t.chip := by
  obtain ⟨t, hx, errored, -⟩ := run_errs (f := fun c => c.pulse ch.val b true) hh (pulse_errs he hm b)
  exact ⟨t, hx, errored⟩

theorem upDownEdge_counts (hf : e.fault = false) (hm : e.mode = .upDown) (a : Bool) :
    ∃ t, exec (.upDownEdge ch a !a) s = .next t ∧ Counted ch.val (if a = e.invert then -1 else 1) s.chip t.chip := by
  subst he
  obtain ⟨t, hx, counted, -⟩ :=
    run_counts (f := fun c => c.upDown ch.val a !a) hh hf (unit_ne_zero a) (upDown_counts rfl hm a)
  exact ⟨t, hx, oriented_unit _ a ▸ counted⟩

theorem hallStateChange_counts {u : Fin 8} (hf : e.fault = false) (hm : e.mode = .hall) (moved : u.val ≠ e.hallNow)
    (ht : hallTurn e.hallRef u.val = some 1 ∧ n = 1 ∨ hallTurn e.hallRef u.val = some 5 ∧ n = -1) :
    ∃ t, exec (.hallStateChange ch u) s = .next t ∧ (t.chip.enc ch.val).hallRef = u.val ∧
      Counted ch.val (Chip.oriented e n) s.chip t.chip := by
  subst he
  have ref : (sawInputs (s.chip.enc ch.val) u.val).hallRef = u.val := ht.elim (hallRef_sawInputs ·.1) (hallRef_sawInputs ·.1)
  have turned : s.chip.hall ch.val u.val =
      (s.chip.saw ch.val u.val).countBy ch.val (Chip.oriented (s.chip.enc ch.val) n) (s.chip.edgeTime ch.val) := by
    obtain ⟨ht, rfl⟩ | ⟨ht, rfl⟩ := ht <;> exact hall_turn rfl hm moved ht
  obtain ⟨t, hx, counted, -, hr⟩ := run_counts (f := fun c => c.hall ch.val u.val) hh hf (by omega) turned
  exact ⟨t, hx, hr.trans ref, counted⟩

theorem hallStateChange_illegal {u : Fin 8} (hm : e.mode = .hall) (moved : u.val ≠ e.hallNow) (hu : hallPlace u.val = none) :
    ∃ t, exec (.hallStateChange ch u) s = .next t ∧ (t.chip.enc ch.val).hallRef = e.hallRef ∧
      Errored ch.val 2 s.chip t.chip := by
  subst he
  obtain ⟨t, hx, errored, -, hr⟩ := run_errs (f := fun c => c.hall ch.val u.val) hh (hall_illegal rfl hm moved hu)
  exact ⟨t, hx, hr.trans (if_neg (by simp [hu])), errored⟩

/-- A turn by more than one step has no direction (R84). -/
theorem hallStateChange_jumps {u : Fin 8} (hm : e.mode = .hall) (moved : u.val ≠ e.hallNow) {k : Nat}
    (ht : hallTurn e.hallRef u.val = some k) (hk : k ∈ [2, 3, 4]) :
    ∃ t, exec (.hallStateChange ch u) s = .next t ∧ (t.chip.enc ch.val).hallRef = u.val ∧
      Errored ch.val 1 s.chip t.chip := by
  subst he
  have turned := hall_turn (c := s.chip) rfl hm moved ht
  obtain ⟨stay, forward, reverse⟩ := (by decide : ∀ k ∈ [2, 3, 4], k ≠ 0 ∧ k ≠ 1 ∧ k ≠ 5) k hk
  rw [if_neg stay, if_neg forward, if_neg reverse] at turned
  obtain ⟨t, hx, errored, -, hr⟩ := run_errs (f := fun c => c.hall ch.val u.val) hh turned
  exact ⟨t, hx, hr.trans (hallRef_sawInputs ht), errored⟩

end

/-- Settles O21: each clause is the lemma above that names its row and what its inputs do there. -/
theorem positionDecoders : Obligations.PositionDecoders := by
  intro s ch hh hf
  refine ⟨fun a b hm => ⟨fun ht => ?_, fun ht => ?_⟩, fun a b hm ht => ?_, fun a b hm ht => ?_,
    fun hm => ⟨pulseDirEdge_counts hh rfl hf hm, pulseDirEdge_errs hh rfl hm⟩,
    fun hm => ⟨upDownEdge_counts hh rfl hf hm, State.run_eq hh (upDown_both rfl hm)⟩,
    fun hm u moved => ⟨fun ht => ?_, fun ht => ?_, fun hu => ?_, fun p q hp hq ht => ?_, fun hr hu => ?_⟩,
    fun hm u moved => State.run_eq hh (hall_quad rfl ?_ moved), fun hm => ⟨fun a b moved => ?_, fun u moved => ?_⟩⟩
  · exact quadDecode_counts hh rfl rfl hf (countsAb_of_counting rfl (List.mem_append_left _ ht) hm)
      (.inl ⟨abTurn_forward _ ht, rfl⟩)
  · exact quadDecode_counts hh rfl rfl hf
      (countsAb_of_counting rfl (List.mem_append_right [(0, 2), (2, 3), (3, 1), (1, 0)] ht) hm)
      (.inr ⟨abTurn_reverse _ ht, rfl⟩)
  · exact quadDecode_errs hh rfl rfl (by obtain h | h | h := hm <;> rw [h] <;> rfl) (abTurn_illegal _ ht)
  · obtain ⟨hq, hc⟩ := countsAb_of_following rfl ht hm
    exact State.run_eq hh (quad_uncounted rfl rfl hq hc (abTurn_steps _ ht))
  · exact hallStateChange_counts hh rfl hf hm moved (.inl ⟨hallTurn_forward _ ht, rfl⟩)
  · exact hallStateChange_counts hh rfl hf hm moved (.inr ⟨hallTurn_reverse _ ht, rfl⟩)
  · exact hallStateChange_illegal hh rfl hm moved (by obtain h | h := hu <;> rw [h] <;> rfl)
  · exact hallStateChange_jumps hh rfl hm moved (by rw [hallTurn, hp, hq]; rfl) ht
  · exact State.run_eq hh (hall_turn rfl hm moved (k := 0) (by rw [← hr]; exact hallTurn_self hu))
  · obtain h | h | h := hm <;> rw [h] <;> rfl
  · exact State.run_eq hh (quad_follows rfl rfl (by rw [hm]; rfl) (by rw [hm]; decide) moved)
  · exact State.run_eq hh (hall_follows rfl (by rw [hm]; rfl) (by rw [hm]; decide) moved)

end Sys2Proof.Machine
